-- ==== Sys2Proof/Word.lean ====
section
/-!
DEFINITION. The words of the Olmen module and the numbers that name its parts (spec/00_scope.md, Conventions;
spec/01_architecture.md, R11).
-/

namespace Sys2Proof

abbrev Byte := BitVec 8
/-- A 32-bit payload or register word. -/
abbrev Word := BitVec 32
/-- The 4-bit tag of a tagged word (R69). -/
abbrev Tag := BitVec 4

/-- C0 to C7. -/
abbrev Die := BitVec 3
/-- die × 512 + x × 32 + y (R200, R515). -/
abbrev ClusterId := BitVec 12
/-- die × 131,072 + cluster × 256 + x × 16 + y (spec/00_scope.md, Conventions). -/
abbrev CoreId := BitVec 20
abbrev FlaskId := BitVec 8
/-- A flask ID 0–255, or 0x100 for firmware, or 0x1FF for none (R100, R236). -/
abbrev Domain := BitVec 9
/-- Ethernet port P0–P7 (R346), root port RP0–RP7 (R395) or core port 0–7 (R161). -/
abbrev Port := BitVec 3
/-- Host endpoint HE0 or HE1 (R283). -/
abbrev Ep := BitVec 1
abbrev RegNo := BitVec 4

/-- A word of tagged memory (R69). -/
structure TWord where
  payload : Word
  tag : Tag
  deriving DecidableEq, Repr

namespace Tag
def raw : Tag := 0x0
def int : Tag := 0x1
def fx : Tag := 0x2
def f32 : Tag := 0x3
def ptr : Tag := 0x4
def code : Tag := 0x5
def p4 : Tag := 0x6
def p2 : Tag := 0x7
def p8 : Tag := 0x8
def scale : Tag := 0x9
def token : Tag := 0xA
def lock : Tag := 0xB
def poison : Tag := 0xF
/-- 0xC–0xE are reserved (R69). -/
def reserved (t : Tag) : Bool := t == 0xC || t == 0xD || t == 0xE
end Tag

/-- What an invalid or never written word of tagged memory reads as (R214). -/
def TWord.zero : TWord := ⟨0, Tag.raw⟩
/-- A marked word: payload 0 tagged POISON (R222). -/
def TWord.poisoned : TWord := ⟨0, Tag.poison⟩

/-- The little-endian number that a list of bytes spells. -/
def leNat : List Byte → Nat
  | [] => 0
  | b :: bs => b.toNat + 256 * leNat bs

/-- The n low bytes of a number, lowest first. -/
def leBytes : Nat → Nat → List Byte
  | 0, _ => []
  | n + 1, v => BitVec.ofNat 8 v :: leBytes n (v / 256)

/-- Bits [hi:lo] of a number, as the manual writes bit ranges. -/
def bits (v hi lo : Nat) : Nat := (v >>> lo) % 2 ^ (hi + 1 - lo)

/-- Saturating 32-bit count. -/
def satInc (v : Word) : Word := if v = 0xFFFF_FFFF then v else v + 1

end Sys2Proof
end

