-- ==== Sys2Proof/Machine/Tab.lean ====
section
/-!
DEFINITION. A sparse map in one canonical form: pairs of key and value, keys strictly rising, and no pair whose value
is what an unlisted key reads as. Memory, register blocks and tables of the module are held so.
-/

namespace Sys2Proof.Machine

/-- A sparse map from numbers; what an unlisted key reads as is given to `get` and `put`. -/
abbrev Tab (α : Type) := List (Nat × α)

namespace Tab
variable {α : Type}

def get (d : α) : Tab α → Nat → α
  | [], _ => d
  | (k', v) :: t, k => if k' = k then v else get d t k

/-- The map without key k. -/
def erase (k : Nat) : Tab α → Tab α
  | [] => []
  | (k', v) :: t => if k' = k then erase k t else (k', v) :: erase k t

/-- The pair put before the first greater key. -/
def ins (k : Nat) (v : α) : Tab α → Tab α
  | [] => [(k, v)]
  | (k', v') :: t => if k < k' then (k, v) :: (k', v') :: t else (k', v') :: ins k v t

def put [DecidableEq α] (d : α) (t : Tab α) (k : Nat) (v : α) : Tab α :=
  if v = d then erase k t else ins k v (erase k t)

/-- The map without the keys lo to hi − 1. -/
def eraseRange (lo hi : Nat) (t : Tab α) : Tab α :=
  t.filter fun e => !(decide (lo ≤ e.1) && decide (e.1 < hi))

/-- Every key of the first list put, in order. -/
def putAll [DecidableEq α] (d : α) : Tab α → Tab α → Tab α
  | t, [] => t
  | t, (k, v) :: r => putAll d (put d t k v) r

def keys (t : Tab α) : List Nat := t.map Prod.fst

/-- Every key of t is at least n, and the keys rise strictly. -/
def sortedFrom : Nat → Tab α → Bool
  | _, [] => true
  | n, (k, _) :: t => decide (n ≤ k) && sortedFrom (k + 1) t

/-- The canonical form. -/
def wf [DecidableEq α] (d : α) (t : Tab α) : Bool :=
  sortedFrom 0 t && t.all fun e => !(decide (e.2 = d))

end Tab
end Sys2Proof.Machine
end

