-- ==== Sys2Proof/Syntax.lean ====
section
/-!
DEFINITION. The commands of the module: one constructor of `Instr` for each row of spec/opcode_table.json, the rows of the
cores first, then the ladle commands, then the events; and the operand groups they share.
-/

namespace Sys2Proof

/-- A processor that executes Pothes (R67, R120, R310): a flask core, a cluster control core, or one of the hub's
firmware processors. -/
inductive Proc where
  | core (c : CoreId)
  | ccc (cl : ClusterId)
  | hub (k : BitVec 2)      -- 0 security, 1 power, 2 scheduler, 3 management (R315)
  deriving DecidableEq, Repr

/-- A party that may claim ownership (R433); index 0–3 in this order. -/
inductive Master where
  | he0 | he1 | mgmt | peer
  deriving DecidableEq, Repr

/-- A ladle: the admin ladle, or ladle n of a flask (R318). -/
inductive LadleRef where
  | admin
  | flask (f : FlaskId) (n : BitVec 4)
  deriving DecidableEq, Repr

/-- The header of a command entry (R321). -/
structure CmdHdr where
  ladle : LadleRef
  tag : Word
  flags : BitVec 16
  timeoutMs : BitVec 16
  deriving DecidableEq, Repr

/-! ### Instruction fields (R72–R94, R129). Bits [27:24], the class, and the op are fixed by the constructor. -/

/-- Class 0x0 (R75). -/
structure AluR where
  cond : BitVec 4
  rd : RegNo
  ra : RegNo
  rb : RegNo
  resv : BitVec 5
  s : Bool
  deriving DecidableEq, Repr

/-- Class 0x1 (R76). -/
structure AluI where
  cond : BitVec 4
  rd : RegNo
  ra : RegNo
  s : Bool
  imm : BitVec 12
  deriving DecidableEq, Repr

/-- Class 0x2 (R77). -/
structure MovI where
  cond : BitVec 4
  rd : RegNo
  imm : BitVec 16
  deriving DecidableEq, Repr

/-- Class 0x3 (R78): rb is in operand [11:8], a tag in operand [3:0]. -/
structure CmpF where
  cond : BitVec 4
  rd : RegNo
  ra : RegNo
  operand : BitVec 12
  deriving DecidableEq, Repr

/-- Class 0x4 (R79). -/
structure FpF where
  cond : BitVec 4
  rd : RegNo
  ra : RegNo
  rb : RegNo
  rc : RegNo
  resv : BitVec 4
  deriving DecidableEq, Repr

/-- Classes 0x5, 0x6 and 0x7 (R82–R84); `rd` is rs of a store. -/
structure MemF where
  cond : BitVec 4
  rd : RegNo
  ra : RegNo
  seg : BitVec 3
  l : Bool
  operand : BitVec 10
  deriving DecidableEq, Repr

/-- Class 0x8 (R87). -/
structure BrF where
  cond : BitVec 4
  disp : BitVec 22
  deriving DecidableEq, Repr

/-- `call`, both words (R88). -/
structure CallF where
  cond : BitVec 4
  ra : RegNo
  mask : BitVec 16
  mode : BitVec 2
  resv : BitVec 14
  disp : BitVec 16
  deriving DecidableEq, Repr

/-- `ret` and `jr` (R88). -/
structure JmpF where
  cond : BitVec 4
  ra : RegNo
  mask : BitVec 16
  deriving DecidableEq, Repr

/-- Class 0xA (R89). -/
structure StrF where
  cond : BitVec 4
  r : RegNo
  mask : BitVec 8
  resv : BitVec 5
  port : Port
  deriving DecidableEq, Repr

/-- Class 0xB (R90). -/
structure SyncF where
  cond : BitVec 4
  r : RegNo
  ra : RegNo
  seg : BitVec 3
  imm : BitVec 9
  deriving DecidableEq, Repr

/-- `edot` (R129). -/
structure EdotF where
  cond : BitVec 4
  e : BitVec 2
  wseg : BitVec 3
  wreg : RegNo
  xp : Bool
  xseg : BitVec 3
  xreg : RegNo
  n : BitVec 3
  deriving DecidableEq, Repr

/-- `epack` and `emx` (R129). -/
structure PackF where
  cond : BitVec 4
  e : BitVec 2
  sseg : BitVec 3
  sreg : RegNo
  dseg : BitVec 3
  dreg : RegNo
  preg : RegNo
  deriving DecidableEq, Repr

/-- `ezero` (R129). -/
structure EzeroF where
  cond : BitVec 4
  e : BitVec 2
  p : Bool
  resv : BitVec 7
  exp : BitVec 10
  deriving DecidableEq, Repr

/-- `erd` (R129). -/
structure ErdF where
  cond : BitVec 4
  e : BitVec 2
  rd : RegNo
  kind : BitVec 2
  imm : BitVec 6
  clr : Bool
  resv : BitVec 5
  deriving DecidableEq, Repr

/-- `ewait` (R129). -/
structure EwaitF where
  cond : BitVec 4
  e : BitVec 2
  all : Bool
  resv : BitVec 17
  deriving DecidableEq, Repr

/-- `edrift` (R129). -/
structure EdriftF where
  cond : BitVec 4
  e : BitVec 2
  rd : RegNo
  which : BitVec 2
  clr : Bool
  resv : BitVec 11
  deriving DecidableEq, Repr

/-- `bmv` (R92). -/
structure BmvF where
  cond : BitVec 4
  dseg : BitVec 3
  sseg : BitVec 3
  dreg : RegNo
  sreg : RegNo
  lines : BitVec 6
  resv : BitVec 3
  deriving DecidableEq, Repr

/-- `bwait` (R92). -/
structure BwaitF where
  cond : BitVec 4
  resv : BitVec 23
  deriving DecidableEq, Repr

/-- Class 0xE (R94). -/
structure SysF where
  cond : BitVec 4
  rd : RegNo
  ra : RegNo
  imm : BitVec 12
  deriving DecidableEq, Repr

/-! ### Operands of the other rows -/

/-- The triplicated words of the hub (R225): a fuse shadow, the root descriptor of a flask's mould, a key slot's header, the
owner record, the pair epoch. -/
inductive TripWord where
  | fuseShadow
  | mouldRoot (f : FlaskId)
  | keySlot (slot : BitVec 9)
  | ownerRecord
  | pairEpoch
  deriving DecidableEq, Repr

/-- An element that a soft repair takes out of use (R226, R227): a line by its address, a bit-column of the store that holds
an address, the triplicated store's spare macro, a row of a channel's DRAM. -/
inductive Repair where
  | line (addr : Nat)
  | column (addr : Nat) (bit : Nat)
  | spareMacro
  | dramRow (channel : BitVec 7) (row : Nat)
  deriving DecidableEq, Repr

/-- What a home's checker reports on the word or codeword it reads (R219, R224): the physical event, which comes from
outside the model. `stored` reports what the model's own memory holds; `parity` is an error of an entry that the home
consults first: a valid bit, a map or an owner table; `vote` is the hub's read of a triplicated word whose
copies do not all agree, with whether two of them do (R225). -/
inductive EccReport where
  | stored | correctable | uncorrectable | linkRetried | linkFailed | parity
  | vote (w : TripWord) (majority : Bool)
  deriving DecidableEq, Repr

/-- What reaches an input port (R162): the next word of the stream that begins at a core's output port, or the oldest
token that the hub holds for a binding (R164). -/
inductive Arrival where
  | word (src : CoreId) (port : Port)
  | token (f : FlaskId) (binding : BitVec 12)
  deriving DecidableEq, Repr

/-- Why a core is declared failed (R193). -/
inductive FailCause where
  | probeTimeout | parity | hardFault
  deriving DecidableEq, Repr

/-- What a cast meets that no state of the module fixes: whether a cluster fails while it is loaded (R64), and the event that
interrupts it before step 9 (R64). -/
inductive CastCut where
  | none | byReset | byAbort | byBreakout | schedulerRestart
  deriving DecidableEq, Repr

structure CastEnv where
  loadFault : Option ClusterId
  cut : CastCut
  deriving DecidableEq, Repr

structure CreateP where
  flask : BitVec 16
  host : Byte
  vectors : Byte
  ladles : Byte
  resv : BitVec 24
  qpQuota : Word
  mrQuota : Word
  shQuota : Word
  drainUs : Word
  deriving DecidableEq, Repr

structure LadleP where
  flask : BitVec 16
  ladle : Byte
  vector : Byte
  sqLog2 : Byte
  cqLog2 : Byte
  options : BitVec 16
  sqBase : BitVec 64
  cqBase : BitVec 64
  timeoutMs : Word
  deriving DecidableEq, Repr

structure DispatchP where
  args : BitVec 64
  startCluster : BitVec 16
  doneCluster : BitVec 16
  startOffset : Word
  doneOffset : Word
  doneCount : Word
  resv : BitVec 64
  argdata : BitVec 128
  deriving DecidableEq, Repr

/-- A firmware processor as R310 lists them. -/
inductive FwProc where
  | security | power | scheduler | management
  | cluster (cl : ClusterId)
  deriving DecidableEq, Repr

/-- What ROM finds on checking an image whose bytes the model does not hold, the one the module was made with (R316). -/
inductive ImageVerdict where
  | good | malformed | badSignature
  deriving DecidableEq, Repr

/-- A completion that a host returns for an outbound read (R296). -/
inductive HostCpl where
  | data (bytes : List Byte)
  | ur | ca | poisoned
  deriving DecidableEq, Repr

structure NetSendP where
  src : BitVec 64
  length : BitVec 16
  port : Byte
  pcp : Byte
  shaper : BitVec 16
  deriving DecidableEq, Repr

structure ShaperP where
  shaper : BitVec 16
  overhead : Byte
  rateMbps : Word
  burst : Word
  deriving DecidableEq, Repr

/-- `QP_CONNECT` (R368). -/
structure ConnectP where
  qpn : Word
  peerQpn : Word
  peerIp : BitVec 128
  dmac : BitVec 48
  vlan : BitVec 16
  peerEpoch : Word
  srcIp : Byte
  ports : Byte
  paths : Byte
  mode : Byte
  mtuLog2 : Byte
  slotLog2 : Byte
  retryLimit : Byte
  rnrLimit : Byte
  rtoUs : BitVec 16
  window : BitVec 16
  deriving DecidableEq, Repr

/-- `QP_CC_SET` (R369). -/
structure CcP where
  initCredit : Word
  recvWindow : Word
  targetUs : BitVec 16
  beta : Byte
  aiBytes : Word
  minWnd : Word
  maxWnd : Word
  deriving DecidableEq, Repr

/-- `MR_REGISTER` (R370). -/
structure MrP where
  base : BitVec 64
  length : BitVec 64
  qpn : Word
  perm : Byte
  resv : Byte
  stallUs : BitVec 16
  deriving DecidableEq, Repr

/-- `XP_SEND`, `XP_WRITE` and `XP_READ` (R377). -/
structure XpP where
  qpn : Word
  localAddr : BitVec 64
  length : Word
  key : Word
  remote : BitVec 64
  deriving DecidableEq, Repr

/-- The transport header (R371), without the reserved bits, whose value `zeroOk` reports. -/
structure XpHdr where
  version : BitVec 4
  zeroOk : Bool
  ackReq : Bool
  notify : Bool
  fence : Bool
  path : BitVec 16
  epoch : Word
  destQpn : BitVec 18
  psn : BitVec 24
  msn : Word
  msgLen : Word
  offset : Word
  ts : Word
  deriving DecidableEq, Repr

/-- SEND, WRITE and READ_RESP (R372). -/
inductive XpDataKind where
  | send
  | write (key : Word) (remote : BitVec 64)
  | readResp
  deriving DecidableEq, Repr

/-- The extension of an ACK or NAK (R373). -/
structure XpAck where
  cumPsn : BitVec 24
  sack : BitVec 64
  grant : BitVec 64
  msnDone : Word
  deriving DecidableEq, Repr

/-- What a receiver meets with a packet: a congestion mark of its IP header (R393), and whether the queue pair's state shows an
uncorrectable error (R365). -/
structure RxEnv where
  ce : Bool
  qpBad : Bool
  deriving DecidableEq, Repr

/-- The NAK codes (R373). -/
inductive NakCode where
  | seq | rnr | access | revoked | pageFault | fenced | qpError | uncorrectable
  deriving DecidableEq, Repr

structure StorP where
  volume : Byte
  cls : Byte
  blocks : Word
  lba : BitVec 64
  localAddr : BitVec 64
  deriving DecidableEq, Repr

/-- How a drive answers a command (R400): the data of a read, or an error. -/
inductive DriveResult where
  | ok (data : List Byte)
  | mediaError
  | nvmeError (statusField : BitVec 16)
  deriving DecidableEq, Repr

/-- The identity that Identify finds on a drive that is brought up (R397, R406). -/
structure DriveIdent where
  serial : BitVec 160
  blocks : BitVec 64
  supported : Bool
  vwc : Bool
  speed : BitVec 3
  maxBlocks : BitVec 32        -- the maximum transfer, 0 for none (R400)
  deriving DecidableEq, Repr

structure UnwrapP where
  wrap : BitVec 16
  target : BitVec 16
  length : BitVec 16
  blob : BitVec 64
  deriving DecidableEq, Repr

/-- The plaintext of a wrapped key, when the RFC 5649 integrity check passes (R426). -/
structure KeyAttrs where
  type : Byte
  usage : Byte
  scope : BitVec 16
  label : BitVec 96
  key : BitVec 512
  deriving DecidableEq, Repr

structure CvP where
  slot : BitVec 16
  mode : Byte
  tagLen : Byte
  length : Word
  src : BitVec 64
  tagAddr : BitVec 64
  iv : BitVec 96
  deriving DecidableEq, Repr

/-! ### Ingots as they stand on a drive (R484, R488) -/

/-- An engine error not yet reported (R154, R155). -/
structure EngErr where
  cause : BitVec 4
  block : BitVec 3
  discarded : Bool
  opPc : Nat
  deriving DecidableEq, Repr

/-- What a record holds of an engine: the state of R127, but for its queue, which a stop empties (R157). -/
structure EngImage where
  acc : Word
  aexp : BitVec 10
  pinned : Bool
  sat : Bool
  nan : Bool
  lfsr : BitVec 16
  satc : Word
  outc : Word
  clipc : Word
  err : Option EngErr
  deriving DecidableEq, Repr

/-- What a cluster record holds of a core, beside its store. A port's words carry whether the hub issued them. -/
structure CoreImage where
  g : Vector TWord 16
  pc : Nat
  stat : Word
  trap : Vector Word 4
  timer : Word
  armed : Bool
  inp : Vector (List (TWord × Bool)) 8
  credits : List Nat
  locks : List (BitVec 48 × Bool)
  eng : Vector EngImage 4
  deriving DecidableEq, Repr

/-- A waiter of a barrier that its core has left (R188), by flask core index. -/
structure WaiterImage where
  core : Nat
  addr : BitVec 48
  seg : BitVec 3
  off : Word
  round : BitVec 2
  closed : Bool
  deriving DecidableEq, Repr

/-- A cluster record: the words of the core stores by core × 2,048 + word, those of the cluster store, the cores, the waiter
table, the outstanding counts of the output ports and `CL.REMAP.GEN`. -/
structure ClusterImage where
  stores : List (Nat × TWord)
  shared : List (Nat × TWord)
  cores : List CoreImage
  waiters : List WaiterImage
  sent : List Nat
  gen : Byte
  deriving DecidableEq, Repr

/-- An ingot's header. -/
structure IngotHdr where
  number : Nat
  device : BitVec 128
  flask : Nat
  rot : BitVec 3
  sequence : Word
  mouldId : BitVec 128
  jobGroup : BitVec 128
  clusters : Nat
  granules : Nat
  epoch : Word
  time : BitVec 64
  keyCheck : BitVec 64
  dedup : Bool
  single : Bool
  peerCopy : Bool
  tableBlocks : Nat
  imageBlocks : Nat
  dataBlocks : Nat
  deriving DecidableEq, Repr

/-- An ingot's data in plain: the cluster records, and the 64 KiB granules of kinds 1 and 2 by flask address ÷ 65,536. -/
structure IngotData where
  records : List ClusterImage
  units : List (Nat × List Byte)
  deriving DecidableEq, Repr

structure TwinPolicyP where
  flask : BitVec 16
  priority : Byte
  host : Byte
  keySlot : BitVec 16
  area : Byte
  deriving DecidableEq, Repr

structure IngotSetupP where
  flask : BitVec 16
  slots : Byte
  area : Byte
  peerArea : Byte
  shadowPct : Byte
  keySlot : BitVec 16
  slotBlocks : BitVec 64
  quietMs : Word
  deriving DecidableEq, Repr

/-! ### The twin link -/

/-- What a module mirrors of its state (R462). A flask key and the key of a setup travel wrapped under the link key (R456). -/
inductive MirrorItem where
  | pair (epoch : Word) (owner : Option (Master × BitVec 16))
  | flask (f : FlaskId) (live : Bool) (p : CreateP) (ladles : List LadleP) (policy : Option TwinPolicyP)
  | key (f : FlaskId) (wrapped : List Byte)
  | moulds (f : FlaskId) (raw : List (List Byte)) (rot : BitVec 3) (measure : BitVec 512)
  | heads (l : LadleRef) (sqHead cqTail : Nat) (gen : Word)
  | qp (qpn : Nat) (f : Domain) (live : Bool) (p : Option ConnectP) (cc : Option CcP)
  | index (area slot : Nat) (f : FlaskId) (hdr : Option IngotHdr)
  | setup (f : FlaskId) (p : Option IngotSetupP) (key : Option (List Byte))
  | mac (port : Port) (v : BitVec 48)
  | rules (rs : List (List Word))
  | srcIp (out : BitVec 16) (addrs : List (List Word))
  | flaskNet (f : FlaskId) (tx macLo macHi : Word)
  deriving DecidableEq, Repr

/-- The items by name. -/
inductive MirrorSel where
  | pair
  | flask (f : FlaskId)
  | key (f : FlaskId)
  | moulds (f : FlaskId)
  | heads (l : LadleRef)
  | qp (qpn : Nat)
  | index (area slot : Nat) (f : FlaskId)
  | setup (f : FlaskId)
  | mac (port : Port)
  | rules
  | srcIp
  | flaskNet (f : FlaskId)
  deriving DecidableEq, Repr

/-- The state that a hello tells of its sender (R459, R472–R474). -/
inductive PeerSt where
  | pairing | joining | serving | survivor | readmitting | fenced
  deriving DecidableEq, Repr

/-- A twin-link message (R455): what its type carries. `xts` is the header's flag and flask: the bytes are that flask's data,
encrypted (R456). The block of an ingot stream names its series' flask. -/
inductive TwinBody where
  | heartbeat
  | hello (pub : BitVec 256) (peer : PeerSt)
  | mirror (item : MirrorItem)
  | windowWrite (xts : Option FlaskId) (addr : BitVec 44) (bytes : List Byte)
  | windowRead (addr : BitVec 44) (len : BitVec 13)
  | readResp (xts : Option FlaskId) (bytes : List Byte)
  | ingotStream (area : BitVec 4) (f : FlaskId) (slot : Byte) (block : BitVec 48) (bytes : List Byte)
  | register (write : Bool) (offset : BitVec 26) (value : Word)
  deriving DecidableEq, Repr

/-- A message: its GMAC tag, what its header carries, and its body. -/
structure TwinMsg where
  tag : BitVec 128
  epoch : Word
  seq : BitVec 64
  body : TwinBody
  deriving DecidableEq, Repr

/-- What the peer's management core answers (R465). -/
inductive MgmtAnswer where
  | coldShut | starting | fenced | schedulerStopped | inService (survivor : Bool)
  deriving DecidableEq, Repr

structure AreaP where
  port : Byte
  role : Byte
  resv : BitVec 16
  storeUnits : Word
  start : BitVec 64
  blocks : BitVec 64
  deriving DecidableEq, Repr

/-- How the stream of one copy of an ingot ended (R489, R495). -/
inductive CopyEnd where
  | written | mediaError | driveError | absent | linkLost
  deriving DecidableEq, Repr

/-- What self-test finds (R508). -/
structure BistReport where
  railTenths : BitVec 8
  rail : Byte
  clockPpm : BitVec 16
  clockDie : Die
  fatal : BitVec 8
  badCheckers : BitVec 5       -- the kinds of checker that failed, as `MEM.CHK` numbers them (R234)
  checkerFails : BitVec 16     -- checker instances that failed
  repairs : List Repair
  laneFail : BitVec 160
  faultyGranules : List Nat
  deriving DecidableEq, Repr

/-- What a start-up meets (R502–R508, R542): the straps, the fuse votes, ROM's verdict on each bank, the option-word
copies' checks, whether the rails and clocks come up, and what self-test reports. -/
structure StartupEnv where
  straps : Byte
  fuseMajority : Bool
  bankA : ImageVerdict
  bankB : ImageVerdict
  option0Ok : Bool
  option1Ok : Bool
  railsOk : Bool
  domainsStable : Bool
  refused : Bool
  bist : BistReport
  deriving DecidableEq, Repr

/-- A clock domain (R499). -/
inductive ClockDomain where
  | aon | hubCore
  | hubIsland (i : BitVec 6)
  | dieInfra (d : Die)
  | channels (d : Die)
  | cluster (cl : ClusterId)
  deriving DecidableEq, Repr

structure PmonP where
  kind : Byte
  counter : Byte
  event : Byte
  flags : Byte
  first : Word
  last : Word
  period : Word
  buffer : BitVec 64
  bufferBytes : Word
  deriving DecidableEq, Repr

/-- An MCTP control or PLDM request (R527). -/
inductive PldmReq where
  | getTid | getVersion | getTypes | getCommands
  | getSensorReading (id : Byte)
  | getPdr (record : Word) | getPdrRepositoryInfo
  | setEventReceiver (eid : Byte)
  | mctpControl (code : Byte)
  | other (type : Byte) (code : Byte)
  deriving DecidableEq, Repr

/-- The commands, one constructor per row of spec/opcode_table.json: the core's instructions, then the
ladle commands, then every event. -/
inductive Instr where
  /-- Core adds two registers, writing rd and optionally flags. (R75) -/
  | add (p : Proc) (f : AluR)
  /-- Core subtracts rb from ra. (R75) -/
  | sub (p : Proc) (f : AluR)
  /-- Core bitwise AND of two registers. (R75) -/
  | and (p : Proc) (f : AluR)
  /-- Core bitwise OR of two registers. (R75) -/
  | or (p : Proc) (f : AluR)
  /-- Core bitwise XOR of two registers. (R75) -/
  | xor (p : Proc) (f : AluR)
  /-- Core computes ra AND NOT rb. (R75) -/
  | andn (p : Proc) (f : AluR)
  /-- Core shifts ra left by rb[4:0]. (R75) -/
  | shl (p : Proc) (f : AluR)
  /-- Core logical right shift by rb[4:0]. (R75) -/
  | shr (p : Proc) (f : AluR)
  /-- Core arithmetic right shift by rb[4:0]. (R75) -/
  | sar (p : Proc) (f : AluR)
  /-- Core rotates ra left by rb[4:0]. (R75) -/
  | rol (p : Proc) (f : AluR)
  /-- Core writes low 32 bits of the product. (R75) -/
  | mul (p : Proc) (f : AluR)
  /-- Core writes high 32 bits of the signed product. (R75) -/
  | mulhs (p : Proc) (f : AluR)
  /-- Core writes high 32 bits of the unsigned product. (R75) -/
  | mulhu (p : Proc) (f : AluR)
  /-- Core signed division toward zero, never trapping. (R75) -/
  | divs (p : Proc) (f : AluR)
  /-- Core unsigned division, never trapping. (R75) -/
  | divu (p : Proc) (f : AluR)
  /-- Core signed remainder with the sign of ra. (R75) -/
  | rems (p : Proc) (f : AluR)
  /-- Core unsigned remainder. (R75) -/
  | remu (p : Proc) (f : AluR)
  /-- Core signed minimum. (R75) -/
  | min (p : Proc) (f : AluR)
  /-- Core signed maximum. (R75) -/
  | max (p : Proc) (f : AluR)
  /-- Core unsigned minimum. (R75) -/
  | minu (p : Proc) (f : AluR)
  /-- Core unsigned maximum. (R75) -/
  | maxu (p : Proc) (f : AluR)
  /-- Core counts leading zeros of ra. (R75) -/
  | clz (p : Proc) (f : AluR)
  /-- Core counts ones in ra. (R75) -/
  | popc (p : Proc) (f : AluR)
  /-- Core copies ra payload and tag to rd. (R75) -/
  | mov (p : Proc) (f : AluR)
  /-- Core adds with carry. (R75) -/
  | adc (p : Proc) (f : AluR)
  /-- Core subtracts with borrow. (R75) -/
  | sbc (p : Proc) (f : AluR)
  /-- Core adds a sign-extended immediate. (R76) -/
  | addi (p : Proc) (f : AluI)
  /-- Core ANDs a zero-extended immediate. (R76) -/
  | andi (p : Proc) (f : AluI)
  /-- Core ORs a zero-extended immediate. (R76) -/
  | ori (p : Proc) (f : AluI)
  /-- Core XORs a zero-extended immediate. (R76) -/
  | xori (p : Proc) (f : AluI)
  /-- Core shifts left by an immediate. (R76) -/
  | shli (p : Proc) (f : AluI)
  /-- Core logical right shift by an immediate. (R76) -/
  | shri (p : Proc) (f : AluI)
  /-- Core arithmetic right shift by an immediate. (R76) -/
  | sari (p : Proc) (f : AluI)
  /-- Core multiplies by a sign-extended immediate. (R76) -/
  | muli (p : Proc) (f : AluI)
  /-- Core loads a sign-extended imm16 tagged INT. (R77) -/
  | movi (p : Proc) (f : MovI)
  /-- Core loads a zero-extended imm16 tagged INT. (R77) -/
  | movui (p : Proc) (f : MovI)
  /-- Core replaces rd[31:16] with imm16, keeping the rest and the tag. (R77) -/
  | movhi (p : Proc) (f : MovI)
  /-- Core sets flags as sub of two registers. (R78) -/
  | cmp (p : Proc) (f : CmpF)
  /-- Core sets flags as sub with an immediate. (R78) -/
  | cmpi (p : Proc) (f : CmpF)
  /-- Core compares two binary32 values into flags. (R78) -/
  | fcmp (p : Proc) (f : CmpF)
  /-- Core sets T if two registers' tags match. (R78) -/
  | tcmp (p : Proc) (f : CmpF)
  /-- Core sets T if ra's tag equals an immediate tag. (R78) -/
  | tchk (p : Proc) (f : CmpF)
  /-- Core writes ra's tag into rd as INT. (R78) -/
  | tget (p : Proc) (f : CmpF)
  /-- Core retags ra's payload with an immediate tag. (R78) -/
  | tset (p : Proc) (f : CmpF)
  /-- Core retags ra's payload with rb[3:0]. (R78) -/
  | tsetr (p : Proc) (f : CmpF)
  /-- Core binary32 add per R80 rounding. (R79) -/
  | fadd (p : Proc) (f : FpF)
  /-- Core binary32 subtract. (R79) -/
  | fsub (p : Proc) (f : FpF)
  /-- Core binary32 multiply. (R79) -/
  | fmul (p : Proc) (f : FpF)
  /-- Core fused multiply-add rounded once. (R79) -/
  | fma (p : Proc) (f : FpF)
  /-- Core binary32 minimum. (R79) -/
  | fmin (p : Proc) (f : FpF)
  /-- Core binary32 maximum. (R79) -/
  | fmax (p : Proc) (f : FpF)
  /-- Core negates a binary32 value. (R79) -/
  | fneg (p : Proc) (f : FpF)
  /-- Core converts INT to binary32. (R79) -/
  | i2f (p : Proc) (f : FpF)
  /-- Core converts binary32 to INT, saturating. (R79) -/
  | f2i (p : Proc) (f : FpF)
  /-- Core Q16.16 saturating add. (R79) -/
  | fxadd (p : Proc) (f : FpF)
  /-- Core Q16.16 saturating subtract. (R79) -/
  | fxsub (p : Proc) (f : FpF)
  /-- Core Q16.16 saturating multiply. (R79) -/
  | fxmul (p : Proc) (f : FpF)
  /-- Core converts Q16.16 to binary32. (R79) -/
  | fx2f (p : Proc) (f : FpF)
  /-- Core converts binary32 to Q16.16, saturating. (R79) -/
  | f2fx (p : Proc) (f : FpF)
  /-- Core binary32 divide. (R79) -/
  | fdiv (p : Proc) (f : FpF)
  /-- Core binary32 square root. (R79) -/
  | fsqrt (p : Proc) (f : FpF)
  /-- Core loads a word through a checked segment. (R82) -/
  | ld (p : Proc) (f : MemF)
  /-- Core loads a word and checks its tag, trapping on mismatch. (R82) -/
  | ldc (p : Proc) (f : MemF)
  /-- Core forms a checked segment offset tagged PTR without access. (R82) -/
  | lea (p : Proc) (f : MemF)
  /-- Core loads a byte or halfword, sign- or zero-extended. (R82) -/
  | ldsub (p : Proc) (f : MemF)
  /-- Core stores a word, completing or posting it. (R83) -/
  | st (p : Proc) (f : MemF)
  /-- Core stores a byte. (R83) -/
  | stb (p : Proc) (f : MemF)
  /-- Core stores an aligned halfword. (R83) -/
  | sth (p : Proc) (f : MemF)
  /-- Core performs an indivisible test-and-set. (R107) -/
  | tas (p : Proc) (f : MemF)
  /-- Core loads a word and takes a reservation on its line. (R108) -/
  | lres (p : Proc) (f : MemF)
  /-- Core stores only if its reservation still holds, decided at the line's home. (R108) -/
  | scond (p : Proc) (f : MemF)
  /-- Core branches by a word displacement. (R87) -/
  | b (p : Proc) (f : BrF)
  /-- Core branches and writes the link register. (R87) -/
  | bl (p : Proc) (f : BrF)
  /-- Core saves masked registers and a frame header on sg7 and jumps. (R105) -/
  | call (p : Proc) (f : CallF)
  /-- Core checks the frame header, restores registers and returns to g15. (R105) -/
  | ret (p : Proc) (f : JmpF)
  /-- Core jumps to a CODE-tagged register. (R88) -/
  | jr (p : Proc) (f : JmpF)
  /-- Core takes a word from an input port, waiting if empty. (R89) -/
  | recv (p : Proc) (f : StrF)
  /-- Core takes a word from an input port if present. (R89) -/
  | rtry (p : Proc) (f : StrF)
  /-- Core reads a port word without taking it. (R89) -/
  | peek (p : Proc) (f : StrF)
  /-- Core sends a word on an output port, waiting for a credit. (R89) -/
  | send (p : Proc) (f : StrF)
  /-- Core sends a word only if a credit is available. (R89) -/
  | stry (p : Proc) (f : StrF)
  /-- Core waits until a masked input port holds a word. (R89) -/
  | waitany (p : Proc) (f : StrF)
  /-- Core reads which ports hold words or credits. (R89) -/
  | pstat (p : Proc) (f : StrF)
  /-- Core requests a tally decrement at its home. (R183) -/
  | tdec (p : Proc) (f : SyncF)
  /-- Core requests a tally increment at its home. (R183) -/
  | tinc (p : Proc) (f : SyncF)
  /-- Core waits until a tally reaches zero. (R184) -/
  | twait (p : Proc) (f : SyncF)
  /-- Core fences and arrives at a barrier without waiting. (R187) -/
  | barr (p : Proc) (f : SyncF)
  /-- Core fences, arrives at a barrier and waits for the round to close. (R188) -/
  | barw (p : Proc) (f : SyncF)
  /-- Core acquires a lock word, queuing if held. (R190) -/
  | lock (p : Proc) (f : SyncF)
  /-- Core acquires a lock word without waiting. (R190) -/
  | trylock (p : Proc) (f : SyncF)
  /-- Core fences and releases a held lock to the oldest waiter. (R190) -/
  | unlock (p : Proc) (f : SyncF)
  /-- Core stalls until all earlier writes and sends are performed. (R174) -/
  | fence (p : Proc) (f : SyncF)
  /-- Core queues a block-scaled dot product on an engine. (R135) -/
  | edot (p : Proc) (f : EdotF)
  /-- Core queues packing of 32n source words into a run. (R147) -/
  | epack (p : Proc) (f : PackF)
  /-- Core queues conversion between MX data and a native run. (R148) -/
  | emx (p : Proc) (f : PackF)
  /-- Core queues an accumulator clear and mode selection. (R143) -/
  | ezero (p : Proc) (f : EzeroF)
  /-- Core reads an engine accumulator once the engine is idle. (R144) -/
  | erd (p : Proc) (f : ErdF)
  /-- Core waits until one or all engines are idle. (R130) -/
  | ewait (p : Proc) (f : EwaitF)
  /-- Core reads and optionally clears a drift counter. (R152) -/
  | edrift (p : Proc) (f : EdriftF)
  /-- Core issues a block move of 1-64 lines. (R92) -/
  | bmv (p : Proc) (f : BmvF)
  /-- Core waits until all earlier block moves complete. (R92) -/
  | bwait (p : Proc) (f : BwaitF)
  /-- Core reads the die reference counter low bits and latches the high bits. (R94) -/
  | rdref (p : Proc) (f : SysF)
  /-- Core reads the latched reference counter high bits. (R94) -/
  | rdrefh (p : Proc) (f : SysF)
  /-- Core reads a performance counter if USER_COUNTERS permits. (R94) -/
  | rdctr (p : Proc) (f : SysF)
  /-- Core reads STAT or a trap record register. (R94) -/
  | rdsys (p : Proc) (f : SysF)
  /-- Core writes STAT RW fields or EPC. (R94) -/
  | wrsys (p : Proc) (f : SysF)
  /-- Core arms its timer for a tick count. (R116) -/
  | tmset (p : Proc) (f : SysF)
  /-- Core disarms its timer and clears a pending TIMER. (R94) -/
  | tmclr (p : Proc) (f : SysF)
  /-- Core restarts its watchdog. (R117) -/
  | wdkick (p : Proc) (f : SysF)
  /-- Core returns from a trap to EPC and sets TE. (R114) -/
  | trapret (p : Proc) (f : SysF)
  /-- Core makes earlier own-store writes visible to fetch. (R95) -/
  | ifence (p : Proc) (f : SysF)
  /-- Core waits until a port holds a word or TIMER is pending. (R94) -/
  | halt (p : Proc) (f : SysF)
  /-- Core reads part of a segment descriptor. (R94) -/
  | rdseg (p : Proc) (f : SysF)
  /-- Core raises a SOFT trap. (R94) -/
  | raise (p : Proc) (f : SysF)
  /-- Core reads its flask core index, cluster, size or flask ID. (R94) -/
  | rdid (p : Proc) (f : SysF)
  /-- Core executes a no-operation. (R94) -/
  | coreNop (p : Proc) (f : SysF)
  /-- Firmware processor posts an event entry. (R312) -/
  | sysPostEvent (p : Proc) (f : SysF)
  /-- Scheduler and security cores verify a mould and cast a flask, full or partial. (R57) -/
  | cast (h : CmdHdr) (flask : BitVec 16) (env : CastEnv)
  /-- Owner creates a flask with quotas, key and page. (R264) -/
  | create (h : CmdHdr) (p : CreateP)
  /-- Owner resets a flask by drain or squash and reload. (R275) -/
  | reset (h : CmdHdr) (flask : BitVec 16) (mode : Byte) (resv : Nat)
  /-- Owner destroys a flask and frees its resources. (R278) -/
  | destroy (h : CmdHdr) (flask : BitVec 16)
  /-- Owner configures or disables a flask ladle. (R319) -/
  | ladleConfig (h : CmdHdr) (p : LadleP)
  /-- Completion arbiter decides the outcome of an abort of a tagged command. (R328) -/
  | abort (h : CmdHdr) (tag : Word) (flask : BitVec 16) (ladle : Byte)
  /-- Ladle command completing with SUCCESS. (R327) -/
  | nop (h : CmdHdr)
  /-- Firmware sets the done tally, writes arguments and decrements the start tally. (R331) -/
  | dispatch (h : CmdHdr) (p : DispatchP)
  /-- Owner copies and checks an image into the inactive bank. (R336) -/
  | fwStage (h : CmdHdr) (offset : Word) (length : Word)
  /-- Owner activates the staged firmware with handover. (R337) -/
  | fwActivate (h : CmdHdr) (drainMs : Word) (flags : Word)
  /-- Flask claims a packet class. (R351) -/
  | netClassOpen (h : CmdHdr) (cls : BitVec 16) (slotLog2 : Byte)
  /-- Flask releases a class in two phases. (R354) -/
  | netClassClose (h : CmdHdr) (cls : BitVec 16)
  /-- Flask transmits one frame on a port. (R359) -/
  | netSend (h : CmdHdr) (p : NetSendP)
  /-- Flask stages new shaper values. (R361) -/
  | shaperSet (h : CmdHdr) (p : ShaperP)
  /-- Flask creates a queue pair. (R367) -/
  | qpCreate (h : CmdHdr) (qpn : Word)
  /-- Flask connects an IDLE queue pair to a peer. (R368) -/
  | qpConnect (h : CmdHdr) (p : ConnectP) (resv : Nat)
  /-- Flask stages congestion-control values. (R369) -/
  | qpCcSet (h : CmdHdr) (qpn : Word) (p : CcP)
  /-- Flask moves a queue pair to DRAINING. (R366) -/
  | qpClose (h : CmdHdr) (qpn : Word)
  /-- Flask returns an ERROR queue pair to IDLE. (R366) -/
  | qpReset (h : CmdHdr) (qpn : Word)
  /-- Flask frees a queue pair, squashing its messages. (R366) -/
  | qpDestroy (h : CmdHdr) (qpn : Word)
  /-- Flask registers a memory range for remote access. (R370) -/
  | mrRegister (h : CmdHdr) (p : MrP)
  /-- Flask sets or clears present bits of a paged registration. (R388) -/
  | mrPages (h : CmdHdr) (key : Word) (first : Word) (count : Word) (present : Byte)
  /-- Flask marks a key revoking and waits for placements to retire. (R387) -/
  | mrRevoke (h : CmdHdr) (key : Word)
  /-- Flask sends a SEND message on a queue pair. (R377) -/
  | xpSend (h : CmdHdr) (p : XpP)
  /-- Flask writes into a peer's registration. (R377) -/
  | xpWrite (h : CmdHdr) (p : XpP)
  /-- Flask reads from a peer's registration. (R377) -/
  | xpRead (h : CmdHdr) (p : XpP)
  /-- Owner creates a volume on a drive. (R395) -/
  | volCreate (h : CmdHdr) (flask : BitVec 16) (volume : Byte) (port : Byte) (start : BitVec 64) (blocks : BitVec 64)
  /-- Owner destroys a volume after draining. (R396) -/
  | volDestroy (h : CmdHdr) (flask : BitVec 16) (volume : Byte)
  /-- Owner sets a drive's NVMe power state. (R403) -/
  | drivePower (h : CmdHdr) (port : Byte) (ps : Byte)
  /-- Flask reads volume blocks into flask memory. (R398) -/
  | storRead (h : CmdHdr) (p : StorP)
  /-- Flask writes volume blocks, optionally FUA. (R402) -/
  | storWrite (h : CmdHdr) (p : StorP)
  /-- Flask makes earlier writes durable. (R402) -/
  | storFlush (h : CmdHdr) (volume : Byte)
  /-- Flask deallocates volume blocks. (R398) -/
  | storTrim (h : CmdHdr) (p : StorP)
  /-- Flask submits an ingest job from memory. (R409) -/
  | ingest (h : CmdHdr) (binding : BitVec 16) (src : BitVec 64) (length : Word)
  /-- A wrapped key is checked and loaded into a slot. (R427) -/
  | keyUnwrap (h : CmdHdr) (p : UnwrapP)
  /-- A slot assigned to the issuer is zeroised. (R428) -/
  | keyClear (h : CmdHdr) (slot : BitVec 16)
  /-- Owner assigns slots to a scope. (R425) -/
  | keyAssign (h : CmdHdr) (flask : BitVec 16) (first : BitVec 16) (count : BitVec 16)
  /-- A check-value request is queued. (R429) -/
  | cvCompute (h : CmdHdr) (p : CvP)
  /-- Security core writes a signed attestation report. (R422) -/
  | attest (h : CmdHdr) (nonce : BitVec 256) (dest : BitVec 64) (flask : BitVec 16)
  /-- Owner registers or clears a mould-verification key. (R431) -/
  | mouldKeySet (h : CmdHdr) (keyId : Byte) (clear : Byte) (pubkey : BitVec 256)
  /-- Owner registers or clears the owner debug key. (R432) -/
  | debugKeySet (h : CmdHdr) (clear : Byte) (pubkey : BitVec 256)
  /-- A provisioning record installs the DUK. (R419) -/
  | dukProvision (h : CmdHdr) (offset : Word)
  /-- A new DUK wrapped under the current one replaces it. (R420) -/
  | dukRotate (h : CmdHdr) (offset : Word)
  /-- Owner raises a breakout of a given level. (R442) -/
  | breakoutRaise (h : CmdHdr) (level : Byte)
  /-- Owner ends a level-1 or level-2 breakout. (R445) -/
  | breakoutClear (h : CmdHdr)
  /-- Owner pairs the module using a credential. (R459) -/
  | twinPair (h : CmdHdr) (offset : Word) (linkTrains : Bool)
  /-- Owner sets a flask's twin restart policy. (R476) -/
  | twinPolicy (h : CmdHdr) (p : TwinPolicyP)
  /-- Survivor readmits a fenced peer. (R474) -/
  | twinReadmit (h : CmdHdr)
  /-- Owner unpairs, zeroising K_P. (R461) -/
  | twinUnpair (h : CmdHdr)
  /-- Owner sets aside an ingot area. (R478) -/
  | ingotArea (h : CmdHdr) (p : AreaP)
  /-- Owner prepares a flask for ingots. (R480) -/
  | ingotSetup (h : CmdHdr) (p : IngotSetupP)
  /-- An ingot take reserves granules and waits for a step boundary. (R483) -/
  | ingotTake (h : CmdHdr) (flask : BitVec 16)
  /-- A complete ingot is restored into a matching flask. (R494) -/
  | ingotRestore (h : CmdHdr) (flask : BitVec 16) (fromPeer : Byte) (resv : Byte) (peerFlask : BitVec 16) (number : BitVec 64) (data : Option IngotData)
  /-- Owner sets a flask's island ceiling. (R524) -/
  | ceilingSet (h : CmdHdr) (flask : BitVec 16) (mhz : BitVec 16)
  /-- Counters are configured for cores or clusters. (R533) -/
  | pmonConfig (h : CmdHdr) (p : PmonP)
  /-- Counters of cores or clusters are written to memory. (R534) -/
  | pmonRead (h : CmdHdr) (kind : Byte) (first : Word) (last : Word) (dest : BitVec 64)
  /-- Firmware processor reads a space 0x3 register. (R312) -/
  | sysRegRead (p : Proc) (f : SysF)
  /-- Firmware processor writes a space 0x3 register. (R312) -/
  | sysRegWrite (p : Proc) (f : SysF)
  /-- Cluster control core writes a segment descriptor of a core. (R312) -/
  | sysWriteDescriptor (p : Proc) (f : SysF)
  /-- Firmware stops, releases or probes a core. (R312) -/
  | sysCoreControl (p : Proc) (f : SysF)
  /-- Firmware processor writes its heartbeat. (R312) -/
  | sysHeartbeat (p : Proc) (f : SysF)
  /-- Firmware processor writes a tap record. (R312) -/
  | sysTapRecord (p : Proc) (f : SysF)
  /-- Firmware processor waits for a doorbell, event or timer. (R312) -/
  | sysWait (p : Proc) (f : SysF)
  /-- A load's data or error response returns to the waiting core. (R85) -/
  | memoryResponse (p : Proc)
  /-- An error response to a posted store arrives and traps at the next boundary. (R86) -/
  | postedStoreError (p : Proc)
  /-- Acknowledgement of a performed write returns, possibly completing a fence. (R174) -/
  | writeAcknowledgement (p : Proc)
  /-- A home store, bank or channel performs an arriving access after its flask check. (R172) -/
  | memoryAccessAtHome (req : Nat) (ecc : EccReport)
  /-- Controller finishes copying a frozen granule to its shadow and releases waiting writes. (R22) -/
  | cowCopyComplete (granule : BitVec 32)
  /-- A stream word or hub token reaches an input port, waking waiters. (R162) -/
  | streamWordArrival (a : Arrival)
  /-- Returned credits reach the source output port. (R166) -/
  | creditReturn (src : CoreId) (port : Port) (n : BitVec 3)
  /-- Home sync unit performs a tally, barrier or lock operation and replies. (R178) -/
  | syncOpAtHome (req : Nat)
  /-- Home's reply reaches the issuing core and ends its instruction or wait. (R178) -/
  | syncReply (p : Proc)
  /-- Core retries a wait refused by a full waiter table after 1 µs. (R178) -/
  | syncWaitRetry (p : Proc)
  /-- Home abandons locks of a lost holder and wakes waiters. (R192) -/
  | lockAbandon (c : CoreId)
  /-- A block move finishes or stops on poison or a LOCK word. (R93) -/
  | blockMoveComplete (p : Proc) (slot : BitVec 2)
  /-- An engine finishes an operation and starts its queued one. (R130) -/
  | engineOpComplete (c : CoreId) (e : BitVec 2)
  /-- Engine operand-wait timeout expires and the operation fails. (R154) -/
  | operandTimeout (c : CoreId) (e : BitVec 2)
  /-- Core timer reaches zero and makes TIMER pending. (R116) -/
  | coreTimerExpiry (p : Proc)
  /-- Core watchdog expires and the core stops. (R117) -/
  | watchdogExpiry (p : Proc)
  /-- 4,096 island clocks after lres clear the reservation. (R109) -/
  | reservationTimeout (p : Proc)
  /-- Every 2 µs an island measures issue share and steps its clock. (R168) -/
  | islandClockAdjust (cl : ClusterId) (sharePct : BitVec 7)
  /-- Cluster control core declares a core failed after probe timeout, parity or hard fault. (R193) -/
  | coreFailureDeclare (c : CoreId) (cause : FailCause)
  /-- A waiting CAST or FW_STAGE starts when the previous one completes. (R27) -/
  | queuedCastStart
  /-- Tenant write to FP.CTL.RESET requests a drain-mode reset. (R274) -/
  | fpCtlReset (ep : Ep) (f : FlaskId)
  /-- All drained work of a reset or destruction retires and it proceeds. (R276) -/
  | flaskDrainComplete (f : FlaskId)
  /-- TIMEOUT_US expires and remaining work is squashed. (R275) -/
  | flaskDrainTimeout (f : FlaskId)
  /-- Host writes a flask command doorbell tail. (R323) -/
  | fpSqdb (ep : Ep) (f : FlaskId) (n : BitVec 4) (tail : BitVec 16)
  /-- Host writes a flask completion doorbell head, releasing held completions. (R329) -/
  | fpCqdb (ep : Ep) (f : FlaskId) (n : BitVec 4) (head : BitVec 16)
  /-- Owner writes the admin command doorbell. (R323) -/
  | admSqdb (m : Master) (tail : BitVec 10)
  /-- Owner writes the admin completion doorbell. (R323) -/
  | admCqdb (m : Master) (head : BitVec 10)
  /-- A ladle command's timeout expires and it is ended as by abort. (R326) -/
  | commandTimeout (l : LadleRef) (tag : Word)
  /-- The done tally reaches zero and the dispatch completes. (R331) -/
  | dispatchDone (f : FlaskId) (n : BitVec 4) (tag : Word)
  /-- Started commands finish draining or DRAIN_MS expires during activation. (R337) -/
  | activationDrainEnd (expired : Bool) (accepted : Bool)
  /-- A firmware processor's heartbeat lapses and it is reset and reloaded. (R339) -/
  | firmwareHeartbeatLapse (fp : FwProc)
  /-- A restarted firmware processor resumes and FIRMWARE_RESTARTED is posted. (R339) -/
  | firmwareProcessorRestarted (fp : FwProc)
  /-- Write to HOST.BEATn renews an endpoint's liveness. (R340) -/
  | hostBeat (m : Master) (n : Ep)
  /-- Host liveness timeout expires and bound flasks become HELD. (R340) -/
  | hostLivenessLapse (ep : Ep)
  /-- HOST.HOLD expires and held outbound writes are dropped. (R341) -/
  | hostHoldExpiry (ep : Ep)
  /-- Endpoint answers a configuration request. (R284) -/
  | configRequest (ep : Ep) (offset : BitVec 12) (write : Option Word)
  /-- Host initiates a Function Level Reset of an endpoint. (R304) -/
  | initiateFlr (ep : Ep)
  /-- FLR drain finishes and the function becomes ready. (R304) -/
  | flrReady (ep : Ep)
  /-- Bus Master Enable changes, holding or releasing outbound requests. (R303) -/
  | busMasterEnableChange (ep : Ep) (on : Bool)
  /-- Endpoint enters or leaves D3hot. (R285) -/
  | powerStateChange (ep : Ep) (d3 : Bool)
  /-- Endpoint link goes to DL_Down by surprise, Hot Reset or Link Disable. (R306) -/
  | linkDown (ep : Ep)
  /-- Endpoint translates and performs or discards an inbound write. (R289) -/
  | inboundWriteTlp (ep : Ep) (offset : BitVec 36) (bytes : List Byte) (ro : Bool)
  /-- Endpoint translates an inbound read and returns a completion or UR. (R289) -/
  | inboundReadTlp (ep : Ep) (offset : BitVec 36) (len : BitVec 13) (ro : Bool)
  /-- Endpoint answers an inbound AtomicOp with Unsupported Request. (R283) -/
  | inboundAtomicop (ep : Ep) (offset : BitVec 36) (ro : Bool)
  /-- Write of WIN.HEn_COMMIT.IN requests an inbound table commit. (R291) -/
  | winCommitIn (m : Master) (ep : Ep)
  /-- Write of WIN.HEn_COMMIT.OUT requests an outbound table commit. (R291) -/
  | winCommitOut (m : Master) (ep : Ep)
  /-- Shadow entries are copied to active at the commit point and DONE set. (R291) -/
  | commitPoint (ep : Ep)
  /-- Owner writes a shadow window entry, direct or frozen handling applied. (R292) -/
  | winShadowWrite (m : Master) (ep : Ep) (outbound : Bool) (entry : BitVec 11) (word : BitVec 3) (value : Word)
  /-- Hub checks a space 0x5 request against its outbound entry and sends it. (R296) -/
  | outboundRequest (req : Nat)
  /-- A host completion for an outbound read arrives. (R296) -/
  | outboundReadCompletion (ep : Ep) (req : Nat) (cpl : HostCpl)
  /-- An outbound read's completion timeout expires. (R296) -/
  | completionTimeout (ep : Ep) (req : Nat)
  /-- Write to an MSI-X entry or mask, sending a pending message on unmask. (R300) -/
  | msixVectorControlWrite (ep : Ep) (entry : BitVec 11) (word : BitVec 2) (value : Word)
  /-- Owner writes ACK to rearm the notification write. (R301) -/
  | onoteAck (m : Master) (ep : Ep)
  /-- Debounced module button press is counted and posted. (R308) -/
  | attentionButtonPress (sinceLastMs : Nat)
  /-- Port accepts, parses and classifies a received frame. (R347) -/
  | frameReceive (port : Port) (bytes : List Byte) (fcsOk : Bool)
  /-- Reorder buffer releases a frame to its transport or class slot. (R355) -/
  | frameRelease (port : Port)
  /-- A held later fragment's 100 µs expires. (R358) -/
  | fragmentHoldExpiry (i : Nat)
  /-- A fragment entry retires after 1 ms idle. (R358) -/
  | fragmentEntryExpiry (i : Nat)
  /-- Write of NET.RULE_WRITE installs the staged rule atomically. (R350) -/
  | netRuleWrite (m : Master) (index : BitVec 13)
  /-- Write of NET.RULE_READ copies a rule into the stage. (R364) -/
  | netRuleRead (m : Master) (index : BitVec 13)
  /-- A frame's last byte leaves the port. (R359) -/
  | frameTransmitComplete (port : Port)
  /-- Every 1 µs a shaper applies staged values and adds credit. (R361) -/
  | shaperRefill (index : BitVec 16)
  /-- An Ethernet port's link goes up or down. (R362) -/
  | portLinkChange (port : Port) (up : Bool) (lanes : Byte)
  /-- Received priority flow control pauses or resumes priorities. (R360) -/
  | pfcFrameReceive (port : Port) (paused : Byte)
  /-- Receiver checks and places a SEND, WRITE or READ_RESP packet. (R379) -/
  | xpRxDataPacket (port : Port) (hdr : XpHdr) (kind : XpDataKind) (payload : List Byte) (env : RxEnv)
  /-- Responder checks a READ_REQ and sends READ_RESP packets. (R379) -/
  | xpRxReadReq (port : Port) (hdr : XpHdr) (key : Word) (remote : BitVec 64) (length : Word) (env : RxEnv)
  /-- Sender processes an ACK, grant and window update. (R373) -/
  | xpRxAck (hdr : XpHdr) (ack : XpAck) (rttNs : Nat) (cutDue : Bool)
  /-- Sender reacts to a NAK code. (R380) -/
  | xpRxNak (hdr : XpHdr) (ack : XpAck) (code : NakCode)
  /-- Receiver answers a PROBE with an ACK. (R372) -/
  | xpRxProbe (port : Port) (hdr : XpHdr)
  /-- RTO_US expires and an unacknowledged packet is resent. (R382) -/
  | xpRetransmitTimeout (qpn : BitVec 18) (psn : BitVec 24)
  /-- 50 µs RNR delay expires and the packet is resent. (R380) -/
  | xpRnrResend (qpn : BitVec 18) (psn : BitVec 24)
  /-- 100 µs page-fault delay expires and the packet is resent. (R380) -/
  | xpFaultResend (qpn : BitVec 18) (psn : BitVec 24)
  /-- 10 ms after failure a path is probed for restoration. (R381) -/
  | xpPathProbe (qpn : BitVec 18) (path : BitVec 16)
  /-- A stalled packet's STALL_US expires and it is NAKed. (R386) -/
  | xpStallLimit (i : Nat)
  /-- A placement past check retires, possibly completing a revoke or page clear. (R387) -/
  | xpPlacementRetire (i : Nat)
  /-- A drive completes an NVMe command. (R400) -/
  | driveCompletion (port : Port) (id : Nat) (r : DriveResult)
  /-- A drive's memory request is checked against open windows. (R399) -/
  | driveMemoryRequest (port : Port) (f : FlaskId) (addr : BitVec 48) (len : BitVec 13) (write : Option (List Byte))
  /-- SMART warning or async event posts DRIVE_HEALTH. (R405) -/
  | driveAsyncEvent (port : Port) (logData : BitVec 128)
  /-- Slot presence detected and DRIVE_ADDED posted. (R406) -/
  | drivePresenceDetect (port : Port)
  /-- Owner sets or clears slot power, powering up or removing the drive. (R406) -/
  | storPowerEn (m : Master) (port : Port) (on : Bool)
  /-- Slot power good or fault arrives and bring-up continues. (R406) -/
  | slotPowerGood (port : Port) (good : Bool)
  /-- Hub identifies the drive, creates queues and sets READY. (R406) -/
  | driveReady (port : Port) (ident : DriveIdent)
  /-- Slot attention button press posts SLOT_ATTENTION. (R407) -/
  | slotAttentionPress (port : Port) (sinceLastMs : Nat)
  /-- Presence lost; windows close and commands end STOR_DRIVE_ABSENT. (R408) -/
  | driveSurpriseRemoval (port : Port)
  /-- An engine starts a binding's next job once prior tokens are taken. (R409) -/
  | ingestJobStart (f : FlaskId) (binding : BitVec 12)
  /-- An ingest job finishes or fails. (R413) -/
  | ingestJobEnd (f : FlaskId) (binding : BitVec 12)
  /-- Whole-line write submits a score request to the scorers. (R251) -/
  | scorerScore (f : FlaskId) (region : BitVec 16) (slot : BitVec 6)
  /-- Request clears summaries at or beyond BLOCKS. (R254) -/
  | scorerReset (f : FlaskId) (region : BitVec 16) (slot : BitVec 6)
  /-- Request refills summaries below BLOCKS. (R254) -/
  | scorerRebuild (f : FlaskId) (region : BitVec 16) (slot : BitVec 6)
  /-- A channel writes its result list and issues its token. (R253) -/
  | scorerScanComplete (f : FlaskId) (region : BitVec 16) (slot : BitVec 6) (channel : BitVec 4)
  /-- A write covering a block's fill byte triggers its summary. (R242) -/
  | summaryFill (f : FlaskId) (region : BitVec 16) (head : BitVec 6) (block : BitVec 16)
  /-- An engine takes a queued check-value request round robin. (R430) -/
  | cvRequestStart (engine : BitVec 4)
  /-- Engine writes or verifies the check value. (R429) -/
  | cvRequestComplete (engine : BitVec 4)
  /-- Hardware trigger asserts and the breakout level acts. (R444) -/
  | breakoutTrigger (trigger : BitVec 3) (asserts : Bool)
  /-- A master records or withdraws an ownership claim. (R436) -/
  | ownClaim (m : Master) (priority : Byte) (nonce : BitVec 16) (epoch : Word)
  /-- The 10 ms election window closes and the winner is chosen. (R437) -/
  | electionWindowClose
  /-- Owner offers ownership to a target master. (R438) -/
  | ownHandover (m : Master) (target : BitVec 2) (nonce : BitVec 16)
  /-- Target accepts a handover with the matching nonce. (R438) -/
  | ownAccept (m : Master) (nonce : BitVec 16)
  /-- The 1 s accept window expires and HANDOVER_FAILED is set. (R438) -/
  | handoverExpiry
  /-- The owner stops being live and the owner hold begins. (R439) -/
  | ownerLost
  /-- The 2 s owner hold ends and ownership becomes vacant. (R439) -/
  | ownerHoldExpiry
  /-- MGMT master reads a BAR0 register over MCTP. (R434) -/
  | mctpRead (offset : BitVec 26)
  /-- MGMT master writes a BAR0 register over MCTP. (R434) -/
  | mctpWrite (offset : BitVec 26) (value : Word)
  /-- MGMT heartbeat renews MGMT liveness. (R434) -/
  | mctpHeartbeat
  /-- MGMT heartbeats stop for OWN.MGMT_TIMEOUT. (R433) -/
  | mgmtLivenessLapse
  /-- Debugger obtains an unlock challenge over JTAG. (R448) -/
  | olChal (scope : Byte)
  /-- Debugger submits a signed response and unlock is granted or refused. (R448) -/
  | olResp (keyIndex : Byte) (scope : Byte) (sig : BitVec 512) (ageMs : Nat)
  /-- The 60 s OL_CHAL lockout ends. (R448) -/
  | debugLockoutExpiry
  /-- A twin-link message is authenticated and acted on by type. (R455) -/
  | twinMessageReceive (msg : TwinMsg)
  /-- Every 1 ms a paired module sends a heartbeat. (R464) -/
  | twinHeartbeatSend
  /-- Module sends coalesced or periodic mirror updates to the peer. (R462) -/
  | mirrorSend (item : MirrorSel)
  /-- No valid message for 50 ms; SUSPECT and management query. (R464) -/
  | twinPulseLapse
  /-- Every 100 ms the management core queries the peer. (R465) -/
  | twinMgmtQuery
  /-- Peer's answer confirms death or moves the module to SPLIT. (R465) -/
  | twinMgmtAnswer (a : MgmtAnswer)
  /-- MGMT writes the peer identity confirming its death. (R465) -/
  | twinConfirm (m : Master) (id : Word)
  /-- Survivor restarts a peer flask by priority. (R470) -/
  | twinFlaskRestart (data : Option IngotData)
  /-- Once a second in SUSPECT, TWIN_UNCONFIRMED is posted. (R465) -/
  | twinUnconfirmedTick
  /-- Twin link trains or is lost. (R467) -/
  | twinLinkChange (up : Bool)
  /-- Step boundary reached; cores stop, granules freeze, records written. (R483) -/
  | ingotStepBoundary (f : FlaskId)
  /-- QUIET_MS expires before a step boundary. (R483) -/
  | ingotQuietTimeout (f : FlaskId)
  /-- Stream ends and headers written; take completes. (R489) -/
  | ingotStreamComplete (f : FlaskId) (ownCopy : CopyEnd) (peerCopy : CopyEnd)
  /-- Input power good starts module start-up. (R502) -/
  | powerOnReset (env : StartupEnv)
  /-- Input below threshold resets the module and lowers rails. (R543) -/
  | brownOut
  /-- Electronic input fuse opens and the module powers down. (R543) -/
  | inputFuseOpen
  /-- MOD_RST_L low resets the module. (R503) -/
  | resetPin (lowNs : Nat) (taken : Bool)
  /-- Module watchdog unfed for RST.WDOG.MS resets the module. (R498) -/
  | moduleWatchdogExpiry (env : StartupEnv)
  /-- Keyed write requests a software module reset. (R497) -/
  | rstSwreset (m : Master) (value : Word) (env : StartupEnv)
  /-- OL_DBG request resets the module or one domain. (R497) -/
  | debugReset (domain : Option ClockDomain) (env : StartupEnv)
  /-- Clock monitor declares a domain clock failed. (R501) -/
  | clockFailure (domain : ClockDomain) (env : StartupEnv)
  /-- A hub processor fails two restarts and the module resets. (R497) -/
  | lockUpReset (env : StartupEnv)
  /-- A domain's clock-stable indicator sets and it is released. (R499) -/
  | domainClockStable (domain : ClockDomain)
  /-- A reset die or cluster is not stable in time and reset widens. (R501) -/
  | domainStableTimeout (domain : ClockDomain) (env : StartupEnv)
  /-- Every 100 ms BIST remeasures rails and oscillators while refused. (R508) -/
  | bistPreconditionCheck (env : StartupEnv)
  /-- Management core writes the older option-word copy. (R506) -/
  | optionWordsWrite
  /-- Owner requests test mode. (R511) -/
  | rstModeReqTest (m : Master)
  /-- Owner leaves test mode. (R511) -/
  | rstModeReqService (m : Master)
  /-- Owner starts a run-time BIST of a free region. (R510) -/
  | bistCtlStart (m : Master)
  /-- Owner burns soft repairs into fuses in test mode. (R509) -/
  | bistCtlFuse (m : Master)
  /-- Run-time BIST ends and BIST_DONE is posted. (R510) -/
  | runTimeBistDone (pass : Bool) (repairs : List Repair)
  /-- Owner arms a one-shot stored-bit flip, refused in service mode. (R235) -/
  | memFlipArm (m : Master)
  /-- Every 200 µs a cluster fettles one SRAM line. (R517) -/
  | fettleSramLine (cl : ClusterId) (ecc : EccReport) (word : BitVec 4)
  /-- Every 10 ms a channel fettles one valid unit. (R518) -/
  | fettleLpddrUnit (channel : BitVec 7) (ecc : EccReport) (codeword : BitVec 7)
  /-- Every 100 ms a channel calibrates and may retrain. (R520) -/
  | lpddrCalibration (channel : BitVec 7) (driftPct : BitVec 7) (stepOk : Bool)
  /-- 1 ms after a failed retraining step it is retried. (R520) -/
  | calibrationRetry (channel : BitVec 7) (stepOk : Bool)
  /-- Hourly copy of calibration results to flash. (R521) -/
  | calibrationSave
  /-- Hourly SMART read and deferred deallocation of freed ingot blocks. (R523) -/
  | driveWearCheck (port : Port) (percentUsed : Byte)
  /-- Every 10 ms the power core samples sensors. (R525) -/
  | telemetrySample (id : Byte) (value : BitVec 16) (ceilings : List (ClusterId × Byte))
  /-- Die at 110 °C is clamped to 0.40 GHz by hardware. (R526) -/
  | thermalTrip (die : Die)
  /-- A sampling counter reaches PERIOD and a record is written. (R533) -/
  | pmonSample (c : CoreId) (counter : BitVec 2) (pc : BitVec 11)
  /-- Read of a hub counter LO latches HI and LAST_REF. (R534) -/
  | pmonHubLoRead (i : BitVec 6)
  /-- J2 mating pin changes, gating input power good. (R545) -/
  | mateLChange (mated : Bool)
  /-- Twin cable presence changes. (R548) -/
  | twinCablePresence (present : Bool)
  /-- Read of an RC register returns and clears it. (R9) An offset below 2^26 is one of BAR0; above, one of the flask pages of
  BAR4 (R267, R286). -/
  | registerReadClear (m : Master) (offset : BitVec 27)
  /-- Write to a register without its own row, taking effect only from the owner or as listed. (R435) -/
  | registerWrite (m : Master) (offset : BitVec 27) (value : Word)
  /-- A host endpoint's link finishes training and comes up again. (R306) -/
  | endpointLinkUp (ep : Ep) (speed : BitVec 3) (width : BitVec 5) (flit : Bool)
  /-- A host asserts PERST# on an endpoint, which resets only that endpoint as link loss does. (R497) -/
  | hostPerst (ep : Ep)
  /-- MOD_RST_L is released and start-up begins at step 1. (R503) -/
  | modRstLRelease (env : StartupEnv)
  /-- The management core answers the twin peer's status query (type 0x7E, byte 0x10) with its module's state. (R465) -/
  | peerManagementQuery
  /-- The management core handles an MCTP control or PLDM request such as SetEventReceiver or GetSensorReading. (R527) -/
  | pldmCommand (req : PldmReq)
  /-- The hardware clamp of a tripped die is released once its junction falls below 100 °C. (R526) -/
  | thermalTripRelease (die : Die)
  /-- In credit mode a sender that has waited RTO_US for a grant sends a PROBE. (R383) -/
  | xpGrantProbe (qpn : BitVec 18)
  /-- A received RoCE CNP is counted as an rtt above target in the delay-mode window update. (R393) -/
  | xpRxCnp (qpn : BitVec 18) (rttNs : Nat)
  /-- Under a scope-2 unlock, OL_DBG forces the release of a domain whose clock-stable indicator is not set. (R500) -/
  | olDbgRelease (domain : ClockDomain)
  deriving DecidableEq, Repr

end Sys2Proof
end

