-- ==== Sys2Proof/Machine/State.lean ====
section
/-!
DEFINITION. The state of the module: plain data, holding what the spec gives the machine. The names of the fields are
the spec's; each structure's docstring cites the rules that name its contents.
-/

namespace Sys2Proof.Machine

/-- Why the machine stops. -/
inductive Fault where
  /-- Raised by an inbound TLP that meets two enabled window entries: unpredictable, and by R5 with an effect that may reach
any flask (R289). Safe: the model stops where the hardware may do anything to anyone. -/
  | windowOverlap
  deriving DecidableEq, Repr

/-- Why the model gives a command no meaning. -/
inductive Refusal where
  /-- A command that has no meaning in the model yet; raised by no meaning. Safe. -/
  | notModelled (mnemonic : String)
  deriving DecidableEq, Repr

/-! ### The core -/

/-- `STAT` without its reserved bits, which read as zero (R68). -/
structure Stat where
  z : Bool
  n : Bool
  c : Bool
  v : Bool
  t : Bool
  te : Bool
  wdm : Bool
  finv : Bool
  fdz : Bool
  fov : Bool
  fuf : Bool
  xsat : Bool
  deriving DecidableEq, Repr

def Stat.reset : Stat := ⟨false, false, false, false, false, true, false, false, false, false, false, false⟩

/-- A segment descriptor (R100). -/
structure Desc where
  base : BitVec 48
  lines : Word
  pr : Bool
  pw : Bool
  px : Bool
  pa : Bool
  deftag : Tag
  flask : Domain
  deriving DecidableEq, Repr

def Desc.absent : Desc := ⟨0, 0, false, false, false, false, 0, 0⟩

/-- A word in an input port, with its flask; `hub` marks a token that the hub issued (R161, R162). -/
structure PortWord where
  w : TWord
  flask : Domain
  hub : Bool
  deriving DecidableEq, Repr

/-- An output port: its credits (R161), its stream's `CREDITS`, the stream's other end, and the words forwarded and not
yet credited back (R167). -/
structure OutPort where
  credits : Nat
  max : Nat
  dst : Option (CoreId × Port)
  sent : Nat
  deriving DecidableEq, Repr

def OutPort.unused : OutPort := ⟨0, 0, none, 0⟩

/-- An operation queued in an engine (R129): its instruction and the word index it was issued at. -/
structure EngOp where
  instr : Instr
  pc : Nat
  param : Word          -- the parameter register as read at issue
  wbase : Nat           -- fabric address of the weight run or the source
  wlen : Nat            -- its checked words
  woff : Nat            -- its segment offset
  xbase : Nat           -- fabric address of the activation run or the destination
  xlen : Nat
  xoff : Nat
  seq : Nat             -- its place in the core's issue order
  got : List TWord      -- the words that it has taken from its port (R132)
  dirty : List Nat      -- word indices that the core has stored to since (R133)
  deriving DecidableEq, Repr

/-- An engine (R127). -/
structure Engine where
  acc : Word
  aexp : BitVec 10
  pinned : Bool
  sat : Bool
  nan : Bool
  lfsr : BitVec 16
  satc : Word
  outc : Word
  clipc : Word
  queue : List EngOp
  err : Option EngErr
  unseen : List (Nat × Nat)    -- ranges of word indices written and not yet visible to the core (R133)
  deriving DecidableEq, Repr

def Engine.reset : Engine := ⟨0, 0, false, false, false, 0xACE1, 0, 0, 0, [], none, []⟩

/-- A core's formats and limits, which a cast sets (R33, R41, R48, R127). -/
structure CoreFmt where
  wfmt : BitVec 4
  afmt : BitVec 4
  stochastic : Bool
  seed : BitVec 16
  satLimit : Word
  outLimit : Word
  clipLimit : Word
  operandNs : Word
  watchdogUs : Word
  deriving DecidableEq, Repr

/-- The values of a core that no record names: R33 gives its formats and thresholds and no seed, and SEED is taken as 0 (DESIGN
CHOICE, log entry 118). -/
def CoreFmt.default : CoreFmt := ⟨0, 0, false, 0, 0, 0, 0, 4000, 100000⟩

/-- A block move under way (R92, R93): the checked addresses of its two ends, and the descriptors' domains and tag. -/
structure Move where
  seq : Nat
  src : BitVec 48
  sdom : Domain
  deftag : Tag
  dst : BitVec 48
  ddom : Domain
  lines : Nat
  data : Option (List Byte)    -- what a host has returned, for a source in space 0x5
  next : Nat                   -- the first line not yet moved (R176)
  deriving DecidableEq, Repr

/-- What the home answers a core (R85, R86, R178). -/
inductive Reply where
  | data (w : TWord)
  | done
  | flags (z : Bool) (rd : Option TWord)
  | accessFault
  | bus
  | tagFault (found : Tag)
  | sync (detail : Word)
  | retry                      -- the waiter table was full (R178)
  deriving DecidableEq, Repr

/-- A waiting instruction: what of it has been done already. -/
structure Wait where
  instr : Instr
  issued : Bool                -- its request has left the core; a fence before it is over
  fa : Nat                     -- the fabric address that it accesses
  got : List TWord             -- the words that `ret` has loaded so far
  deriving DecidableEq, Repr

/-- Whether a processor issues instructions. -/
inductive RunState where
  | held                       -- never released, or held by a cast, a reset or a spare that is missing
  | running
  | stopped (vector : Byte) (status : BitVec 16)
  deriving DecidableEq, Repr

/-- The trap record (R67). -/
structure TrapRec where
  epc : Word
  ecause : Word
  eaddr : Word
  edetail : Word
  deriving DecidableEq, Repr

/-- The reservation (R108): the line is a fabric address divided by 64. -/
structure Resv where
  valid : Bool
  line : Nat
  deriving DecidableEq, Repr

/-- The core timer and the watchdog (R116, R117), in ticks. -/
structure Timers where
  armed : Bool
  count : Word
  pending : Bool
  wdPeriod : Word
  wdCount : Word
  deriving DecidableEq, Repr

/-- A lock on a core's held-lock list (R191): the fabric address of its word. -/
structure HeldLock where
  addr : BitVec 48
  crossed : Bool
  deriving DecidableEq, Repr

/-- A posted store's error response that has arrived (R86). -/
structure PostedErr where
  access : Bool
  seg : BitVec 3
  off : Word
  deriving DecidableEq, Repr

/-- One core performance counter (R528–R533): its event, whether it samples, its value, period and sample buffer. -/
structure PmCounter where
  event : Byte
  count : Word
  flags : Byte
  period : Word
  buffer : BitVec 64
  bytes : Word
  next : Word
  lost : Word                  -- samples dropped since the last `SAMPLES_LOST`
  deriving DecidableEq, Repr

def PmCounter.off : PmCounter := ⟨0, 0, 0, 0, 0, 0, 0, 0⟩

/-- The parts of a core that its program reaches (R67). -/
structure Arch where
  g : Vector TWord 16
  pc : Nat
  stat : Stat
  trap : TrapRec
  sg : Vector Desc 8
  tvec : Nat
  resv : Resv
  timers : Timers
  refHi : Word                 -- latched by rdref (R94)
  deriving DecidableEq, Repr

/-- A processor that executes Pothes: a core, a cluster control core or a hub processor (R67, R120). -/
structure Core where
  a : Arch
  run : RunState
  wait : Option Wait
  moves : Vector (Option Move) 4
  moveErr : List (BitVec 2 × Nat)     -- failed moves: issue number and line (R93)
  postErr : List PostedErr
  ahead : List (Nat × TWord)          -- the words fetched ahead, by word index (R95)
  inp : Vector (List PortWord) 8
  outp : Vector OutPort 8
  locks : List HeldLock
  gen : Byte                          -- the port's generation (R195)
  unacked : Nat                       -- posted stores whose acknowledgement has not returned (R174)
  eng : Vector Engine 4
  fmt : CoreFmt
  idx : Nat                           -- flask core index (R94)
  failed : Bool                       -- declared failed with no spare left: it stays fenced (R196)
  flask : Domain                      -- the flask that the core belongs to
  hasImage : Bool
  pm : Vector PmCounter 4
  deriving DecidableEq, Repr

def Arch.reset : Arch :=
  ⟨Vector.replicate 16 TWord.zero, 0, Stat.reset, ⟨0, 0, 0, 0⟩, Vector.replicate 8 Desc.absent, 0, ⟨false, 0⟩,
    ⟨false, 0, false, 10_000_000, 10_000_000⟩, 0⟩

/-- A core that no cast has loaded. -/
def Core.reset : Core :=
  { a := Arch.reset, run := .held, wait := none, moves := Vector.replicate 4 none, moveErr := [],
    postErr := [], ahead := [], inp := Vector.replicate 8 [], outp := Vector.replicate 8 OutPort.unused, locks := [],
    gen := 0, unacked := 0, eng := Vector.replicate 4 Engine.reset, fmt := CoreFmt.default, idx := 0, failed := false, flask := 0x1FF,
    hasImage := false, pm := Vector.replicate 4 PmCounter.off }

/-- A descriptor of a firmware processor: every one carries the domain 0x100 (R120). The rest comes with the firmware's
image, which the manual does not give: descriptor i covers the first 256 GiB of space i, and descriptor 7, through which
`call` and `ret` go, 64 MiB of the firmware region (DESIGN CHOICE, log entry 122). -/
def Desc.firmware (i : Nat) : Desc :=
  { base := BitVec.ofNat 48 (if i = 7 then 2 * 2 ^ 44 + 1189 * 2 ^ 28 else i * 2 ^ 44), lines := if i = 7 then 0x10_0000 else 0xFFFF_FFFF
    pr := true, pw := true, px := true, pa := true, deftag := Tag.raw, flask := 0x100 }

/-- A firmware processor as a start-up releases it, in the firmware domain (R120, R205, R310). -/
def Core.firmware : Core :=
  { Core.reset with
    a := { Arch.reset with sg := (Vector.range 8).map Desc.firmware }, run := .running, flask := 0x100, hasImage := true }

/-! ### What is on its way in the fabric -/

/-- What a request asks of the home of its address (R171, R172). -/
inductive MemOp where
  | load (bytes : Nat)
  | store (bytes : Nat) (v : TWord)
  | tas
  | lres
  | scond (v : TWord)
  deriving DecidableEq, Repr

/-- A core's request on its way to a home, or to the host endpoints (space 0x5). -/
structure MemReq where
  id : Nat
  issuer : Proc
  gen : Byte
  addr : BitVec 48
  dom : Domain
  seg : BitVec 3
  off : Word
  posted : Bool
  op : MemOp
  deriving DecidableEq, Repr

/-- A reply on its way to a core. -/
structure MemRep where
  issuer : Proc
  gen : Byte
  fa : BitVec 48
  seg : BitVec 3
  off : Word
  posted : Bool
  reply : Reply
  deriving DecidableEq, Repr

/-- The operations of a sync unit (R90). -/
inductive SyncKind where
  | tdec | tinc | twait | barr | barw | lock | trylock | unlock
  deriving DecidableEq, Repr

structure SyncReq where
  id : Nat
  issuer : Proc
  gen : Byte
  addr : BitVec 48
  dom : Domain
  seg : BitVec 3
  off : Word
  kind : SyncKind
  reg : Word
  holder : Nat                 -- the caller's flask core index
  deriving DecidableEq, Repr

/-- A stream word between its ports. -/
structure Transit where
  src : CoreId
  port : Port
  gen : Byte
  dst : CoreId
  dport : Port
  w : PortWord
  deriving DecidableEq, Repr

/-- Hub tokens that wait for a full port (R164). -/
structure HeldToken where
  flask : FlaskId
  binding : BitVec 12
  core : CoreId
  port : Port
  w : Word
  deriving DecidableEq, Repr

/-- What a placement under way belongs to (R18): a transport message, the frame at the head of a port, an ingest job, a drive
command. -/
inductive LandKey where
  | msg (qpn : Nat) (msn : Word)
  | frame (port : Port)
  | job (flask : BitVec 8) (binding : BitVec 12)
  | drive (id : Nat)
  deriving DecidableEq, Repr

structure Fabric where
  nextId : Nat
  reqs : List MemReq
  reps : List MemRep
  syncs : List SyncReq
  syncReps : List MemRep
  transit : List Transit
  credits : List (CoreId × Port × Byte × Nat)   -- credits on their way back (R166)
  tokens : List HeldToken
  lost : List (CoreId × Nat × BitVec 48)        -- locks of lost holders not yet abandoned: core, flask core index, word (R192)
  landing : List (LandKey × Nat × TWord)        -- words placed before their message's token, as they were (R18)
  deriving DecidableEq, Repr

def Fabric.reset : Fabric := ⟨0, [], [], [], [], [], [], [], [], []⟩

/-- What a waiter waits for (R178). -/
inductive WaitKind where
  | tally
  | barrier (round : BitVec 2) (detached : Bool) (closed : Bool)
  | lock
  deriving DecidableEq, Repr

structure Waiter where
  issuer : Proc
  gen : Byte
  addr : BitVec 48
  seg : BitVec 3
  off : Word
  holder : Nat
  kind : WaitKind
  deriving DecidableEq, Repr

/-- A completion or event entry (R322), without `PHASE` and `SQ_HEAD`, which are added when it is written. -/
structure Entry where
  tag : Word
  status : BitVec 16
  event : Bool
  quiet : Bool
  detail : Word
  code : BitVec 16
  result : List Byte
  deriving DecidableEq, Repr

/-- A cluster's switch, sync unit, registers and clock (R45, R168, R178, R197). -/
structure Cluster where
  waiters : List Waiter
  gen : Byte
  spares : Nat
  last : Byte
  streamDrops : Word
  fenceDrops : Word
  clock : Nat                  -- in units of 10 MHz
  ceilOwner : Nat
  ceilPower : Nat
  evq : List (FlaskId × Entry) -- events buffered while the cluster control core is away (R339)
  deriving DecidableEq, Repr

def Cluster.reset : Cluster := ⟨[], 0, 4, 0, 0, 0, 40, 160, 160, []⟩

/-! ### Memory -/

/-- The state of a stored word of SRAM (R219). -/
inductive WordMark where
  | good | correctable | uncorrectable
  deriving DecidableEq, Repr

/-- The state of an LPDDR codeword (R221). -/
inductive CwMark where
  | good | correctable | uncorrectable | poisoned
  deriving DecidableEq, Repr

/-- LPDDR, and every byte that a copy of it holds. -/
abbrev Memory := List Host.Cell

/-- A 64 KiB granule frozen for an ingot (R22): whether its copy to its shadow has been made, and the shadow. -/
structure Frozen where
  flask : FlaskId
  copied : Bool
  shadow : Memory              -- the bytes as they stood at the freeze, when copied
  valid : BitVec 16            -- its units' valid bits at the freeze
  deriving DecidableEq, Repr

/-- A flip that waits for its write (R235): the target, the copy of a triplicated word, the address of the word or codeword
or the index of the triplicated word, the masked bits or symbols, the pattern, and a free value for what the code does not
decide. -/
structure Flip where
  target : BitVec 3
  copy : BitVec 2
  addr : Nat
  mask : Nat
  pat : Byte
  wild : BitVec 64
  deriving DecidableEq, Repr

/-- The stores (R207, R208, R213, R204): SRAM words by fabric address ÷ 4, SRAM valid bits by line, LPDDR bytes by
fabric address, LPDDR valid bits by 4 KiB unit, codeword marks by 32 bytes, owners by physical granule. -/
structure Mem where
  sram : Tab TWord
  sramValid : Tab Bool
  sramMark : Tab WordMark
  lp : Memory
  lpValid : Tab Bool
  lpMark : Tab CwMark
  owner : Tab Domain
  clusterOwner : Tab Domain
  frozen : Tab (Option Frozen)
  copying : List Nat           -- frozen granules whose copy is under way
  faulty : List Nat            -- physical granules marked faulty (R229)
  repairs : List Repair        -- the repair log: soft repairs in force (R226, R227)
  fused : List Repair          -- repairs burned into fuses (R509)
  hardFaults : List Nat        -- stores with a faulty line and no spare left, as `storeOf` numbers them (R229)
  fettled : List Nat           -- lines that the previous fettle pass corrected (R227)
  columns : List (Nat × Nat × Nat)   -- bit-columns corrected: store, column, pass (R227)
  marked : List Nat            -- words and codewords that have been marked, by address (R227)
  trip : List (Nat × BitVec 2) -- copies of triplicated words that hold an error: word, copy (R225)
  flip : Option Flip
  flipDone : Bool
  deriving DecidableEq, Repr

/-- A fresh Mem: nothing valid, every granule free. -/
def Mem.reset : Mem := ⟨[], [], [], [], [], [], [], [], [], [], [], [], [], [], [], [], [], [], none, false⟩

/-! ### Moulds (spec/02_mould.md) -/

structure SegSpec where
  base : BitVec 64
  lines : Word
  perm : Byte
  deftag : Byte
  deriving DecidableEq, Repr

structure SegtRec where
  first : Word
  last : Word
  image : Option (List TWord)
  loadAt : BitVec 16
  entry : BitVec 16
  segs : List SegSpec
  deriving DecidableEq, Repr

structure FmtRec where
  first : Word
  last : Word
  wfmt : Byte
  afmt : Byte
  round : Byte
  seed : BitVec 16
  satLimit : Word
  outLimit : Word
  clipLimit : Word
  deriving DecidableEq, Repr

structure TimeRec where
  first : Word
  last : Word
  operandNs : Word
  watchdogUs : Word
  deriving DecidableEq, Repr

structure RouteRec where
  stream : Word
  src : Word
  dst : Word
  outPort : Byte
  inPort : Byte
  order : Byte
  credits : BitVec 16
  deriving DecidableEq, Repr

structure SyncRec where
  kind : Byte
  cluster : BitVec 16
  offset : Word
  value : Word
  expect : Word
  deriving DecidableEq, Repr

structure FeedRec where
  binding : BitVec 16
  source : Byte
  mode : Byte
  selector : Word
  target : BitVec 64
  targetBytes : Word
  tokenCore : Word
  tokenPort : Byte
  tileEdge : Byte
  tileFmt : Byte
  flags : Byte
  nextBinding : Word
  deriving DecidableEq, Repr

structure ScorRec where
  region : BitVec 16
  layer : Byte
  heads : Byte
  headDim : BitVec 16
  topK : BitVec 16
  kvBase : BitVec 64
  sumBase : BitVec 64
  mode : Byte
  maxBlocks : Word
  deriving DecidableEq, Repr

/-- A flask's current mould (R54): the full mould with every later partial mould applied; newer records first. -/
structure Mould where
  id : BitVec 128
  sequence : Word
  userCounters : Bool
  dedup : Bool
  rotatable : Bool
  jobGroup : BitVec 128
  measure : BitVec 512
  segts : List SegtRec
  fmts : List FmtRec
  times : List TimeRec
  routes : List RouteRec
  syncs : List SyncRec
  feeds : List FeedRec
  scors : List ScorRec
  deriving DecidableEq, Repr

/-! ### Flasks and ladles -/

/-- R261. -/
inductive FState where
  | free | empty | running | held | resetting | destroying | failed
  deriving DecidableEq, Repr

/-- A command that the scheduler core has read and whose completion is not yet written (R325, R328). -/
structure Cmd where
  tag : Word
  instr : Instr
  started : Bool
  quiet : Bool
  deriving DecidableEq, Repr

/-- A ladle (R318–R330). -/
structure Ladle where
  enabled : Bool
  vector : Byte
  sqLog2 : Nat
  cqLog2 : Nat
  sqBase : BitVec 48
  cqBase : BitVec 48
  timeoutMs : Word
  sqHead : Nat
  sqTail : Nat
  cqHead : Nat
  cqTail : Nat
  phase : Bool
  gen : Word
  raised : Bool
  cmds : List Cmd
  held : List Entry
  deriving DecidableEq, Repr

/-- A ladle that is not configured. -/
def Ladle.off (gen : Word) : Ladle :=
  ⟨false, 0xFF, 0, 0, 0, 0, 10000, 0, 0, 0, 0, true, gen, false, [], []⟩

/-- The admin ladle: 1,024 entries, enabled, in its own rings (R318). -/
def Ladle.admin (gen : Word) : Ladle :=
  ⟨true, 0xFF, 10, 10, 0, 0, 10000, 0, 0, 0, 0, true, gen, false, [], []⟩

/-- A reset or destruction in progress (R275, R278): who asked for it, and who joined it. -/
structure FlaskJob where
  destroy : Bool
  mode : Byte
  byTenant : Bool
  asked : List Word            -- tags of the admin commands that complete with it
  destroyNext : List Word      -- tags of the DESTROY commands that wait for the reset
  squashed : Bool
  deriving DecidableEq, Repr

/-- The events held for a flask or the owner (R329). -/
structure EventBox where
  held : List Entry
  lost : Word
  deriving DecidableEq, Repr

/-- A dispatch that waits for its done tally (R331): the fabric word of the tally and the address of `ARGS`. -/
structure Disp where
  n : BitVec 4
  tag : Word
  done : BitVec 48
  args : BitVec 48
  deriving DecidableEq, Repr

/-- The flask's entry of the flask table (R261–R270) and its parts. -/
structure Flask where
  st : FState
  host : BitVec 2
  vectors : Nat
  nladles : Nat
  qpQuota : Nat
  mrQuota : Nat
  shQuota : Nat
  drainUs : BitVec 16
  ingot : Bool
  paused : Bool
  ctlReset : Bool
  resetStatus : BitVec 16
  resetSquashed : Bool
  lastStatus : BitVec 16
  lastSquashed : Bool
  lastByTenant : Bool
  vecFirst : Nat
  events : Word
  stray : Word
  clusters : List ClusterId
  granules : List Nat          -- physical granules, die × 1,192 + number
  rot : BitVec 3
  key : Option (BitVec 512)    -- the XTS key pair (R266); none where it is zeroised or the flask is FREE
  keyLoaded : Bool
  mould : Option Mould
  ladles : Tab Ladle
  box : EventBox
  disps : List Disp
  job : Option FlaskJob
  shapers : List Nat           -- the module shapers that are its own (R361)
  mouldBytes : List (List Byte)       -- the moulds cast, oldest first, as the firmware keeps them (R54, R462)
  setup : Option IngotSetupP   -- R480
  ceil : Nat                   -- the owner's ceiling for its clusters (R524)
  policy : Option TwinPolicyP  -- R470
  deriving DecidableEq, Repr

/-- A flask that is FREE. -/
def Flask.reset : Flask :=
  { st := .free, host := 0, vectors := 0, nladles := 0, qpQuota := 0, mrQuota := 0, shQuota := 0, drainUs := 10000,
    ingot := false, paused := false, ctlReset := false, resetStatus := 0, resetSquashed := false,
    lastStatus := 0, lastSquashed := false, lastByTenant := false, vecFirst := 0, events := 0, stray := 0,
    clusters := [], granules := [], rot := 0, key := none, keyLoaded := false, mould := none, ladles := [],
    box := ⟨[], 0⟩, disps := [], job := none, shapers := [], mouldBytes := [], setup := none, policy := none, ceil := 160 }

/-! ### Firmware (spec/10_firmware_and_ladles.md) -/

/-- The header fields of a firmware image that the module uses (R315). -/
structure ImageHdr where
  version : Word
  secver : BitVec 16
  handMin : BitVec 16
  handMax : BitVec 16
  digest : BitVec 512          -- what the image's signature signs (R315, R422)
  raw : List Byte              -- the image as the bank holds it; none of the factory's
  deriving DecidableEq, Repr

/-- An activation in progress (R337): the command's tag, `DRAIN_MS` and `FLAGS`. -/
structure Activation where
  tag : Word
  drainMs : Word
  flags : Word
  deriving DecidableEq, Repr

/-- Firmware, its flash banks, the admin ladle and the log ring (R310–R344). -/
structure Firmware where
  admin : Ladle
  admSq : Tab Word             -- the admin command ring, by word
  admCq : Tab Word             -- the admin completion ring, by word
  box : EventBox               -- events held for the owner
  log : Tab Word               -- the log ring, by word
  logNext : Nat
  logWraps : Nat
  running : ImageHdr
  bankB : Bool                 -- running from bank B
  other : Option ImageHdr      -- the image in the inactive bank
  staged : Bool                -- that image has been staged (R336)
  fallback : Bool
  secver : Nat                 -- the fused counter
  start : BitVec 16            -- start-up number S (R497)
  down : List FwProc           -- processors under restart
  late : Bool                  -- the power core has been away for 20 ms (R339)
  restarts : List Nat          -- security, power, scheduler, management
  lockups : Nat                -- lock-ups of the security core within 60 s (R339)
  act : Option Activation
  waiting : List Word          -- tags of CAST and FW_STAGE commands that wait their turn (R27)
  castCopy : Option (Word × List Byte)   -- the mould that a cast under way works from, with its tag (R28)
  copies : Tab (List Byte)     -- the components in the firmware region of LPDDR, by processor number (R316, R317)
  deriving DecidableEq, Repr

/-- Host liveness (R340–R345). -/
structure Live where
  lapsed : Bool
  holdOver : Bool              -- `HOST.HOLD` has passed since the lapse
  lapses : Byte
  deriving DecidableEq, Repr

/-! ### Host endpoints (spec/09_host_endpoint.md) -/

/-- An entry of the MSI-X table (R300). -/
structure MsixEntry where
  addr : BitVec 64
  data : Word
  masked : Bool
  pending : Bool
  deriving DecidableEq, Repr

def MsixEntry.reset : MsixEntry := ⟨0, 0, true, false⟩

/-- Who asked for an outbound access (R296). -/
inductive OutWho where
  | proc (p : Proc) (gen : Byte) (seg : BitVec 3) (off : Word)
  | move (p : Proc) (gen : Byte) (slot : BitVec 2) (line : Nat)   -- a move's source, or one of its lines
  | drive (id : Nat)           -- the data of a drive command
  | place (qpn psn : Nat)      -- a placement or a read of the transport
  | frame (port : Port)        -- the frame at the head of a port's reorder buffer (R19)
  | job (flask : FlaskId) (binding : BitVec 12)   -- the input or the output of an ingest job (R19)
  deriving DecidableEq, Repr

/-- An outbound request (R294–R303): a write carries its bytes. -/
structure OutReq where
  id : Nat
  who : OutWho
  dom : Domain
  addr : BitVec 48
  len : Nat
  data : Option (List Byte)
  deriving DecidableEq, Repr

/-- How far an access of a hub engine to a host has come, where it waits for the answer (R19, R296). -/
inductive HostLeg where
  | idle
  | reading
  | got (bytes : Option (List Byte))   -- none where the read failed
  | writing
  | done (ok : Bool)
  deriving DecidableEq, Repr

/-- A request of a host through BAR2 that waits, with those behind it (R22, R232, R297): the domain and address that its window
gave, and whether it may be overtaken. -/
structure InHeld where
  dom : Domain
  addr : BitVec 48
  data : Option (List Byte)            -- none for a read
  len : Nat
  ro : Bool
  deriving DecidableEq, Repr

/-- An endpoint (R283–R309). The window tables are held by word, eight words to an entry (R288, R295). -/
structure Endpoint where
  speed : BitVec 3
  width : BitVec 5
  flit : Bool
  downs : BitVec 16
  bme : Bool
  memSpace : Bool
  devRo : Bool
  devNs : Bool
  cfg : Tab Word
  d3 : Bool
  flr : Bool
  inShadow : Tab Word
  inActive : Tab Word
  outShadow : Tab Word
  outActive : Tab Word
  commitIn : Bool
  commitOut : Bool
  late : Bool
  collide : Bool
  winGen : BitVec 16
  msix : Tab MsixEntry
  fnMask : Bool
  msixEn : Bool
  noteEn : Bool
  noteArmed : Bool
  noteHeld : Bool              -- a notification held while Bus Master Enable is 0 (R302)
  missed : Bool
  queue : List OutReq          -- outbound requests of hub engines, not yet sent
  reads : List OutReq          -- outbound reads outstanding
  heldTo : Nat                 -- requests numbered below it were held together, and leave in their order (R303, R342)
  inq : List InHeld            -- inbound requests that wait, in order of arrival (R297)
  deriving DecidableEq, Repr

def Endpoint.reset : Endpoint :=
  { speed := 0, width := 0, flit := false, downs := 0, bme := false, memSpace := false, devRo := true, devNs := true,
    cfg := [], d3 := false, flr := false, inShadow := [], inActive := [], outShadow := [], outActive := [],
    commitIn := false, commitOut := false, late := false, collide := false, winGen := 0, msix := [], fnMask := false,
    msixEn := false, noteEn := false, noteArmed := true, noteHeld := false, missed := false, queue := [], reads := [], heldTo := 0, inq := [] }

/-! ### Ownership (spec/14_security_and_ownership.md) -/

/-- What a master asks of the security core (R437, R438). -/
inductive OwnAsk where
  | claim (m : Master) (priority : Byte) (nonce : BitVec 16)
  | handover (m : Master) (target : BitVec 2) (nonce : BitVec 16)
  | accept (m : Master) (nonce : BitVec 16)
  deriving DecidableEq, Repr

/-- The owner record, the election and the handover (R433–R441, R452). -/
structure Own where
  valid : Bool
  master : Master
  nonce : BitVec 16
  changes : Byte
  holding : Bool
  electing : Bool
  hand : Option (Master × BitVec 16)
  handFailed : Bool
  claims : List (Master × Byte × BitVec 16)   -- recorded claims: capped priority and nonce
  next : Option (Master × BitVec 16)          -- a transition that waits for started admin commands (R440)
  mgmtLive : Bool                             -- R433
  queued : List OwnAsk                        -- what waits for the security core's restart (R441)
  deriving DecidableEq, Repr

def Own.reset : Own := ⟨false, .he0, 0, 0, false, false, none, false, [], none, true, []⟩

/-- What the module as a whole is doing (R502, R511, R513). -/
inductive Phase where
  | off | startUp | service | test | recovery | coldShut
  deriving DecidableEq, Repr

/-! ### The packet path (spec/11_packet_path.md) -/

/-- A frame that has been classified and waits in its port's reorder buffer, with the binding that its class had then
(R355, R362). -/
structure Frame where
  bytes : List Byte
  action : BitVec 2
  cls : BitVec 12
  rule : BitVec 13
  frag : Bool
  feed : Option (FlaskId × FeedRec)
  leg : HostLeg                -- for a slot in a host's memory
  landed : Option Nat          -- its number, where it stands in its slot and its token is still to come (R18)
  deriving DecidableEq, Repr

/-- An Ethernet port's link, its partner's pauses, its reorder buffer, and the transmit queue last served (R355, R360). -/
structure NetPort where
  up : Bool
  lanes : Byte
  paused : Byte
  buf : List Frame
  turn : Nat
  xoff : Bool                  -- priority flow control is being sent (R356)
  deriving DecidableEq, Repr

def NetPort.reset : NetPort := ⟨false, 0, 0, [], 0, false⟩

/-- R357. -/
structure FragKey where
  v6 : Bool
  src : BitVec 128
  dst : BitVec 128
  proto : Byte
  id : Word
  deriving DecidableEq, Repr

/-- An entry of the fragment table: the rule matched, the bytes seen, and the datagram's length once its last fragment has
been seen (R357, R358). -/
structure FragEntry where
  key : FragKey
  rule : BitVec 13
  action : BitVec 2
  cls : BitVec 12
  seen : Nat
  total : Option Nat
  deriving DecidableEq, Repr

/-- A later fragment held for its first (R358). -/
structure HeldFrag where
  key : FragKey
  port : Port
  bytes : List Byte
  len : Nat
  total : Option Nat
  deriving DecidableEq, Repr

/-- A frame of `NET_SEND` that waits for its port (R359). -/
structure TxFrame where
  ladle : LadleRef
  tag : Word
  port : Port
  pcp : BitVec 3
  shaper : Option Nat          -- the module shaper
  bytes : List Byte
  deriving DecidableEq, Repr

/-- A transport packet on its way out: its sender, its port and priority, its addresses, its header, and what follows the header:
the extension, then the payload (R368, R371–R373, R381). `EPOCH`, `TS` of data and `ACK_REQ` are those of its leaving. -/
structure XpOut where
  qpn : Nat
  port : Port
  pcp : BitVec 3
  dmac : BitVec 48
  vlan : BitVec 16
  srcIp : BitVec 128
  dstIp : BitVec 128
  srcPort : BitVec 16
  dstPort : BitVec 16
  type : BitVec 4
  hdr : XpHdr
  body : List Byte
  deriving DecidableEq, Repr

/-- A shaper (R361). Its credit is held in eighths of a byte, so that every rate adds an exact amount. -/
structure Shaper where
  flask : Domain
  rate : Nat
  burst : Nat
  ovh : Nat
  credit : Int
  used : Bool                  -- it has had a `SHAPER_SET` applied
  staged : Option (Nat × Nat × Nat)
  deriving DecidableEq, Repr

def Shaper.free : Shaper := ⟨0x1FF, 0, 0, 0, 0, false, none⟩

/-- A class that a flask holds (R351–R354). -/
structure NetClass where
  flask : FlaskId
  slotLog2 : Nat
  n : Nat
  closing : Option (LadleRef × Word)
  drops : Nat
  deriving DecidableEq, Repr

structure Net where
  rules : Tab Word             -- sixteen words to a rule (R349)
  ports : Tab NetPort
  frags : List FragEntry
  held : List HeldFrag
  tx : List TxFrame
  xq : List XpOut              -- the queue pairs' transmit queues, oldest first (R360)
  shapers : Tab Shaper
  classes : Tab (Option NetClass)
  deriving DecidableEq, Repr

def Net.reset : Net := ⟨[], [], [], [], [], [], [], []⟩

/-! ### Remote memory (spec/12_remote_memory.md) -/

/-- R366. -/
inductive QpSt where
  | free | idle | active | draining | error
  deriving DecidableEq, Repr

/-- What a sender's message does (R377). -/
inductive XpKind where
  | send
  | write (key : Word) (remote : BitVec 64)
  | read (key : Word) (remote : BitVec 64)
  deriving DecidableEq, Repr

/-- A message at its sender (R374, R377, R378); `done` is the status it completes with once every earlier one has. -/
structure XpMsg where
  msn : Word
  kind : XpKind
  local' : BitVec 48
  len : Nat
  psn : Nat
  pkts : Nat
  sent : Nat                   -- packets sent for the first time
  fence : Bool
  notify : Bool
  ladle : LadleRef
  tag : Word
  got : List (Nat × Nat)       -- the ranges of a read that have been placed
  done : Option (BitVec 16)
  deriving DecidableEq, Repr

/-- A packet sent and not acknowledged (R381, R382). -/
structure XpPkt where
  psn : Nat
  msn : Word
  offset : Nat
  len : Nat
  path : Nat
  resends : Nat
  rnr : Nat
  fault : Nat
  fast : Bool                  -- resent on a SACK since its last timeout (R382)
  deriving DecidableEq, Repr

/-- A message at its receiver (R375, R376): the bytes placed, its slot, the binding it lands by, and whether it has ended
without a token. -/
structure RxMsg where
  msn : Word
  len : Nat
  placed : Nat
  send : Bool
  notify : Bool
  slot : Option Nat
  feed : Option FeedRec
  next : Option FeedRec        -- for a chained binding, the ingest binding that takes the message
  ended : Bool
  faults : List (Nat × Nat)    -- PSNs answered with NAK PAGE_FAULT, and how often (R380)
  deriving DecidableEq, Repr

/-- A queue pair (R365–R384). -/
structure Qp where
  st : QpSt
  flask : Domain
  conn : Option ConnectP
  cc : Option CcP              -- in force; none for the defaults of R369
  ccNext : Option CcP
  nextPsn : Nat
  nextMsn : Word
  sentBytes : Nat
  grant : Nat
  msgs : List XpMsg
  unacked : List XpPkt
  wnd : Rat
  srtt : Rat                   -- ns
  failed : List Nat            -- failed paths
  lost : List (Nat × Nat)      -- paths and their consecutive timeouts
  path : Nat                   -- the next path of the round robin
  cum : Nat                    -- every PSN before it has been received
  seen : List Nat              -- PSNs received beyond it
  rxBytes : Nat
  granted : Nat                -- the largest grant given
  rx : List RxMsg
  msnDone : Word               -- every message before it has been released
  released : List Word
  slots : List (Nat × Word)    -- busy slots and their messages
  probed : List Nat            -- failed paths probed (R381)
  closing : Option (LadleRef × Word)
  cnp : Bool                   -- a congestion notification has been sent (R393)
  deriving DecidableEq, Repr

def Qp.reset : Qp :=
  { st := .free, flask := 0x1FF, conn := none, cc := none, ccNext := none, nextPsn := 0, nextMsn := 0, sentBytes := 0
    grant := 0, msgs := [], unacked := [], wnd := 0, srtt := 0, failed := [], lost := [], path := 0, cum := 0, seen := []
    rxBytes := 0, granted := 0, rx := [], msnDone := 0, released := [], slots := [], probed := []
    closing := none, cnp := false }

/-- A registration (R370, R385–R388): the commands that wait for its revocation, and the `MR_PAGES` that wait for a range
of pages to fall out of use. -/
structure Mr where
  flask : FlaskId
  base : BitVec 48
  len : Nat
  qpn : Option Nat
  write : Bool
  read : Bool
  paged : Bool
  resend : Bool
  stallUs : Nat
  present : List Nat
  faulted : List Nat           -- pages whose fault has been reported (R386)
  revoking : Bool
  asked : List (LadleRef × Word)
  clearing : List (LadleRef × Word × Nat × Nat)
  deriving DecidableEq, Repr

/-- A packet past the checks of R379 whose placement, or whose reading, has not retired. -/
structure Placement where
  port : Port
  qpn : Nat
  hdr : XpHdr
  kind : XpDataKind
  payload : List Byte
  addr : Option (BitVec 48)    -- where its bytes go, a flask address
  dom : Domain
  key : Option Nat             -- the index of the registration used
  pages : List Nat
  readLen : Option Nat         -- for a READ_REQ: the bytes to read
  waits : Nat                  -- outbound requests of it still outstanding (space 0x5)
  bad : Bool                   -- one of them has failed
  live : Bool                  -- its queue pair is still connected as it was
  deriving DecidableEq, Repr

/-- A packet that waits in the fault buffer (R386). -/
structure Stalled where
  p : Placement
  deriving DecidableEq, Repr

structure Xport where
  qps : Tab Qp
  mrs : Tab (Option Mr)
  mrUsed : Tab Nat             -- how often each index has been registered
  places : List Placement
  stalled : List Stalled
  deriving DecidableEq, Repr

def Xport.reset : Xport := ⟨[], [], [], [], []⟩

/-! ### Storage and ingest (spec/13_storage_and_ingest.md) -/

/-- A volume (R395, R396, R408): volume `num` of a flask; a destruction in progress names its command. -/
structure Volume where
  flask : FlaskId
  num : Nat
  port : Port
  start : Nat
  blocks : Nat
  serial : BitVec 160
  offline : Bool
  destroying : Option Word
  deriving DecidableEq, Repr

inductive DrvOp where
  | read | write | trim | flush | power
  deriving DecidableEq, Repr

/-- A command issued to a drive (R399, R400): its number, what it does, its window, and the ladle command it belongs to. -/
structure DrvCmd where
  id : Nat
  port : Port
  op : DrvOp
  ladle : LadleRef
  tag : Word
  vol : Nat
  lba : Nat                    -- on the drive
  blocks : Nat
  addr : BitVec 48             -- the `LOCAL` flask address; its domain is the ladle's
  fua : Bool
  token : Option (BitVec 4)    -- the storage read class, with `TOKEN`
  feed : Option (FeedRec × Option FeedRec)   -- its binding when its first byte came, with the ingest binding that follows (R62)
  issued : Bool                -- the drive has it; a write from space 0x5 is issued once its data have come
  out : Nat                    -- outbound requests of its data still outstanding (space 0x5)
  ended : Bool                 -- the drive has completed it
  failed : Option (BitVec 16)  -- a status already decided
  group : Nat                  -- the number of the first of the drive commands that a command is split into (R400)
  res : Option (BitVec 16 × Word) -- how it ended, while other parts of the command have not
  deriving DecidableEq, Repr

/-- A `STOR_FLUSH` under way (R402): the writes it waits for, then the drive flushes that it waits for. -/
structure Flush where
  ladle : LadleRef
  tag : Word
  vols : List Nat
  waits : List Nat
  parts : List Nat
  issued : Bool
  status : BitVec 16
  detail : Word
  deriving DecidableEq, Repr

/-- A slot and its drive (R397, R403–R408, R415). -/
structure Drive where
  present : Bool
  powerGood : Bool
  powerFault : Bool
  link : Bool
  ready : Bool
  unsupported : Bool
  pressed : Bool
  vwc : Bool
  ps : BitVec 5
  speed : BitVec 3
  presses : BitVec 16
  blocks : Nat
  maxBlocks : Nat              -- the maximum transfer, 0 for none (R400)
  serial : BitVec 160
  power : Option (Word × BitVec 5 × Bool)   -- a `DRIVE_POWER`: its tag, `PS`, and whether Set Features is issued
  deriving DecidableEq, Repr

def Drive.reset : Drive := ⟨false, false, false, false, false, false, false, false, 0, 0, 0, 0, 0, 0, none⟩

/-- Where an ingest job's input comes from (R409). -/
inductive JobFrom where
  | ingest (ladle : LadleRef) (tag : Word) (fmt : BitVec 2)
  | message (qpn : Nat) (msn : Word)
  | storage (ladle : LadleRef) (tag : Word)
  deriving DecidableEq, Repr

/-- The output of a job that is being placed: the parts still to be written, each with the tile whose token follows it; how
decoding ended, and how placing has gone so far (R22, R164, R410–R413). -/
structure JobOut where
  parts : List (Nat × List Byte × Option Nat)
  tile : Option Nat            -- a tile that stands, and whose token is still to come
  code : BitVec 16
  deriving DecidableEq, Repr

/-- An ingest job; `feed` is the binding that it arrived under (R62). -/
structure Job where
  flask : FlaskId
  binding : BitVec 12
  src : BitVec 48
  len : Nat
  origin : JobFrom
  running : Bool
  num : Nat
  feed : Option FeedRec
  leg : HostLeg
  out : Option JobOut
  deriving DecidableEq, Repr

structure Stor where
  vols : Tab (Option Volume)   -- by flask × 64 + number
  drives : Tab Drive
  cmds : List DrvCmd
  flushes : List Flush
  nextId : Nat
  jobs : List Job
  jobNo : Tab Nat              -- jobs started, by flask × 4,096 + binding
  deriving DecidableEq, Repr

def Stor.reset : Stor := ⟨[], [], [], [], 0, [], []⟩

/-! ### The block scorers (spec/07_long_sequences.md) -/

/-- A request under way (R246–R253): its record as submitted, the region it was submitted to, the outcome of the control
channel's check, and the channels whose list and token are still to come. -/
structure ScoreReq where
  flask : FlaskId
  region : BitVec 16
  slot : BitVec 6
  scor : ScorRec
  line : List Byte
  query : List Byte            -- the query group, as read at the start
  lists : Bool                 -- its lists have a place (R249)
  status : BitVec 16
  left : List Nat
  seq : Nat                    -- its place among what has reached the channels (R255)
  deriving DecidableEq, Repr

/-- A write that covered the fill byte of a block has been performed, and the fill is to come (R242). -/
structure Fill where
  flask : FlaskId
  scor : ScorRec
  head : Nat
  block : Nat
  seq : Nat
  deriving DecidableEq, Repr

/-- A whole-line write to a request slot has been performed, and the control channel's check is to come (R246). -/
structure ScoreAsk where
  flask : FlaskId
  scor : ScorRec
  slot : BitVec 6
  line : List Byte
  seq : Nat
  deriving DecidableEq, Repr

/-! ### Security (spec/14_security_and_ownership.md) -/

/-- A key slot (R424). -/
structure KeySlot where
  type : BitVec 2
  usage : BitVec 4
  assigned : Domain
  label : BitVec 96
  key : List Byte
  deriving DecidableEq, Repr

def KeySlot.empty (a : Domain) : KeySlot := ⟨0, 0, a, 0, []⟩

/-- A check-value request (R429, R430). -/
structure CvReq where
  ladle : LadleRef
  tag : Word
  p : CvP
  verify : Bool
  deriving DecidableEq, Repr

/-- A request that an engine runs, with the key as it was read. -/
structure CvRun where
  engine : BitVec 4
  req : CvReq
  key : List Byte
  deriving DecidableEq, Repr

/-- A debug unlock's challenge (R448). -/
structure Chal where
  scope : Byte
  nonce : BitVec 256
  used : Bool
  deriving DecidableEq, Repr

structure Sec where
  seed : BitVec 256            -- the identity seed S in the fuses (R416)
  slots : Tab KeySlot
  cvq : List CvReq             -- in arrival order
  cvTurn : Nat                 -- the scope served last
  cvRuns : List CvRun
  duk : Option (BitVec 256)
  records : List (BitVec 8 × BitVec 3 × BitVec 64)   -- breakout records: level, trigger, time (R446)
  chal : Option Chal
  fails : Nat                  -- failed responses since the last lockout
  locked : Bool
  unlocks : Nat                -- the unlock count of a challenge
  unlocked : BitVec 2          -- the scope unlocked
  debugEver : Bool             -- an unlock has been in force since the last start-up (R422)
  winDirect : Bool             -- `WIN.HEn_CTL.DIRECT` has been 1 since the last start-up (R422)
  erasing : Bool               -- a level-3 breakout awaits its software reset (R444)
  lostSlots : List Nat         -- slots whose header has no majority, until it is written (R225)
  deriving DecidableEq, Repr

def Sec.reset : Sec :=
  { seed := 0, slots := [], cvq := [], cvTurn := 0, cvRuns := [], duk := some 0, records := [], chal := none, fails := 0, locked := false
    unlocks := 0, unlocked := 0, debugEver := false, winDirect := false, erasing := false
    lostSlots := [] }

/-! ### Twins and ingots (spec/15_twins.md, spec/16_ingots.md) -/

/-- R477. -/
inductive TwinSt where
  | unpaired | pairing | joining | paired | suspect | split | survivor | fenced
  deriving DecidableEq, Repr

structure Twin where
  st : TwinSt
  roleB : Bool
  link : Bool
  lanes : BitVec 16
  cable : Bool
  kp : Option (BitVec 256)     -- the pair key K_P (R459)
  epoch : Word
  peerEpoch : Word
  seqOut : Nat
  seqIn : Option Nat           -- the last sequence number accepted of `peerEpoch`
  peer : Option PeerSt         -- what the peer's last hello told
  mirror : List MirrorItem     -- what the peer has sent of its state
  reads : List MemReq          -- twin-window reads that await their data
  pairTag : Option Word        -- a `TWIN_PAIR` under way
  readmitTag : Option Word
  restarts : List FlaskId      -- peer flasks still to be restarted, in order
  deriving DecidableEq, Repr

def Twin.reset : Twin :=
  { st := .unpaired, roleB := false, link := false, lanes := 0, cable := false, kp := none, epoch := 0, peerEpoch := 0
    seqOut := 0, seqIn := none, peer := none, mirror := [], reads := [], pairTag := none, readmitTag := none, restarts := [] }

/-- A unit of an area's store (R487). -/
structure StoreUnit where
  no : Nat
  hash : BitVec 256
  group : BitVec 128
  refs : Nat
  deriving DecidableEq, Repr

/-- An ingot area (R478, R479); `device` is the identity that created it, and units are allocated after `lastUnit` (R523). -/
structure Area where
  port : Port
  peer : Bool
  storeUnits : Nat
  start : Nat
  blocks : Nat
  device : BitVec 128
  store : List StoreUnit
  lastUnit : Nat
  deriving DecidableEq, Repr

/-- A slot of a series in an area: complete, or incomplete with the number that it held before (R481, R491); `refs` are the
store units that its ingot refers to. -/
structure IngotSlot where
  area : Nat
  device : Word
  flask : FlaskId
  slot : Nat
  start : Nat
  blocks : Nat
  before : Nat
  ingot : Option IngotHdr
  refs : List Nat
  deriving DecidableEq, Repr

/-- A take under way (R483): at the step boundary its image is built, and its granules are frozen; `bad` are the codewords
that the stream finds uncorrectable. -/
structure Take where
  flask : FlaskId
  ladle : LadleRef
  tag : Word
  image : List Nat             -- reserved image granules
  shadow : List Nat            -- reserved shadow granules
  key : List Byte              -- the key as read at step 1
  ingot : Option IngotHdr
  data : IngotData
  bad : List Nat
  slot : Nat
  deriving DecidableEq, Repr

structure Ingots where
  areas : Tab (Option Area)
  slots : List IngotSlot
  takes : List Take
  waiting : List (FlaskId × LadleRef × Word)   -- takes that wait for an earlier one or for a cast (R482)
  last : Tab Nat               -- the last number of each flask's series
  deriving DecidableEq, Repr

def Ingots.reset : Ingots := ⟨[], [], [], [], []⟩

/-! ### Reset, self-test, background (spec/17_reset_and_selftest.md, spec/18_background_and_counters.md) -/

/-- A run-time BIST (R510). -/
structure BistRun where
  granule : Bool
  index : Nat
  retain : Bool
  deriving DecidableEq, Repr

/-- A copy of the option words in flash (R505): `SEQ`, `PREFERRED_BANK`, `ONCE`, `START`, and the registers that it loads,
by offset. -/
structure OptCopy where
  seq : Word
  bankB : Bool
  once : BitVec 8
  start : BitVec 16
  regs : Tab Word
  deriving DecidableEq, Repr

/-- The two copies and the copy loaded last; `dirty` where a register that they load has been written since (R506). -/
structure Options where
  c0 : OptCopy
  c1 : OptCopy
  which : Bool
  defaulted : Bool
  dirty : Bool
  deriving DecidableEq, Repr

/-- The copies as the factory leaves them: `BO_POLICY` and `OWN_CAP`. The start-up that State.reset stands after has
recorded its number in copy 1. -/
def Options.reset : Options :=
  { c0 := ⟨0, false, 0, 0, [(0x2014, 0x7FFFFFFF), (0x600004, 0xADA)]⟩
    c1 := ⟨1, false, 0, 1, [(0x2014, 0x7FFFFFFF), (0x600004, 0xADA)]⟩, which := false, defaulted := false, dirty := false }

structure Rst where
  pinLow : Bool
  powered : Bool
  fuseOpen : Bool
  mated : Bool
  resets : BitVec 16           -- `RST.COUNT`
  loop : BitVec 3
  cause : Byte
  refused : Bool               -- `RST.MODE.REFUSED`
  cold : Nat
  coldDetail : BitVec 16
  straps : Byte                -- as `RST.OPT.STRAPS`
  refusals : Nat               -- BIST refusals of this start-up
  env : Option StartupEnv      -- the start-up that BIST holds up
  resetDomains : List ClockDomain   -- domains held in reset
  forced : List ClockDomain    -- domains released by `OL_DBG` (R500)
  bist : Option BistRun
  outOfPool : List (Bool × Nat)     -- regions that failed at run time (R510)
  opt : Options
  deriving DecidableEq, Repr

def Rst.reset : Rst :=
  { pinLow := false, powered := true, fuseOpen := false, mated := true, resets := 0, loop := 0, cause := 1, refused := false
    cold := 0, coldDetail := 0, straps := 0, refusals := 0, env := none, resetDomains := [], forced := [], bist := none
    outOfPool := [], opt := Options.reset }

/-- A counter of 48 bits and its event (R528, R531). -/
structure Counter48 where
  event : Byte
  count : BitVec 48
  deriving DecidableEq, Repr

/-- Background work, telemetry and the counters of clusters and hub. -/
structure Bg where
  sramPos : Tab Nat            -- lines fettled in the pass, by cluster
  sramPasses : Tab Nat
  lpPos : Tab Nat              -- units fettled in the pass, by channel
  lpPasses : Tab Nat
  calFails : Tab Nat           -- consecutive failed retraining steps, by channel
  sensors : Tab (Option (BitVec 16))
  warn : Byte
  trip : Byte
  flashErases : Nat
  flashRetired : Nat
  clCtr : Tab Counter48        -- by cluster × 16 + counter
  hubCtr : Tab Counter48
  hubHi : Tab (BitVec 16)      -- the latched `PMON.HUB_HI` words
  lastRef : BitVec 64
  wearSeen : Tab Nat           -- the last SMART Percentage Used, by root port
  trims : List (Port × Nat × Nat)   -- freed ingot blocks not yet deallocated (R523)
  trimBusy : List (Port × Nat) -- the deallocation outstanding at a drive (R523)
  eid : Byte                   -- the PLDM event receiver (R527)
  deriving DecidableEq, Repr

def Bg.reset : Bg :=
  { sramPos := [], sramPasses := [], lpPos := [], lpPasses := [], calFails := [], sensors := [], warn := 0, trip := 0
    flashErases := 0, flashRetired := 0, clCtr := [], hubCtr := [], hubHi := [], lastRef := 0, wearSeen := [], trims := []
    trimBusy := [], eid := 0 }

/-! ### What the module emits -/

inductive CplStatus where
  | success | unsupported | poisoned | retry
  deriving DecidableEq, Repr

/-- A record of what left the module, newest last. -/
inductive Out where
  | hostWrite (ep : Ep) (addr : BitVec 64) (bytes : List Byte) (ro ns : Bool)
  | hostRead (ep : Ep) (addr : BitVec 64) (len : Nat) (id : Nat) (ns : Bool)
  | completion (ep : Ep) (st : CplStatus) (bytes : List Byte) (ro : Bool)
  | msix (ep : Ep) (addr : BitVec 64) (data : Word)
  | value (m : Master) (v : Word)
  | counter (i : Nat) (lo : Word)          -- a hub counter's `LO` word
  | frame (port : Port) (bytes : List Byte)
  | pfc (port : Port)
  | packet (x : XpOut)
  | cnp (qpn : Nat) (port : Port)       -- a congestion notification (R393)
  | drive (port : Port) (id : Nat) (op : DrvOp) (lba blocks : Nat) (fua : Bool)
  | driveCpl (port : Port) (data : Option (List Byte))    -- none for Unsupported Request
  | twin (epoch : Word) (seq : Nat) (body : TwinBody) (tag : BitVec 128)
  | ingot (area slot : Nat) (blocks : List (Nat × List Byte)) (units : List (Nat × List (List Byte))) (index : List (Nat × List Byte))   -- a copy: its slot's blocks, new store units, store index blocks
  | ingotBlock (port : Port) (lba : Nat) (bytes : List Byte)
  | mgmt (bytes : List Byte)
  | jtag (bytes : List Byte)
  deriving DecidableEq, Repr

/-! ### The module -/

/-- Everything that the spec gives the module, and the queue of commands that wait. -/
structure State where
  pending : List Instr
  fresh : Nat                  -- counts the free values taken; the model's own
  out : List Out
  regs : Tab Word              -- BAR0 registers that are plain storage, by offset
  cores : Tab Core
  fwCores : Tab Core           -- the firmware processors (R310)
  clusters : Tab Cluster
  fab : Fabric
  mem : Mem
  flasks : Tab Flask
  fw : Firmware
  live0 : Live
  live1 : Live
  he0 : Endpoint
  he1 : Endpoint
  own : Own
  phase : Phase
  net : Net
  xport : Xport
  stor : Stor
  scor : List ScoreReq
  fills : List Fill
  asks : List ScoreAsk
  sec : Sec
  twin : Twin
  ing : Ingots
  rst : Rst
  bg : Bg
  refs : Tab (BitVec 64)       -- reference counters at their last reading: dies 0–7, the hub 8 (R15)
  deriving DecidableEq, Repr


/-- Firmware as a good start-up leaves it, from bank A with start-up number 1. -/
def Firmware.reset : Firmware :=
  { admin := Ladle.admin 0x10000, admSq := [], admCq := [], box := ⟨[], 0⟩, log := [], logNext := 0, logWraps := 0
    running := ⟨0, 0, 0, 0, 0, []⟩, bankB := false, other := none, staged := false, fallback := false, secver := 0, start := 1, down := [], late := false
    restarts := [0, 0, 0, 0], lockups := 0, act := none, waiting := [], castCopy := none, copies := [] }

def Live.reset : Live := ⟨false, false, 0⟩

/-- The registers of plain storage whose reset value is not zero, by offset: `OWN.CAP` and `OWN.MGMT_TIMEOUT`,
`XPORT.UDP_PORT`, `SEC.BO_POLICY` and `SEC.BO_FLOOR`, `RST.WDOG`, `TELEM.BUDGET`, the `HOST` periods
(R345, R394, R442, R452, R453, R515, R536). -/
def Regs.reset : Tab Word :=
  [(0x2014, 0x7FFFFFFF), (0x2020, 5000), (0x400008, 19000), (0x600004, 0xADA), (0x600008, 0x995),
   (0x800018, 2000), (0xA00000, 2600), (0xC00008, 5000), (0xC0000C, 5000), (0xC00010, 2000)]

/-- After a start-up whose self-test passed: `BIST.RESULT` and `MEM.CHK` (R234, R508, R515). -/
def Regs.started : Tab Word := Tab.put 0 (Tab.put 0 Regs.reset 0x80010C 0xFF) 0x900070 0x1F

/-- The module in service, right after its start-up: nothing commanded yet, every register at its reset value. -/
def State.reset : State :=
  { pending := [], fresh := 0, out := [], regs := Regs.started, cores := [], fwCores := [], clusters := [], fab := Fabric.reset, mem := Mem.reset
    flasks := [], fw := Firmware.reset, live0 := Live.reset, live1 := Live.reset, he0 := Endpoint.reset
    he1 := Endpoint.reset, own := Own.reset, phase := .service, net := Net.reset, xport := Xport.reset, stor := Stor.reset
    scor := [], fills := [], asks := [], sec := Sec.reset, twin := Twin.reset, ing := Ingots.reset, rst := Rst.reset, bg := Bg.reset, refs := [] }

end Sys2Proof.Machine
end

