-- ==== Sys2Proof/Machine/Flags.lean ====
section
/-!
DEFINITION. `STAT` as a word, conditions, and the flags of the arithmetic instructions (R68, R72, R75, R78).
-/

namespace Sys2Proof.Machine

/-- `STAT` as rdsys reads it (R68). -/
def Stat.toWord (t : Stat) : Word :=
  let b (x : Bool) (n : Nat) : Nat := if x then 2 ^ n else 0
  BitVec.ofNat 32 (b t.z 0 + b t.n 1 + b t.c 2 + b t.v 3 + b t.t 4 + b t.te 5 + b t.wdm 6 + b t.finv 8 + b t.fdz 9 +
    b t.fov 10 + b t.fuf 11 + b t.xsat 12)

/-- `STAT` as wrsys writes it: the RW fields (R68). -/
def Stat.ofWord (w : Word) : Stat :=
  ⟨w.getLsbD 0, w.getLsbD 1, w.getLsbD 2, w.getLsbD 3, w.getLsbD 4, w.getLsbD 5, w.getLsbD 6, w.getLsbD 8,
    w.getLsbD 9, w.getLsbD 10, w.getLsbD 11, w.getLsbD 12⟩

/-- Whether a condition holds (R72); 0xF is reserved and is turned away before. -/
def condHolds (c : BitVec 4) (t : Stat) : Bool :=
  match c.toNat with
  | 0x0 => true
  | 0x1 => t.z
  | 0x2 => !t.z
  | 0x3 => t.n != t.v
  | 0x4 => t.n == t.v
  | 0x5 => t.z || t.n != t.v
  | 0x6 => !t.z && t.n == t.v
  | 0x7 => !t.c
  | 0x8 => t.c
  | 0x9 => !t.c || t.z
  | 0xA => t.c && !t.z
  | 0xB => t.v
  | 0xC => !t.v
  | 0xD => t.t
  | 0xE => !t.t
  | _ => false

/-- What an arithmetic operation sets: `none` leaves the flag. -/
structure FlagSet where
  z : Option Bool
  n : Option Bool
  c : Option Bool
  v : Option Bool
  deriving DecidableEq, Repr

def FlagSet.keep : FlagSet := ⟨none, none, none, none⟩

def Stat.put (t : Stat) (f : FlagSet) : Stat :=
  { t with z := f.z.getD t.z, n := f.n.getD t.n, c := f.c.getD t.c, v := f.v.getD t.v }

/-- Z and N of a result. -/
def flagsZN (r : Word) : FlagSet := ⟨some (r == 0), some r.msb, none, none⟩

/-- Z, N, C and V of a + b + carry (R75). -/
def addWith (a b : Word) (cin : Bool) : Word × FlagSet :=
  let r := a + b + (if cin then 1 else 0)
  let carry := decide (a.toNat + b.toNat + (if cin then 1 else 0) ≥ 2 ^ 32)
  (r, ⟨some (r == 0), some r.msb, some carry, some (a.msb == b.msb && r.msb != a.msb)⟩)

/-- Z, N, C and V of a − b − (1 − carry); C is 1 where nothing is borrowed (R68, R75). -/
def subWith (a b : Word) (cin : Bool) : Word × FlagSet :=
  let r := a - b - (if cin then 0 else 1)
  let noBorrow := decide (b.toNat + (if cin then 0 else 1) ≤ a.toNat)
  (r, ⟨some (r == 0), some r.msb, some noBorrow, some (a.msb != b.msb && r.msb != a.msb)⟩)

/-- Z and N; V := 0. -/
def logicFlags (r : Word) : Word × FlagSet := (r, ⟨some (r == 0), some r.msb, none, some false⟩)

/-- A shift's flags: C is the last bit out, and stays where no bit goes out (R75). -/
def shiftFlags (r : Word) (n : Nat) (out : Bool) : Word × FlagSet :=
  (r, ⟨some (r == 0), some r.msb, if n = 0 then none else some out, none⟩)

def opShl (a : Word) (n : Nat) : Word × FlagSet := shiftFlags (a <<< n) n (a.getLsbD (32 - n))
def opShr (a : Word) (n : Nat) : Word × FlagSet := shiftFlags (a >>> n) n (a.getLsbD (n - 1))
def opSar (a : Word) (n : Nat) : Word × FlagSet := shiftFlags (a.sshiftRight n) n (a.getLsbD (n - 1))
def opRol (a : Word) (n : Nat) : Word × FlagSet := (a.rotateLeft n, flagsZN (a.rotateLeft n))

/-- The low half of a product; V is signed overflow (R75). -/
def opMul (a b : Word) : Word × FlagSet :=
  let r := a * b
  (r, { flagsZN r with v := some (decide (a.toInt * b.toInt ≠ r.toInt)) })

def opMulhs (a b : Word) : Word × FlagSet :=
  let r := BitVec.ofInt 32 (a.toInt * b.toInt / 2 ^ 32)
  (r, flagsZN r)

def opMulhu (a b : Word) : Word × FlagSet :=
  let r := BitVec.ofNat 32 (a.toNat * b.toNat / 2 ^ 32)
  (r, flagsZN r)

/-- A quotient or remainder, and V where R75 gives the result of a division by zero or of −2^31 by −1. -/
def divFlags (r : Word) (v : Bool) : Word × FlagSet := (r, { flagsZN r with v := some v })

def signedCorner (a b : Word) : Bool := a == 0x8000_0000 && b == 0xFFFF_FFFF

def opDivs (a b : Word) : Word × FlagSet :=
  if b = 0 then divFlags 0xFFFF_FFFF true
  else if signedCorner a b then divFlags 0x8000_0000 true
  else divFlags (BitVec.ofInt 32 (a.toInt.tdiv b.toInt)) false

def opDivu (a b : Word) : Word × FlagSet :=
  if b = 0 then divFlags 0xFFFF_FFFF true else divFlags (BitVec.ofNat 32 (a.toNat / b.toNat)) false

def opRems (a b : Word) : Word × FlagSet :=
  if b = 0 then divFlags a true
  else if signedCorner a b then divFlags 0 true
  else divFlags (BitVec.ofInt 32 (a.toInt.tmod b.toInt)) false

def opRemu (a b : Word) : Word × FlagSet :=
  if b = 0 then divFlags a true else divFlags (BitVec.ofNat 32 (a.toNat % b.toNat)) false

def pick (b : Bool) (x y : Word) : Word × FlagSet :=
  let r := if b then x else y
  (r, flagsZN r)

/-- The zeros above the leading one of a word, 0–32. -/
def leadingZeros (a : Word) : Nat := if a = 0 then 32 else 31 - a.toNat.log2

/-- The ones among the low k bits. -/
def onesBelow (a : Word) : Nat → Nat
  | 0 => 0
  | k + 1 => onesBelow a k + (if a.getLsbD k then 1 else 0)

def opCount (n : Nat) : Word × FlagSet := (BitVec.ofNat 32 n, ⟨some (decide (n = 0)), none, none, none⟩)

end Sys2Proof.Machine
end

