-- ==== Sys2Proof/Machine/Float.lean ====
section
/-!
DEFINITION. Binary32 and Q16.16 arithmetic (R79, R80): values are taken apart into integers, computed exactly and rounded
once, to nearest even.
-/

namespace Sys2Proof.Machine

/-- What a binary32 word stands for; a subnormal stands for the zero of its sign (R80). -/
inductive FVal where
  | nan (signalling : Bool)
  | inf (neg : Bool)
  | zero (neg : Bool)
  | fin (neg : Bool) (m : Nat) (e : Int)     -- (−1)^neg × m × 2^e, m > 0
  deriving DecidableEq, Repr

def FVal.ofWord (w : Word) : FVal :=
  let neg := w.msb
  let e := bits w.toNat 30 23
  let f := bits w.toNat 22 0
  if e = 255 then (if f = 0 then .inf neg else .nan (f < 2 ^ 22))
  else if e = 0 then .zero neg
  else .fin neg (2 ^ 23 + f) ((e : Int) - 150)

def FVal.isNan : FVal → Bool
  | .nan _ => true
  | _ => false

def FVal.signalling : FVal → Bool
  | .nan s => s
  | _ => false

def FVal.neg : FVal → FVal
  | .inf n => .inf !n
  | .zero n => .zero !n
  | .fin n m e => .fin (!n) m e
  | v => v

/-- The sticky flags that an operation sets (R68). -/
structure FFlags where
  inv : Bool
  dz : Bool
  ov : Bool
  uf : Bool
  xsat : Bool
  deriving DecidableEq, Repr

def FFlags.none : FFlags := ⟨false, false, false, false, false⟩
def FFlags.invalid : FFlags := ⟨true, false, false, false, false⟩

def qNaN : Word := 0x7FC0_0000
def infWord (neg : Bool) : Word := if neg then 0xFF80_0000 else 0x7F80_0000
def zeroWord (neg : Bool) : Word := if neg then 0x8000_0000 else 0

/-- x / 2^d to the nearest integer, ties to even; `sticky` says that the exact value lies a little above x / 2^d. -/
def roundShift (x d : Nat) (sticky : Bool) : Nat :=
  if d = 0 then x
  else
    let q := x / 2 ^ d
    let r := x % 2 ^ d
    let half := 2 ^ (d - 1)
    if half < r ∨ (r = half ∧ (sticky ∨ q % 2 = 1)) then q + 1 else q

/-- (−1)^neg × m × 2^e, m > 0, as a binary32 word (R80). -/
def roundF32 (neg : Bool) (m : Nat) (e : Int) (sticky : Bool) : Word × FFlags :=
  let l := m.log2
  let q := if l ≤ 23 then m * 2 ^ (23 - l) else roundShift m (l - 23) sticky
  let q' := if q = 2 ^ 24 then 2 ^ 23 else q
  let ex : Int := l + e + (if q = 2 ^ 24 then 1 else 0)
  let s := if neg then 2 ^ 31 else 0
  if 127 < ex then (infWord neg, { FFlags.none with ov := true })
  else if ex < -126 then (zeroWord neg, { FFlags.none with uf := true })
  else (BitVec.ofNat 32 (s + (ex + 127).toNat * 2 ^ 23 + (q' - 2 ^ 23)), FFlags.none)

def FVal.toWord : FVal → Word × FFlags
  | .nan s => (qNaN, { FFlags.none with inv := s })
  | .inf n => (infWord n, FFlags.none)
  | .zero n => (zeroWord n, FFlags.none)
  | .fin n m e => roundF32 n m e false

/-- The exact sum of two finite values, as a sign, a magnitude and an exponent. -/
def exactAdd (n1 : Bool) (m1 : Nat) (e1 : Int) (n2 : Bool) (m2 : Nat) (e2 : Int) : Int × Int :=
  let e := min e1 e2
  let a : Int := m1 * 2 ^ (e1 - e).toNat
  let b : Int := m2 * 2 ^ (e2 - e).toNat
  ((if n1 then -a else a) + (if n2 then -b else b), e)

def signedF32 (x e : Int) : Word × FFlags :=
  if x = 0 then (0, FFlags.none) else roundF32 (decide (x < 0)) x.natAbs e false

/-- An accumulator's value as erd kind 0 gives it: a value below the smallest normal magnitude is flushed before it is rounded
(R144). -/
def accF32 (x e : Int) : Word × FFlags :=
  if x ≠ 0 ∧ ((x.natAbs.log2 : Int) + e < -126) then (zeroWord (decide (x < 0)), { FFlags.none with uf := true }) else signedF32 x e

/-- A NaN operand's result: the quiet NaN, and `FINV` for a signalling one, in every operation, fneg among them
(DESIGN CHOICE, log entry 130: R68 and R80 do not say which NaN operands are invalid). -/
def nanResult (vs : List FVal) : Word × FFlags := (qNaN, { FFlags.none with inv := vs.any FVal.signalling })

def addVal (a b : FVal) : Word × FFlags :=
  match a, b with
  | .nan _, _ => nanResult [a, b]
  | _, .nan _ => nanResult [a, b]
  | .inf x, .inf y => if x = y then (infWord x, FFlags.none) else (qNaN, FFlags.invalid)
  | .inf x, _ => (infWord x, FFlags.none)
  | _, .inf y => (infWord y, FFlags.none)
  | .zero x, .zero y => (zeroWord (x && y), FFlags.none)
  | .zero _, .fin n m e => roundF32 n m e false
  | .fin n m e, .zero _ => roundF32 n m e false
  | .fin n1 m1 e1, .fin n2 m2 e2 => signedF32 (exactAdd n1 m1 e1 n2 m2 e2).1 (exactAdd n1 m1 e1 n2 m2 e2).2

def fAdd (a b : Word) : Word × FFlags := addVal (FVal.ofWord a) (FVal.ofWord b)
def fSub (a b : Word) : Word × FFlags := addVal (FVal.ofWord a) (FVal.ofWord b).neg

/-- The exact product of two values that are no NaNs; `none` for zero times infinity. -/
def mulVal (a b : FVal) : Option FVal :=
  match a, b with
  | .inf x, .inf y => some (.inf (x != y))
  | .inf x, .fin y _ _ => some (.inf (x != y))
  | .fin x _ _, .inf y => some (.inf (x != y))
  | .inf _, .zero _ => none
  | .zero _, .inf _ => none
  | .zero x, .zero y => some (.zero (x != y))
  | .zero x, .fin y _ _ => some (.zero (x != y))
  | .fin x _ _, .zero y => some (.zero (x != y))
  | .fin x m1 e1, .fin y m2 e2 => some (.fin (x != y) (m1 * m2) (e1 + e2))
  | _, _ => none

def fMul (a b : Word) : Word × FFlags :=
  let x := FVal.ofWord a
  let y := FVal.ofWord b
  if x.isNan || y.isNan then nanResult [x, y]
  else match mulVal x y with
    | none => (qNaN, FFlags.invalid)
    | some v => v.toWord

/-- a × b + c, rounded once. -/
def fMa (a b c : Word) : Word × FFlags :=
  let x := FVal.ofWord a
  let y := FVal.ofWord b
  let z := FVal.ofWord c
  if x.isNan || y.isNan then nanResult [x, y, z]
  else match mulVal x y with
    | none => (qNaN, FFlags.invalid)
    | some v => addVal v z

/-- Values in order, −0 below +0: a < b. -/
def FVal.lt : FVal → FVal → Bool
  | .zero x, .zero y => x && !y
  | .inf true, .inf true => false
  | .inf true, _ => true
  | .inf false, _ => false
  | _, .inf y => !y
  | .zero _, .fin y _ _ => !y
  | .fin x _ _, .zero _ => x
  | .fin n1 m1 e1, .fin n2 m2 e2 => decide ((exactAdd n1 m1 e1 (!n2) m2 e2).1 < 0)
  | _, _ => false

def fMinMax (mx : Bool) (a b : Word) : Word × FFlags :=
  let x := FVal.ofWord a
  let y := FVal.ofWord b
  let fl := { FFlags.none with inv := x.signalling || y.signalling }
  if x.isNan then (if y.isNan then (qNaN, fl) else (y.toWord.1, fl))
  else if y.isNan then (x.toWord.1, fl)
  else (if (if mx then y.lt x else x.lt y) then x.toWord.1 else y.toWord.1, fl)

def fNeg (a : Word) : Word × FFlags := (FVal.ofWord a).neg.toWord

def i2F (a : Word) : Word × FFlags := signedF32 a.toInt 0

/-- m × 2^e rounded to the nearest integer, ties to even. -/
def roundInt (neg : Bool) (m : Nat) (e : Int) : Int :=
  let r : Int := if 0 ≤ e then m * 2 ^ e.toNat else roundShift m (-e).toNat false
  if neg then -r else r

def maxInt : Word := 0x7FFF_FFFF
def minInt : Word := 0x8000_0000

/-- A number clamped to 32 bits, and whether it was outside them. -/
def clamp32 (x : Int) : Word × Bool :=
  if x < -2 ^ 31 then (minInt, true) else if 2 ^ 31 ≤ x then (maxInt, true) else (BitVec.ofInt 32 x, false)

def f2I (a : Word) : Word × FFlags :=
  match FVal.ofWord a with
  | .nan _ => (0, FFlags.invalid)
  | .inf n => (if n then minInt else maxInt, FFlags.invalid)
  | .zero _ => (0, FFlags.none)
  | .fin n m e => let r := clamp32 (roundInt n m e); (r.1, { FFlags.none with inv := r.2 })

def fxSat (x : Int) : Word × FFlags := let r := clamp32 x; (r.1, { FFlags.none with xsat := r.2 })
def fxAdd (a b : Word) : Word × FFlags := fxSat (a.toInt + b.toInt)
def fxSub (a b : Word) : Word × FFlags := fxSat (a.toInt - b.toInt)
def fxMul (a b : Word) : Word × FFlags :=
  let p := a.toInt * b.toInt
  fxSat (roundInt (decide (p < 0)) p.natAbs (-16))
def fx2F (a : Word) : Word × FFlags := signedF32 a.toInt (-16)

def f2Fx (a : Word) : Word × FFlags :=
  match FVal.ofWord a with
  | .nan _ => (0, FFlags.invalid)
  | .inf n => (if n then minInt else maxInt, { FFlags.none with xsat := true })
  | .zero _ => (0, FFlags.none)
  | .fin n m e => fxSat (roundInt n m (e + 16))

def fDiv (a b : Word) : Word × FFlags :=
  match FVal.ofWord a, FVal.ofWord b with
  | .nan s, y => nanResult [.nan s, y]
  | x, .nan s => nanResult [x, .nan s]
  | .inf _, .inf _ => (qNaN, FFlags.invalid)
  | .inf x, .zero y => (infWord (x != y), FFlags.none)
  | .inf x, .fin y _ _ => (infWord (x != y), FFlags.none)
  | .zero _, .zero _ => (qNaN, FFlags.invalid)
  | .zero x, .inf y => (zeroWord (x != y), FFlags.none)
  | .zero x, .fin y _ _ => (zeroWord (x != y), FFlags.none)
  | .fin x _ _, .inf y => (zeroWord (x != y), FFlags.none)
  | .fin x _ _, .zero y => (infWord (x != y), { FFlags.none with dz := true })
  | .fin x m1 e1, .fin y m2 e2 =>
    let q := m1 * 2 ^ 32 / m2
    roundF32 (x != y) q (e1 - e2 - 32) (decide (m1 * 2 ^ 32 % m2 ≠ 0))

/-- The integer square root of n, bit by bit from bit k − 1. -/
def isqrt (n : Nat) : Nat → Nat → Nat
  | 0, r => r
  | k + 1, r => isqrt n k (if (r + 2 ^ k) * (r + 2 ^ k) ≤ n then r + 2 ^ k else r)

def fSqrt (a : Word) : Word × FFlags :=
  match FVal.ofWord a with
  | .nan s => nanResult [.nan s]
  | .zero n => (zeroWord n, FFlags.none)
  | .inf n => if n then (qNaN, FFlags.invalid) else (infWord false, FFlags.none)
  | .fin n m e =>
    if n then (qNaN, FFlags.invalid)
    else
      let k := (e % 2).toNat
      let x := m * 2 ^ (k + 40)
      let r := isqrt x 40 0
      roundF32 false r ((e - (k + 40)) / 2) (decide (r * r ≠ x))

/-- fcmp (R78): Z, N, C, V, and whether an operand is a signalling NaN. -/
def fCmp (a b : Word) : (Bool × Bool × Bool × Bool) × Bool :=
  let x := FVal.ofWord a
  let y := FVal.ofWord b
  let s := x.signalling || y.signalling
  if x.isNan || y.isNan then ((false, false, false, true), s)
  else
    let eq := match x, y with
      | .zero _, .zero _ => true
      | _, _ => decide (!x.lt y ∧ !y.lt x)
    let lt := !eq && x.lt y
    ((eq, lt, !lt, false), s)

end Sys2Proof.Machine
end

