-- ==== Sys2Proof/Config.lean ====
section
/-!
DEFINITION. What the spec leaves open. Each constant has no body: nothing can be proved of its value, and a statement
that mentions it holds for every value.
-/

namespace Sys2Proof

/-- A fresh free value: applied to `State.fresh`, which the step that takes it advances. -/
opaque Config.freeValue : Nat → BitVec 64

/-- What R147 and R149 leave open of an element that an engine packs or exports: the sign of a negative value that rounds to
zero, the code of a NaN. By R159 a function of the engine's state and its operands, given as numbers, and of the block and
the element. -/
opaque Config.openElement : List Nat → Nat → Nat → BitVec 8

/-- The bytes that a transaction of one of the kinds (0 access, 1 reply, 2 block-move line, 3 stream word, 4 credit) with so
many bytes of data takes on a ring link: the spec counts them (R531) and does not say how many there are. -/
opaque Config.linkBytes : Nat → Nat → Nat

/-- SHA-512 (R53, R54): the spec names the standard and does not define the function. -/
opaque Config.sha512 : List Byte → BitVec 512

/-- A MAC over bytes under a key slot's key (R430): mode, key material, input. -/
opaque Config.mac : Nat → List Byte → List Byte → BitVec 512

/-- The public key of an Ed25519 private seed (R416, RFC 8032). -/
opaque Config.edPublic : BitVec 256 → BitVec 256

/-- An Ed25519 signature by a private seed (R422): seed, message. -/
opaque Config.edSign : BitVec 256 → List Byte → BitVec 512

/-- Whether an Ed25519 signature verifies (R53, R315, R419, R448, R458): public key, message, signature. -/
opaque Config.edVerify : BitVec 256 → List Byte → BitVec 512 → Bool

/-- AES-256 key wrap with padding (RFC 5649) and its inverse, none where the integrity check fails: key, bytes. -/
opaque Config.keyWrap : List Byte → List Byte → List Byte
opaque Config.keyUnwrap : List Byte → List Byte → Option (List Byte)

/-- AES-256-XTS over one data unit, and its inverse (R456): key pair, tweak, the unit's bytes. -/
opaque Config.xtsEncrypt : BitVec 512 → BitVec 128 → List Byte → List Byte
opaque Config.xtsDecrypt : BitVec 512 → BitVec 128 → List Byte → List Byte

/-- AES-256 GMAC (R455, SP 800-38D): key, IV, the bytes it covers. -/
opaque Config.gmac : List Byte → BitVec 96 → List Byte → BitVec 128

/-- The payload that carries a twin message's body: the spec gives the messages' types and header, and lays no payload out (R455). -/
opaque Config.twinPayload : TwinBody → List Byte

/-- The 1,024 bytes of a core, and what follows the cores, in a cluster record: the spec lists what they hold and lays no bytes out
(R484). -/
opaque Config.coreRecord : CoreImage → List Byte
opaque Config.clusterRest : ClusterImage → List Byte

/-- What a decoder of DEFLATE (1), zlib (2), gzip (3) or Zstandard (4) makes of a byte string (R411; RFC 1951, 1950, 1952, 8878): what it
puts out until it ends or fails, and how it ends: 0 well, 1 malformed or unsupported, 2 a check that fails, 3 too large a window. -/
opaque Config.inflate : Nat → List Byte → List Byte × Nat

/-- A decoded JPEG (R411, R412; T.81): its size; whether it has one component; its samples Y, Cb, Cr from bit 0 up, in raster order, as
far as they are decoded; and how it ends, as above. -/
structure Jpeg where
  width : Nat
  height : Nat
  grey : Bool
  samples : List (BitVec 24)
  code : Nat
  deriving DecidableEq, Repr, Inhabited

opaque Config.jpeg : List Byte → Jpeg

/-- Haldop's root public keys, whose SHA-512 are fused at the indices 0 to 3 (R315), and its debug key (R448). -/
opaque Config.rootKey : Nat → BitVec 256
opaque Config.debugKey : BitVec 256

end Sys2Proof
end

