-- ==== Sys2Proof/Machine/MemRaw.lean ====
section
/-!
DEFINITION. Addresses, translation and the stores themselves (spec/06_memory.md, R200–R218, R552): pure operations on
`Mem`, before any accounting of errors.
-/

namespace Sys2Proof.Machine

/-! ### Accessors of the state's tables -/

/-- The key of a processor in the tables of cores. -/
def procKey : Proc → Nat
  | .core c => c.toNat
  | .ccc cl => 0x100000 + cl.toNat
  | .hub k => 0x200000 + k.toNat

/-- A flask core; the other processors are firmware's. -/
def procIsCore : Proc → Bool
  | .core _ => true
  | _ => false

def State.core (s : State) (p : Proc) : Core :=
  if procIsCore p then Tab.get Core.reset s.cores (procKey p) else Tab.get Core.firmware s.fwCores (procKey p)
def State.setCore (s : State) (p : Proc) (c : Core) : State :=
  if procIsCore p then { s with cores := Tab.put Core.reset s.cores (procKey p) c }
  else { s with fwCores := Tab.put Core.firmware s.fwCores (procKey p) c }
def State.cluster (s : State) (cl : ClusterId) : Cluster := Tab.get Cluster.reset s.clusters cl.toNat
def State.setCluster (s : State) (cl : ClusterId) (c : Cluster) : State :=
  { s with clusters := Tab.put Cluster.reset s.clusters cl.toNat c }
def State.flask (s : State) (f : FlaskId) : Flask := Tab.get Flask.reset s.flasks f.toNat
def State.setFlask (s : State) (f : FlaskId) (v : Flask) : State :=
  { s with flasks := Tab.put Flask.reset s.flasks f.toNat v }
def State.reg (s : State) (off : Nat) : Word := Tab.get 0 s.regs off
def State.setReg (s : State) (off : Nat) (v : Word) : State := { s with regs := Tab.put 0 s.regs off v }
/-- A saturating count in a register (R236). -/
def State.count (s : State) (off : Nat) : State := s.setReg off (satInc (s.reg off))
def State.emit (s : State) (o : Out) : State := { s with out := s.out ++ [o] }

/-- The cluster of a core. -/
def coreCluster (c : CoreId) : ClusterId := BitVec.ofNat 12 (c.toNat / 256)

/-- The cluster that a processor belongs to; the hub's processors belong to none. -/
def procCluster : Proc → Option ClusterId
  | .core c => some (coreCluster c)
  | .ccc cl => some cl
  | .hub _ => none

/-- The words of a processor's instruction store (R310, R311). -/
def procWords : Proc → Nat
  | .core _ => 2048
  | .ccc _ => 4096
  | .hub k => if k = 0 then 131072 else if k = 1 then 65536 else 262144

/-! ### Fabric addresses (R200) -/

def dieBase (d : Nat) : Nat := 2 * 2 ^ 44 + d * 2 ^ 39

/-- The fabric address of a core's store. -/
def coreBase (c : CoreId) : Nat :=
  c.toNat / 131072 * 2 ^ 41 + c.toNat / 256 % 512 * 2 ^ 32 + c.toNat % 256 * 2 ^ 24

/-- The fabric address of a cluster's store. -/
def clusterBase (cl : ClusterId) : Nat := 2 ^ 44 + cl.toNat / 512 * 2 ^ 41 + cl.toNat % 512 * 2 ^ 32

/-- Where a processor's instruction store stands among the SRAM words: a core's at its fabric address; the stores of
the firmware processors, which no fabric address names, above the address space. -/
def storeBase : Proc → Nat
  | .core c => coreBase c
  | .ccc cl => 2 ^ 48 + cl.toNat * 2 ^ 20
  | .hub k => 2 ^ 48 + 2 ^ 40 + k.toNat * 2 ^ 20

def space (fa : Nat) : Nat := fa / 2 ^ 44 % 16

/-- The cluster of a fabric address in space 0x0 or 0x1. -/
def faCluster (fa : Nat) : ClusterId := BitVec.ofNat 12 (bits fa 43 41 * 512 + bits fa 40 32)

/-- The physical granule, die × 1,192 + number, of a fabric address in space 0x2. -/
def faGranule (fa : Nat) : Nat := bits fa 41 39 * 1192 + bits fa 38 28

/-- R200, R202: an address that some store answers. -/
def faValid (fa : Nat) : Bool :=
  if space fa = 0 then bits fa 23 13 == 0
  else if space fa = 1 then bits fa 31 18 == 0
  else if space fa = 2 then bits fa 43 42 == 0 && decide (bits fa 38 0 < 1192 * 2 ^ 28)
  else false

/-- The first granule of the firmware region on each die (R201). -/
def firmwareGranule (g : Nat) : Bool := decide (1188 ≤ g % 1192)

/-- The mould staging area (R28): 256 MiB of the firmware region. -/
def stagingBase : Nat := dieBase 0 + 1188 * 2 ^ 28

/-- R203 for a flask; R205 for domain 0x100. `none` is a fault. -/
def translate (s : State) (dom : Domain) (fa : Nat) : Option Nat :=
  if dom.toNat = 0x100 then some fa
  else
    let f := s.flask (BitVec.ofNat 8 dom.toNat)
    if space fa = 0 ∨ space fa = 1 then
      match f.clusters[bits fa 43 32]? with
      | none => none
      | some cl => some (space fa * 2 ^ 44 + cl.toNat / 512 * 2 ^ 41 + cl.toNat % 512 * 2 ^ 32 + bits fa 31 0)
    else if space fa = 2 then
      match f.granules[bits fa 43 28]? with
      | none => none
      | some g => some (dieBase (g / 1192) + g % 1192 * 2 ^ 28 + bits fa 27 0)
    else if space fa = 5 then some fa
    else none

/-- The owner of a physical granule: the firmware region is firmware's (R201, R204). -/
def Mem.ownerOf (m : Mem) (g : Nat) : Domain := if firmwareGranule g then 0x100 else Tab.get 0x1FF m.owner g

def Mem.clusterOwnerOf (m : Mem) (cl : ClusterId) : Domain := Tab.get 0x1FF m.clusterOwner cl.toNat

/-- The home's check of the flask ID (R204, R205), and of the flask's key (R232). -/
def homeOk (s : State) (dom : Domain) (fa : Nat) : Bool :=
  if space fa = 2 then
    let o := s.mem.ownerOf (faGranule fa)
    (decide (dom.toNat = 0x100) || o == dom) &&
      (decide (256 ≤ o.toNat) || (s.flask (BitVec.ofNat 8 o.toNat)).keyLoaded)
  else decide (dom.toNat = 0x100) || s.mem.clusterOwnerOf (faCluster fa) == dom

/-- The path of an access (R170): the core store, the cluster store, the channel, or the hub block that is a host endpoint.
The numbers of the five kinds do not meet. -/
def pathOf (fa : Nat) : Nat :=
  if space fa = 0 then fa % 2 ^ 44 / 2 ^ 24
  else if space fa = 1 then 2 ^ 40 + fa % 2 ^ 44 / 2 ^ 32
  else if space fa = 2 then
    let o := bits fa 38 0
    let u := o / 4096
    let c := (bits u 3 0) ^^^ (bits u 7 4) ^^^ (bits u 11 8) ^^^ (bits u 15 12) ^^^ (bits u 19 16) ^^^
      (bits u 23 20) ^^^ (bits u 26 24)
    2 ^ 50 + bits fa 41 39 * 16 + c
  else 2 ^ 60 + fa / 2 ^ 43

/-- Where the stores of the firmware processors stand; no fabric address names them. -/
def aboveSpace : Nat := 2 ^ 48

/-- The store that holds an address, by a number of its own: a channel, a bank of a cluster store, a core store, a firmware
processor's store (R226). -/
def storeOf (fa : Nat) : Nat :=
  if aboveSpace ≤ fa then 2 ^ 52 + fa / 2 ^ 20
  else if space fa = 1 then 2 ^ 51 + fa % 2 ^ 44 / 2 ^ 32 * 16 + fa / 64 % 16
  else pathOf fa

/-- The spare lines of that store. -/
def spareLines (fa : Nat) : Nat := if fa < aboveSpace ∧ space fa = 2 then 256 else 4

/-! ### Tagged memory -/

def Word.byte (w : Word) (i : Nat) : Byte := BitVec.ofNat 8 (w.toNat / 256 ^ i)

/-- The word with byte i replaced. -/
def Word.setByte (w : Word) (i : Nat) (b : Byte) : Word :=
  BitVec.ofNat 32 (w.toNat - w.toNat / 256 ^ i % 256 * 256 ^ i + b.toNat * 256 ^ i)

/-- The word with the bytes put from byte i on. -/
def Word.setBytes (w : Word) : Nat → List Byte → Word
  | _, [] => w
  | i, b :: bs => Word.setBytes (Word.setByte w i b) (i + 1) bs

def Word.bytes (w : Word) : List Byte := leBytes 4 w.toNat

/-- A word of SRAM at word index k as its line's valid bit lets it be seen (R214). -/
def Mem.word (m : Mem) (k : Nat) : TWord :=
  if Tab.get false m.sramValid (k / 16) then Tab.get TWord.zero m.sram k else TWord.zero

def Mem.wordMark (m : Mem) (k : Nat) : WordMark :=
  if Tab.get false m.sramValid (k / 16) then Tab.get .good m.sramMark k else .good

/-- A stored word with the bits of a mask inverted: 32 of payload, 4 of tag; the others are its check bits. -/
def invertWord (w : TWord) (mask : Nat) : TWord := ⟨w.payload ^^^ BitVec.ofNat 32 mask, w.tag ^^^ BitVec.ofNat 4 (mask / 2 ^ 32)⟩

/-- A flip that waits for a write of the word at word index k is applied to it (R235). What the word's code then makes of it
(R219): one bit is corrected, two are found. More bits than that stay inverted; an odd number is found or taken for an error
of one bit, which is any bit, and an even number is found or not. -/
def Mem.flipWord (m : Mem) (k : Nat) : Mem :=
  match m.flip with
  | none => m
  | some x =>
    if (x.target = 0 ∨ x.target = 1) ∧ x.addr / 4 = k ∧ space x.addr = x.target.toNat then
      let n := (List.range 43).countP x.mask.testBit
      let m := { m with flip := none, flipDone := true }
      let w := invertWord (Tab.get TWord.zero m.sram k) x.mask
      let odd := decide (n % 2 = 1)
      if n = 0 then m
      else if n = 1 then { m with sramMark := Tab.put .good m.sramMark k .correctable }
      else if n = 2 ∨ x.wild.getLsbD 0 then { m with sramMark := Tab.put .good m.sramMark k .uncorrectable }
      else { m with
        sram := Tab.put TWord.zero m.sram k (if odd then invertWord w (2 ^ (x.wild.toNat / 2 % 43)) else w)
        sramMark := Tab.put .good m.sramMark k (if odd then .correctable else .good) }
    else m

/-- A write of one whole word with fresh check bits; on an invalid line every other word becomes 0 tagged RAW (R215). -/
def Mem.setWord (m : Mem) (k : Nat) (w : TWord) : Mem :=
  let m :=
    if Tab.get false m.sramValid (k / 16) then m
    else { m with sram := Tab.eraseRange (k / 16 * 16) (k / 16 * 16 + 16) m.sram
                  sramMark := Tab.eraseRange (k / 16 * 16) (k / 16 * 16 + 16) m.sramMark
                  sramValid := Tab.put false m.sramValid (k / 16) true }
  { m with sram := Tab.put TWord.zero m.sram k w, sramMark := Tab.put .good m.sramMark k .good }.flipWord k

def Mem.setWordMark (m : Mem) (k : Nat) (x : WordMark) : Mem := { m with sramMark := Tab.put .good m.sramMark k x }

/-- The valid bits of the lines lo to hi − 1 cleared. -/
def Mem.clearLines (m : Mem) (lo hi : Nat) : Mem := { m with sramValid := Tab.eraseRange lo hi m.sramValid }

/-! ### LPDDR -/

/-- A byte of LPDDR as its unit's valid bit lets it be seen (R214). -/
def Mem.byte (m : Mem) (a : Nat) : Byte :=
  if Tab.get false m.lpValid (a / 4096) then Tab.get 0 m.lp a else 0

def Mem.bytes (m : Mem) : Nat → Nat → List Byte
  | _, 0 => []
  | a, n + 1 => m.byte a :: m.bytes (a + 1) n

/-- The mark of the codeword that holds a byte; an invalid unit is never corrected or poisoned (R214). -/
def Mem.cw (m : Mem) (a : Nat) : CwMark :=
  if Tab.get false m.lpValid (a / 4096) then Tab.get .good m.lpMark (a / 32) else .good

def Mem.setCw (m : Mem) (a : Nat) (x : CwMark) : Mem := { m with lpMark := Tab.put .good m.lpMark (a / 32) x }

/-- An uncorrectable codeword that its controller finds is poisoned (R221). -/
def Mem.poisonCw (m : Mem) (a : Nat) : Mem := if m.cw a = .uncorrectable then m.setCw a .poisoned else m

/-- R218: the first write to an invalid unit writes zeros over the rest of it. -/
def Mem.touchUnit (m : Mem) (a : Nat) : Mem :=
  if Tab.get false m.lpValid (a / 4096) then m
  else { m with lp := Tab.eraseRange (a / 4096 * 4096) (a / 4096 * 4096 + 4096) m.lp
                lpMark := Tab.eraseRange (a / 4096 * 128) (a / 4096 * 128 + 128) m.lpMark
                lpValid := Tab.put false m.lpValid (a / 4096) true }

/-- Bytes put from address a on, within one unit. -/
def Mem.putBytes (m : Mem) : Nat → List Byte → Mem
  | _, [] => m
  | a, b :: bs => Mem.putBytes { m with lp := Tab.put 0 m.lp a b } (a + 1) bs

/-- The copy of a frozen 64 KiB granule to its shadow (R22). -/
def Mem.copyGranule (m : Mem) (g : Nat) : Mem :=
  match Tab.get none m.frozen g with
  | none => m
  | some fz =>
    if fz.copied then m
    else { m with frozen := Tab.put none m.frozen g (some { fz with
              copied := true
              shadow := m.lp.filter fun e => decide (e.1 / 65536 = g) && Tab.get false m.lpValid (e.1 / 4096) })
                  copying := m.copying.filter (· ≠ g) }

/-- Whether a write to the byte waits for the copy of its granule (R22, R218). -/
def Mem.mustCopy (m : Mem) (a : Nat) : Bool :=
  match Tab.get none m.frozen (a / 65536) with
  | none => false
  | some fz => !fz.copied

/-- The 32 bytes of a codeword with a value XORed into the data symbols that a mask names; symbol j is taken as byte j. -/
def Mem.damaged (m : Mem) (c mask : Nat) (pat : Byte) : List Byte :=
  (List.range 32).map fun j => Tab.get 0 m.lp (c + j) ^^^ (if mask.testBit j then pat else 0)

/-- A byte of a list changed by a value that is not zero. -/
def wrongByte (bs : List Byte) (j : Nat) (v : Byte) : List Byte :=
  bs.zipIdx.map fun x => if x.2 = j then x.1 ^^^ (if v = 0 then 1 else v) else x.1

/-- The same for a codeword of the line at address a (R235). What its code makes of it (R219–R221): one symbol is corrected, two
or three are found, and the poison pattern poisons. More symbols than that stay changed; they are found, or taken for an error
of one symbol, which is any symbol, or for five and more not found at all. -/
def Mem.flipLine (m : Mem) (a : Nat) : Mem :=
  match m.flip with
  | none => m
  | some x =>
    if x.target = 2 ∧ x.addr / 64 = a / 64 ∧ space x.addr = 2 then
      let n := (List.range 36).countP x.mask.testBit
      let m := { m with flip := none, flipDone := true }
      let c := x.addr / 32 * 32
      let bs := m.damaged c x.mask x.pat
      if n = 0 ∨ x.pat = 0 then m
      else if n = 1 then m.setCw x.addr .correctable
      else if n ≤ 3 then m.setCw x.addr .uncorrectable
      else if x.mask = 0xF00000000 ∧ x.pat = 0xA5 then m.setCw x.addr .poisoned
      else if x.wild.getLsbD 0 then m.setCw x.addr .uncorrectable
      else if n = 4 ∨ x.wild.getLsbD 1 then
        (m.putBytes c (wrongByte bs (x.wild.toNat / 4 % 36) (BitVec.ofNat 8 (x.wild.toNat / 256)))).setCw x.addr .correctable
      else m.putBytes c bs
    else m

/-- A write of bytes within one 64-byte line as its channel performs it: both codewords are written anew (R211), over zeros
where the unit was invalid (R218), after the copy of a frozen granule (R22). -/
def Mem.setLine (m : Mem) (a : Nat) (bs : List Byte) : Mem :=
  let l := a / 64 * 64
  ((((((m.copyGranule (a / 65536)).touchUnit a).putBytes a bs).setCw l .good).setCw (l + 32) .good).flipLine a)

/-- The valid bits of a 64 KiB range or more cleared: units lo to hi − 1. -/
def Mem.clearUnits (m : Mem) (lo hi : Nat) : Mem := { m with lpValid := Tab.eraseRange lo hi m.lpValid }

/-- The fabric address of a physical granule. -/
def granuleBase (g : Nat) : Nat := dieBase (g / 1192) + g % 1192 * 2 ^ 28

/-- The valid bits of a granule cleared. -/
def Mem.clearGranule (m : Mem) (g : Nat) : Mem := m.clearUnits (granuleBase g / 4096) (granuleBase g / 4096 + 65536)

/-! ### Runs of bytes -/

/-- Bytes cut where an address is a multiple of `step`; the fuel is the number of bytes. -/
def split (step : Nat) : Nat → Nat → List Byte → List (Nat × List Byte)
  | 0, _, _ => []
  | n + 1, a, bs =>
    match bs with
    | [] => []
    | _ => (a, bs.take (step - a % step)) :: split step n (a + (step - a % step)) (bs.drop (step - a % step))

/-- The pieces, each within one aligned `step`, of a range of n bytes from a: address and length. -/
def pieces (step : Nat) : Nat → Nat → Nat → List (Nat × Nat)
  | 0, _, _ => []
  | fuel + 1, a, n =>
    if n = 0 then []
    else
      let k := min n (step - a % step)
      (a, k) :: pieces step fuel (a + k) (n - k)

end Sys2Proof.Machine
end

