-- ==== Sys2Proof/Machine/Opcodes.lean ====
section
/-!
DEFINITION. Status, event and command codes (R327, R332, R333 and the chapters' own tables), and which ladles take which
command.
-/

namespace Sys2Proof.Machine

/-- Status codes (R332, R65, R363, R390, R414, R451, R476, R496, R514). -/
abbrev Status := BitVec 16

namespace St
def success : Status := 0x0000
def aborted : Status := 0x0001
def abortedByReset : Status := 0x0002
def completedBeforeAbort : Status := 0x0003
def accessFault : Status := 0x0010
def segmentFault : Status := 0x0011
def tagFault : Status := 0x0012
def illegal : Status := 0x0013
def privilege : Status := 0x0014
def align : Status := 0x0015
def fetch : Status := 0x0017
def bus : Status := 0x0018
def sync : Status := 0x0019
def engine : Status := 0x001A
def soft : Status := 0x001B
def watchdog : Status := 0x001C
def doubleTrap : Status := 0x001D
def mediaError : Status := 0x0020
def uncorrectable : Status := 0x0021
def revoked : Status := 0x0030
def badSignature : Status := 0x0040
def shapeMismatch : Status := 0x0041
def malformed : Status := 0x0042
def wrongRevision : Status := 0x0043
def unknownKey : Status := 0x0044
def noCapacity : Status := 0x0045
def placementBusy : Status := 0x0046
def segmentRange : Status := 0x0047
def routeInvalid : Status := 0x0048
def creditInvalid : Status := 0x0049
def formatInvalid : Status := 0x004A
def feedConflict : Status := 0x004B
def scorerInvalid : Status := 0x004C
def baseMismatch : Status := 0x004D
def firmwareTooOld : Status := 0x004E
def clusterFault : Status := 0x004F
def ownerLost : Status := 0x0050
def abandoned : Status := 0x0051
def timeout : Status := 0x0052
def badOpcode : Status := 0x0053
def wrongState : Status := 0x0054
def notFound : Status := 0x0055
def imageIncompatible : Status := 0x0056
def rollback : Status := 0x0057
def hostFault : Status := 0x0058
def fenced : Status := 0x0060
def denseRegion : Status := 0x0070
def internal : Status := 0x00FF
end St

/-- Which ladles take a command (R327 and the chapters). -/
inductive LadleKind where
  | admin | flask | both
  deriving DecidableEq, Repr

/-- The opcode of a ladle command and the ladles that take it; `none` for a command that is no ladle entry. -/
def ladleOp : Instr → Option (BitVec 16 × LadleKind)
  | .create .. => some (0x0001, .admin)
  | .destroy .. => some (0x0002, .admin)
  | .reset .. => some (0x0003, .admin)
  | .cast .. => some (0x0004, .admin)
  | .ladleConfig .. => some (0x0005, .admin)
  | .abort .. => some (0x0006, .both)
  | .fwStage .. => some (0x0007, .admin)
  | .fwActivate .. => some (0x0008, .admin)
  | .nop .. => some (0x0009, .both)
  | .dispatch .. => some (0x0100, .flask)
  | .storRead .. => some (0x0200, .flask)
  | .storWrite .. => some (0x0201, .flask)
  | .storFlush .. => some (0x0202, .flask)
  | .storTrim .. => some (0x0203, .flask)
  | .ingest .. => some (0x0210, .flask)
  | .volCreate .. => some (0x0220, .admin)
  | .volDestroy .. => some (0x0221, .admin)
  | .drivePower .. => some (0x0222, .admin)
  | .qpCreate .. => some (0x0300, .flask)
  | .qpConnect .. => some (0x0301, .flask)
  | .qpCcSet .. => some (0x0302, .flask)
  | .qpClose .. => some (0x0303, .flask)
  | .qpReset .. => some (0x0304, .flask)
  | .qpDestroy .. => some (0x0305, .flask)
  | .mrRegister .. => some (0x0306, .flask)
  | .mrPages .. => some (0x0307, .flask)
  | .mrRevoke .. => some (0x0308, .flask)
  | .xpSend .. => some (0x0310, .flask)
  | .xpWrite .. => some (0x0311, .flask)
  | .xpRead .. => some (0x0312, .flask)
  | .netClassOpen .. => some (0x0400, .flask)
  | .netClassClose .. => some (0x0401, .flask)
  | .netSend .. => some (0x0402, .flask)
  | .shaperSet .. => some (0x0403, .flask)
  | .ingotArea .. => some (0x0500, .admin)
  | .ingotSetup .. => some (0x0501, .admin)
  | .ingotTake .. => some (0x0502, .both)
  | .ingotRestore .. => some (0x0503, .both)
  | .keyUnwrap .. => some (0x0600, .both)
  | .keyClear .. => some (0x0601, .both)
  | .keyAssign .. => some (0x0602, .admin)
  | .cvCompute .. => some (0x0603, .both)
  | .attest .. => some (0x0604, .both)
  | .mouldKeySet .. => some (0x0605, .admin)
  | .debugKeySet .. => some (0x0606, .admin)
  | .dukProvision .. => some (0x0607, .admin)
  | .dukRotate .. => some (0x0608, .admin)
  | .breakoutRaise .. => some (0x0609, .admin)
  | .breakoutClear .. => some (0x060A, .admin)
  | .twinPair .. => some (0x0700, .admin)
  | .twinPolicy .. => some (0x0701, .admin)
  | .twinReadmit .. => some (0x0702, .admin)
  | .twinUnpair .. => some (0x0703, .admin)
  | .pmonConfig .. => some (0x0800, .both)
  | .pmonRead .. => some (0x0801, .both)
  | .ceilingSet .. => some (0x0802, .admin)
  | _ => none

def opcodeOf (i : Instr) : BitVec 16 := ((ladleOp i).map Prod.fst).getD 0

end Sys2Proof.Machine
end

