-- ==== Sys2Proof/Machine/RegMap.lean ====
section
/-!
DEFINITION. The BAR0 registers by the register tables of the spec: offset, spacing and number of an array, and the bits of
each access code (R9). A bit that no field claims is reserved (R6).
-/

namespace Sys2Proof.Machine

structure RegRow where
  off : Nat
  stride : Nat
  count : Nat
  rw : Nat
  w1c : Nat
  w1s : Nat
  wo : Nat
  rc : Nat
  reset : Nat
  deriving DecidableEq, Repr

namespace Reg

def memCap : Nat := 0x900000
def memMode : Nat := 0x900004
def memCeSram : Nat := 0x900010
def memCeLpddr : Nat := 0x900014
def memCeLink : Nat := 0x900018
def memUeSram : Nat := 0x90001C
def memUeLpddr : Nat := 0x900020
def memVoteFix : Nat := 0x900024
def memVoteFail : Nat := 0x900028
def memRepairs : Nat := 0x90002C
def memLogHead : Nat := 0x900040
def memFlipCtl : Nat := 0x900050
def memFlipAddrLo : Nat := 0x900054
def memFlipAddrHi : Nat := 0x900058
def memFlipMask0 : Nat := 0x90005C
def memFlipMask1 : Nat := 0x900060
def memFlipPat : Nat := 0x900064
def memFlipStat : Nat := 0x900068
def memChk : Nat := 0x900070
def memGranSel : Nat := 0x900080
def memGranInfo : Nat := 0x900084
def memKeys : Nat := 0x9000A0
def memLog : Nat := 0x900100
def flaskCap : Nat := 0xB00000
def flaskAlloc : Nat := 0xB00010
def flaskQpFree : Nat := 0xB00030
def flaskMrFree : Nat := 0xB00034
def flaskShFree : Nat := 0xB00038
def flaskState : Nat := 0xB01000
def flaskSize : Nat := 0xB01004
def flaskSeq : Nat := 0xB01008
def flaskDrain : Nat := 0xB0100C
def flaskLast : Nat := 0xB01010
def flaskQuotaQp : Nat := 0xB01014
def flaskQuotaMr : Nat := 0xB01018
def flaskQuotaSh : Nat := 0xB0101C
def pciHe0Link : Nat := 0x100000
def pciHe0Ur : Nat := 0x100004
def pciHe0Drop : Nat := 0x100008
def pciHe0Unexp : Nat := 0x10000C
def pciHe0OnoteAddrLo : Nat := 0x100010
def pciHe0OnoteAddrHi : Nat := 0x100014
def pciHe0OnoteData : Nat := 0x100018
def pciHe0OnoteCtl : Nat := 0x10001C
def pciAttn : Nat := 0x100200
def winHe0Ctl : Nat := 0x101000
def winHe0Commit : Nat := 0x101004
def winHe0Stat : Nat := 0x101008
def ladleAdmSqdb : Nat := 0x200000
def ladleAdmCqdb : Nat := 0x200004
def ladleAdmGen : Nat := 0x200008
def ladleAdmStat : Nat := 0x20000C
def ladleFwVer : Nat := 0x200010
def ladleFwStat : Nat := 0x200014
def ladleStagedVer : Nat := 0x200018
def ladleProcAlive : Nat := 0x200020
def ladleProcRestarts : Nat := 0x200024
def ladleCccRestarts : Nat := 0x200028
def ladleEventsLost : Nat := 0x20002C
def ladleLogHead : Nat := 0x200040
def ladleLogLost : Nat := 0x200044
def ladleTapEn : Nat := 0x200048
def ladleStart : Nat := 0x20004C
def ladleFq : Nat := 0x260000
def ladleFqs : Nat := 0x260004
def hostBeat0 : Nat := 0xC00000
def hostBeat1 : Nat := 0xC00004
def hostTimeout0 : Nat := 0xC00008
def hostTimeout1 : Nat := 0xC0000C
def hostHold : Nat := 0xC00010
def hostStat : Nat := 0xC00014
def hostDropped : Nat := 0xC00018
def netCap : Nat := 0x300000
def netRuleStage : Nat := 0x300010
def netRuleWrite : Nat := 0x300050
def netRuleRead : Nat := 0x300054
def netNoRule : Nat := 0x300060
def netNoBinding : Nat := 0x300064
def netClassClosed : Nat := 0x300068
def netClassFull : Nat := 0x30006C
def netFragTimeout : Nat := 0x300070
def netFragFull : Nat := 0x300074
def netFragStat : Nat := 0x300080
def netShaperSel : Nat := 0x300090
def netShaperInfo : Nat := 0x300094
def netShaperRate : Nat := 0x300098
def netShaperCredit : Nat := 0x30009C
def netFlaskTx : Nat := 0x300100
def netFlaskMacLo : Nat := 0x300104
def netFlaskMacHi : Nat := 0x300108
def netPnCtl : Nat := 0x302000
def netPnStat : Nat := 0x302004
def netPnMacLo : Nat := 0x302008
def netPnMacHi : Nat := 0x30200C
def netPnRxOk : Nat := 0x302010
def netPnRxBad : Nat := 0x302014
def netPnRxDmac : Nat := 0x302018
def netPnReorderDrop : Nat := 0x30201C
def netPnTxOk : Nat := 0x302020
def netPnPfcSent : Nat := 0x302024
def netPnFecCorr : Nat := 0x302028
def netPnFecUncorr : Nat := 0x30202C
def xportCap : Nat := 0x400000
def xportMrCap : Nat := 0x400004
def xportUdpPort : Nat := 0x400008
def xportEpoch : Nat := 0x40000C
def xportFaultBuf : Nat := 0x400010
def xportQpSel : Nat := 0x400040
def xportQpInfo : Nat := 0x400044
def xportQpPeer : Nat := 0x400048
def xportQpPsn : Nat := 0x40004C
def xportQpWnd : Nat := 0x400050
def xportQpRtt : Nat := 0x400054
def xportQpPaths : Nat := 0x400058
def xportRxMalformed : Nat := 0x400080
def xportRxStaleEpoch : Nat := 0x400084
def xportDupDrop : Nat := 0x400088
def xportNakSent : Nat := 0x40008C
def xportNakRecv : Nat := 0x400090
def xportResent : Nat := 0x400094
def xportFaultStall : Nat := 0x400098
def xportCnpSent : Nat := 0x40009C
def xportSrcIp : Nat := 0x400100
def storCap : Nat := 0x500000
def storIngestJobs : Nat := 0x500010
def storIngestFails : Nat := 0x500014
def storPnCtl : Nat := 0x501000
def storPnStat : Nat := 0x501004
def storPnBlocksLo : Nat := 0x501008
def storPnBlocksHi : Nat := 0x50100C
def storPnStray : Nat := 0x501010
def storPnErrors : Nat := 0x501014
def storPnRemovals : Nat := 0x501018
def idDevice : Nat := 0x0
def idRev : Nat := 0x4
def idIdent : Nat := 0x10
def idPubkey : Nat := 0x20
def idCertLen : Nat := 0x40
def idCert : Nat := 0x1000
def ownClaim : Nat := 0x2000
def ownStat : Nat := 0x2004
def ownClaims : Nat := 0x2008
def ownHandover : Nat := 0x200C
def ownAccept : Nat := 0x2010
def ownCap : Nat := 0x2014
def ownObsWrites0 : Nat := 0x2018
def ownObsWrites1 : Nat := 0x201C
def ownMgmtTimeout : Nat := 0x2020
def secBoStat : Nat := 0x600000
def secBoPolicy : Nat := 0x600004
def secBoFloor : Nat := 0x600008
def secProv : Nat := 0x60000C
def secDebugCtl : Nat := 0x600010
def secDebugFails : Nat := 0x600014
def secUnwrapFails : Nat := 0x600018
def secSlotSel : Nat := 0x600020
def secSlotInfo : Nat := 0x600024
def secSlotLabel : Nat := 0x600028
def secCvStat : Nat := 0x600040
def secCvDone : Nat := 0x600044
def secCvMismatch : Nat := 0x600048
def secMouldKey : Nat := 0x600100
def secMouldKeyValid : Nat := 0x600300
def secDebugKey : Nat := 0x600400
def secDebugKeyValid : Nat := 0x600420
def twinStat : Nat := 0x700000
def twinEpoch : Nat := 0x700004
def twinPeerEpoch : Nat := 0x700008
def twinPeerId : Nat := 0x700010
def twinPeerEid : Nat := 0x700020
def twinConfirm : Nat := 0x700024
def twinHbAge : Nat := 0x700028
def twinRxBad : Nat := 0x70002C
def twinDeclares : Nat := 0x700030
def twinTakeover : Nat := 0x700040
def twinRules : Nat := 0x700060
def twinRulesIn : Nat := 0x700064
def twinSrcip : Nat := 0x700068
def rstCause : Nat := 0x800000
def rstCount : Nat := 0x800004
def rstSwreset : Nat := 0x800008
def rstMode : Nat := 0x80000C
def rstModeReq : Nat := 0x800010
def rstCold : Nat := 0x800014
def rstWdog : Nat := 0x800018
def rstOpt : Nat := 0x80001C
def bistCtl : Nat := 0x800100
def bistRegion : Nat := 0x800104
def bistStat : Nat := 0x800108
def bistResult : Nat := 0x80010C
def bistVolt : Nat := 0x800110
def bistClock : Nat := 0x800114
def bistLaneFail : Nat := 0x800120
def telemBudget : Nat := 0xA00000
def telemCeilSel : Nat := 0xA00008
def telemCeil : Nat := 0xA0000C
def telemFettleSram : Nat := 0xA00010
def telemFettleLpddr : Nat := 0xA00014
def telemSensorSel : Nat := 0xA00020
def telemSensor : Nat := 0xA00024
def telemFlashWear : Nat := 0xA00028
def telemThermal : Nat := 0xA00030
def pmonHubSel : Nat := 0xA01000
def pmonHubLo : Nat := 0xA02000
def pmonHubHi : Nat := 0xA02004
def pmonLastRefLo : Nat := 0xA03000
def pmonLastRefHi : Nat := 0xA03004
end Reg

def regRows0 : List RegRow :=
  [⟨0x900000, 0, 1, 0x0, 0x0, 0x0, 0x0, 0x0, 0x0⟩,
   ⟨0x900004, 0, 1, 0x0, 0x0, 0x0, 0x0, 0x0, 0x0⟩,
   ⟨0x900010, 0, 1, 0x0, 0x0, 0x0, 0x0, 0xFFFFFFFF, 0x0⟩,
   ⟨0x900014, 0, 1, 0x0, 0x0, 0x0, 0x0, 0xFFFFFFFF, 0x0⟩,
   ⟨0x900018, 0, 1, 0x0, 0x0, 0x0, 0x0, 0xFFFFFFFF, 0x0⟩,
   ⟨0x90001C, 0, 1, 0x0, 0x0, 0x0, 0x0, 0xFFFFFFFF, 0x0⟩,
   ⟨0x900020, 0, 1, 0x0, 0x0, 0x0, 0x0, 0xFFFFFFFF, 0x0⟩,
   ⟨0x900024, 0, 1, 0x0, 0x0, 0x0, 0x0, 0xFFFFFFFF, 0x0⟩,
   ⟨0x900028, 0, 1, 0x0, 0x0, 0x0, 0x0, 0xFFFFFFFF, 0x0⟩,
   ⟨0x90002C, 0, 1, 0x0, 0x0, 0x0, 0x0, 0x0, 0x0⟩,
   ⟨0x900040, 0, 1, 0x0, 0x0, 0x0, 0x0, 0x0, 0x0⟩,
   ⟨0x900050, 0, 1, 0x3E, 0x0, 0x1, 0x0, 0x0, 0x0⟩,
   ⟨0x900054, 0, 1, 0xFFFFFFFF, 0x0, 0x0, 0x0, 0x0, 0x0⟩,
   ⟨0x900058, 0, 1, 0x1FFFF, 0x0, 0x0, 0x0, 0x0, 0x0⟩,
   ⟨0x90005C, 0, 1, 0xFFFFFFFF, 0x0, 0x0, 0x0, 0x0, 0x0⟩,
   ⟨0x900060, 0, 1, 0x7FF, 0x0, 0x0, 0x0, 0x0, 0x0⟩,
   ⟨0x900064, 0, 1, 0xFF, 0x0, 0x0, 0x0, 0x0, 0x0⟩,
   ⟨0x900068, 0, 1, 0x0, 0x6, 0x0, 0x0, 0x0, 0x0⟩,
   ⟨0x900070, 0, 1, 0x0, 0x0, 0x0, 0x0, 0x0, 0x0⟩,
   ⟨0x900080, 0, 1, 0x3FFF, 0x0, 0x0, 0x0, 0x0, 0x0⟩,
   ⟨0x900084, 0, 1, 0x0, 0x0, 0x0, 0x0, 0x0, 0x1FF⟩,
   ⟨0x9000A0, 4, 8, 0x0, 0x0, 0x0, 0x0, 0x0, 0x0⟩,
   ⟨0x900100, 4, 256, 0x0, 0x0, 0x0, 0x0, 0x0, 0x0⟩,
   ⟨0xB00000, 0, 1, 0x0, 0x0, 0x0, 0x0, 0x0, 0x1000100⟩]

def regRows1 : List RegRow :=
  [⟨0xB00010, 4, 8, 0x0, 0x0, 0x0, 0x0, 0x0, 0x0⟩,
   ⟨0xB00030, 0, 1, 0x0, 0x0, 0x0, 0x0, 0x0, 0x0⟩,
   ⟨0xB00034, 0, 1, 0x0, 0x0, 0x0, 0x0, 0x0, 0x0⟩,
   ⟨0xB00038, 0, 1, 0x0, 0x0, 0x0, 0x0, 0x0, 0x0⟩,
   ⟨0xB01000, 32, 256, 0x0, 0x0, 0x0, 0x0, 0x0, 0x0⟩,
   ⟨0xB01004, 32, 256, 0x0, 0x0, 0x0, 0x0, 0x0, 0x0⟩,
   ⟨0xB01008, 32, 256, 0x0, 0x0, 0x0, 0x0, 0x0, 0x0⟩,
   ⟨0xB0100C, 32, 256, 0xFFFF, 0x0, 0x0, 0x0, 0x0, 0x2710⟩,
   ⟨0xB01010, 32, 256, 0x0, 0x0, 0x0, 0x0, 0x0, 0x0⟩,
   ⟨0xB01014, 32, 256, 0x0, 0x0, 0x0, 0x0, 0x0, 0x0⟩,
   ⟨0xB01018, 32, 256, 0x0, 0x0, 0x0, 0x0, 0x0, 0x0⟩,
   ⟨0xB0101C, 32, 256, 0x0, 0x0, 0x0, 0x0, 0x0, 0x0⟩,
   ⟨0x100000, 256, 2, 0x0, 0x0, 0x0, 0x0, 0x0, 0x0⟩,
   ⟨0x100004, 256, 2, 0x0, 0x0, 0x0, 0x0, 0xFFFFFFFF, 0x0⟩,
   ⟨0x100008, 256, 2, 0x0, 0x0, 0x0, 0x0, 0xFFFFFFFF, 0x0⟩,
   ⟨0x10000C, 256, 2, 0x0, 0x0, 0x0, 0x0, 0xFFFFFFFF, 0x0⟩,
   ⟨0x100010, 256, 2, 0xFFFFFFFF, 0x0, 0x0, 0x0, 0x0, 0x0⟩,
   ⟨0x100014, 256, 2, 0xFFFFFFFF, 0x0, 0x0, 0x0, 0x0, 0x0⟩,
   ⟨0x100018, 256, 2, 0xFFFFFFFF, 0x0, 0x0, 0x0, 0x0, 0x0⟩,
   ⟨0x10001C, 256, 2, 0x1, 0x4, 0x2, 0x0, 0x0, 0x0⟩,
   ⟨0x100200, 0, 1, 0x6, 0x1, 0x0, 0x0, 0x0, 0x0⟩,
   ⟨0x101000, 256, 2, 0x1, 0x0, 0x0, 0x0, 0x0, 0x0⟩,
   ⟨0x101004, 256, 2, 0x0, 0x0, 0x0, 0x3, 0x0, 0x0⟩,
   ⟨0x101008, 256, 2, 0x0, 0x6, 0x0, 0x0, 0x0, 0x1⟩]

def regRows2 : List RegRow :=
  [⟨0x200000, 0, 1, 0x0, 0x0, 0x0, 0x3FF, 0x0, 0x0⟩,
   ⟨0x200004, 0, 1, 0x0, 0x0, 0x0, 0x3FF, 0x0, 0x0⟩,
   ⟨0x200008, 0, 1, 0x0, 0x0, 0x0, 0x0, 0x0, 0x0⟩,
   ⟨0x20000C, 0, 1, 0x0, 0x0, 0x0, 0x0, 0x0, 0x4000000⟩,
   ⟨0x200010, 0, 1, 0x0, 0x0, 0x0, 0x0, 0x0, 0x0⟩,
   ⟨0x200014, 0, 1, 0x0, 0x0, 0x0, 0x0, 0x0, 0x0⟩,
   ⟨0x200018, 0, 1, 0x0, 0x0, 0x0, 0x0, 0x0, 0x0⟩,
   ⟨0x200020, 0, 1, 0x0, 0x0, 0x0, 0x0, 0x0, 0x0⟩,
   ⟨0x200024, 0, 1, 0x0, 0x0, 0x0, 0x0, 0x0, 0x0⟩,
   ⟨0x200028, 0, 1, 0x0, 0x0, 0x0, 0x0, 0x0, 0x0⟩,
   ⟨0x20002C, 0, 1, 0x0, 0x0, 0x0, 0x0, 0xFFFFFFFF, 0x0⟩,
   ⟨0x200040, 0, 1, 0x0, 0x0, 0x0, 0x0, 0x0, 0x0⟩,
   ⟨0x200044, 0, 1, 0x0, 0x0, 0x0, 0x0, 0xFFFFFFFF, 0x0⟩,
   ⟨0x200048, 0, 1, 0xFFFFFFFF, 0x0, 0x0, 0x0, 0x0, 0x0⟩,
   ⟨0x20004C, 0, 1, 0x0, 0x0, 0x0, 0x0, 0x0, 0x0⟩,
   ⟨0x260000, 8, 4096, 0x0, 0x0, 0x0, 0x0, 0x0, 0x0⟩,
   ⟨0x260004, 8, 4096, 0x0, 0x0, 0x0, 0x0, 0x0, 0x0⟩,
   ⟨0xC00000, 0, 1, 0x0, 0x0, 0x0, 0xFFFFFFFF, 0x0, 0x0⟩,
   ⟨0xC00004, 0, 1, 0x0, 0x0, 0x0, 0xFFFFFFFF, 0x0, 0x0⟩,
   ⟨0xC00008, 0, 1, 0xFFFFF, 0x0, 0x0, 0x0, 0x0, 0x1388⟩,
   ⟨0xC0000C, 0, 1, 0xFFFFF, 0x0, 0x0, 0x0, 0x0, 0x1388⟩,
   ⟨0xC00010, 0, 1, 0xFFFF, 0x0, 0x0, 0x0, 0x0, 0x7D0⟩,
   ⟨0xC00014, 0, 1, 0x0, 0x0, 0x0, 0x0, 0x0, 0x0⟩,
   ⟨0xC00018, 0, 1, 0x0, 0x0, 0x0, 0x0, 0xFFFFFFFF, 0x0⟩]

def regRows3 : List RegRow :=
  [⟨0x300000, 0, 1, 0x0, 0x0, 0x0, 0x0, 0x0, 0x20000008⟩,
   ⟨0x300010, 4, 16, 0xFFFFFFFF, 0x0, 0x0, 0x0, 0x0, 0x0⟩,
   ⟨0x300050, 0, 1, 0x0, 0x0, 0x0, 0x1FFF, 0x0, 0x0⟩,
   ⟨0x300054, 0, 1, 0x0, 0x0, 0x0, 0x1FFF, 0x0, 0x0⟩,
   ⟨0x300060, 0, 1, 0x0, 0x0, 0x0, 0x0, 0xFFFFFFFF, 0x0⟩,
   ⟨0x300064, 0, 1, 0x0, 0x0, 0x0, 0x0, 0xFFFFFFFF, 0x0⟩,
   ⟨0x300068, 0, 1, 0x0, 0x0, 0x0, 0x0, 0xFFFFFFFF, 0x0⟩,
   ⟨0x30006C, 0, 1, 0x0, 0x0, 0x0, 0x0, 0xFFFFFFFF, 0x0⟩,
   ⟨0x300070, 0, 1, 0x0, 0x0, 0x0, 0x0, 0xFFFFFFFF, 0x0⟩,
   ⟨0x300074, 0, 1, 0x0, 0x0, 0x0, 0x0, 0xFFFFFFFF, 0x0⟩,
   ⟨0x300080, 0, 1, 0x0, 0x0, 0x0, 0x0, 0x0, 0x0⟩,
   ⟨0x300090, 0, 1, 0xFFFF, 0x0, 0x0, 0x0, 0x0, 0x0⟩,
   ⟨0x300094, 0, 1, 0x0, 0x0, 0x0, 0x0, 0x0, 0x1FF⟩,
   ⟨0x300098, 0, 1, 0x0, 0x0, 0x0, 0x0, 0x0, 0x0⟩,
   ⟨0x30009C, 0, 1, 0x0, 0x0, 0x0, 0x0, 0x0, 0x0⟩,
   ⟨0x300100, 16, 256, 0x1FF, 0x0, 0x0, 0x0, 0x0, 0x0⟩,
   ⟨0x300104, 16, 256, 0xFFFFFFFF, 0x0, 0x0, 0x0, 0x0, 0x0⟩,
   ⟨0x300108, 16, 256, 0xFFFF, 0x0, 0x0, 0x0, 0x0, 0x0⟩,
   ⟨0x302000, 256, 8, 0xF, 0x0, 0x0, 0x0, 0x0, 0x0⟩,
   ⟨0x302004, 256, 8, 0x0, 0x0, 0x0, 0x0, 0x0, 0x0⟩,
   ⟨0x302008, 256, 8, 0xFFFFFFFF, 0x0, 0x0, 0x0, 0x0, 0x0⟩,
   ⟨0x30200C, 256, 8, 0xFFFF, 0x0, 0x0, 0x0, 0x0, 0x0⟩,
   ⟨0x302010, 256, 8, 0x0, 0x0, 0x0, 0x0, 0xFFFFFFFF, 0x0⟩,
   ⟨0x302014, 256, 8, 0x0, 0x0, 0x0, 0x0, 0xFFFFFFFF, 0x0⟩]

def regRows4 : List RegRow :=
  [⟨0x302018, 256, 8, 0x0, 0x0, 0x0, 0x0, 0xFFFFFFFF, 0x0⟩,
   ⟨0x30201C, 256, 8, 0x0, 0x0, 0x0, 0x0, 0xFFFFFFFF, 0x0⟩,
   ⟨0x302020, 256, 8, 0x0, 0x0, 0x0, 0x0, 0xFFFFFFFF, 0x0⟩,
   ⟨0x302024, 256, 8, 0x0, 0x0, 0x0, 0x0, 0xFFFFFFFF, 0x0⟩,
   ⟨0x302028, 256, 8, 0x0, 0x0, 0x0, 0x0, 0xFFFFFFFF, 0x0⟩,
   ⟨0x30202C, 256, 8, 0x0, 0x0, 0x0, 0x0, 0xFFFFFFFF, 0x0⟩,
   ⟨0x400000, 0, 1, 0x0, 0x0, 0x0, 0x0, 0x0, 0x40000⟩,
   ⟨0x400004, 0, 1, 0x0, 0x0, 0x0, 0x0, 0x0, 0x100000⟩,
   ⟨0x400008, 0, 1, 0xFFFF, 0x0, 0x0, 0x0, 0x0, 0x4A38⟩,
   ⟨0x40000C, 0, 1, 0x0, 0x0, 0x0, 0x0, 0x0, 0x0⟩,
   ⟨0x400010, 0, 1, 0x0, 0x0, 0x0, 0x0, 0x0, 0x0⟩,
   ⟨0x400040, 0, 1, 0x3FFFF, 0x0, 0x0, 0x0, 0x0, 0x0⟩,
   ⟨0x400044, 0, 1, 0x0, 0x0, 0x0, 0x0, 0x0, 0xFF8⟩,
   ⟨0x400048, 0, 1, 0x0, 0x0, 0x0, 0x0, 0x0, 0x0⟩,
   ⟨0x40004C, 0, 1, 0x0, 0x0, 0x0, 0x0, 0x0, 0x0⟩,
   ⟨0x400050, 0, 1, 0x0, 0x0, 0x0, 0x0, 0x0, 0x0⟩,
   ⟨0x400054, 0, 1, 0x0, 0x0, 0x0, 0x0, 0x0, 0x0⟩,
   ⟨0x400058, 0, 1, 0x0, 0x0, 0x0, 0x0, 0x0, 0x0⟩,
   ⟨0x400080, 0, 1, 0x0, 0x0, 0x0, 0x0, 0xFFFFFFFF, 0x0⟩,
   ⟨0x400084, 0, 1, 0x0, 0x0, 0x0, 0x0, 0xFFFFFFFF, 0x0⟩,
   ⟨0x400088, 0, 1, 0x0, 0x0, 0x0, 0x0, 0xFFFFFFFF, 0x0⟩,
   ⟨0x40008C, 0, 1, 0x0, 0x0, 0x0, 0x0, 0xFFFFFFFF, 0x0⟩,
   ⟨0x400090, 0, 1, 0x0, 0x0, 0x0, 0x0, 0xFFFFFFFF, 0x0⟩,
   ⟨0x400094, 0, 1, 0x0, 0x0, 0x0, 0x0, 0xFFFFFFFF, 0x0⟩]

def regRows5 : List RegRow :=
  [⟨0x400098, 0, 1, 0x0, 0x0, 0x0, 0x0, 0xFFFFFFFF, 0x0⟩,
   ⟨0x40009C, 0, 1, 0x0, 0x0, 0x0, 0x0, 0xFFFFFFFF, 0x0⟩,
   ⟨0x400100, 4, 64, 0xFFFFFFFF, 0x0, 0x0, 0x0, 0x0, 0x0⟩,
   ⟨0x500000, 0, 1, 0x0, 0x0, 0x0, 0x0, 0x0, 0x488⟩,
   ⟨0x500010, 0, 1, 0x0, 0x0, 0x0, 0x0, 0xFFFFFFFF, 0x0⟩,
   ⟨0x500014, 0, 1, 0x0, 0x0, 0x0, 0x0, 0xFFFFFFFF, 0x0⟩,
   ⟨0x501000, 256, 8, 0x7, 0x0, 0x0, 0x0, 0x0, 0x0⟩,
   ⟨0x501004, 256, 8, 0x0, 0x44, 0x0, 0x0, 0x0, 0x0⟩,
   ⟨0x501008, 256, 8, 0x0, 0x0, 0x0, 0x0, 0x0, 0x0⟩,
   ⟨0x50100C, 256, 8, 0x0, 0x0, 0x0, 0x0, 0x0, 0x0⟩,
   ⟨0x501010, 256, 8, 0x0, 0x0, 0x0, 0x0, 0xFFFFFFFF, 0x0⟩,
   ⟨0x501014, 256, 8, 0x0, 0x0, 0x0, 0x0, 0xFFFFFFFF, 0x0⟩,
   ⟨0x501018, 256, 8, 0x0, 0x0, 0x0, 0x0, 0x0, 0x0⟩,
   ⟨0x0, 0, 1, 0x0, 0x0, 0x0, 0x0, 0x0, 0xA101F3C⟩,
   ⟨0x4, 0, 1, 0x0, 0x0, 0x0, 0x0, 0x0, 0xA1⟩,
   ⟨0x10, 4, 4, 0x0, 0x0, 0x0, 0x0, 0x0, 0x0⟩,
   ⟨0x20, 4, 8, 0x0, 0x0, 0x0, 0x0, 0x0, 0x0⟩,
   ⟨0x40, 0, 1, 0x0, 0x0, 0x0, 0x0, 0x0, 0x0⟩,
   ⟨0x1000, 4, 512, 0x0, 0x0, 0x0, 0x0, 0x0, 0x0⟩,
   ⟨0x2000, 0, 1, 0x0, 0x0, 0x0, 0xFFFFFF, 0x0, 0x0⟩,
   ⟨0x2004, 0, 1, 0x0, 0x40, 0x0, 0x0, 0x0, 0x0⟩,
   ⟨0x2008, 0, 1, 0x0, 0x0, 0x0, 0x0, 0x0, 0x0⟩,
   ⟨0x200C, 0, 1, 0x0, 0x0, 0x0, 0xFFFF03, 0x0, 0x0⟩,
   ⟨0x2010, 0, 1, 0x0, 0x0, 0x0, 0xFFFF00, 0x0, 0x0⟩]

def regRows6 : List RegRow :=
  [⟨0x2014, 0, 1, 0xFFFFFFFF, 0x0, 0x0, 0x0, 0x0, 0x0⟩,
   ⟨0x2018, 0, 1, 0x0, 0x0, 0x0, 0x0, 0x0, 0x0⟩,
   ⟨0x201C, 0, 1, 0x0, 0x0, 0x0, 0x0, 0x0, 0x0⟩,
   ⟨0x2020, 0, 1, 0xFFFFF, 0x0, 0x0, 0x0, 0x0, 0x1388⟩,
   ⟨0x600000, 0, 1, 0x0, 0x0, 0x0, 0x0, 0x0, 0x0⟩,
   ⟨0x600004, 0, 1, 0xFFF, 0x0, 0x0, 0x0, 0x0, 0x0⟩,
   ⟨0x600008, 0, 1, 0x0, 0x0, 0x0, 0x0, 0x0, 0x0⟩,
   ⟨0x60000C, 0, 1, 0x0, 0x0, 0x0, 0x0, 0x0, 0x0⟩,
   ⟨0x600010, 0, 1, 0x3, 0x0, 0x0, 0x0, 0x0, 0x0⟩,
   ⟨0x600014, 0, 1, 0x0, 0x0, 0x0, 0x0, 0x0, 0x0⟩,
   ⟨0x600018, 0, 1, 0x0, 0x0, 0x0, 0x0, 0xFFFFFFFF, 0x0⟩,
   ⟨0x600020, 0, 1, 0x1FF, 0x0, 0x0, 0x0, 0x0, 0x0⟩,
   ⟨0x600024, 0, 1, 0x0, 0x0, 0x0, 0x0, 0x0, 0xFF80⟩,
   ⟨0x600028, 4, 3, 0x0, 0x0, 0x0, 0x0, 0x0, 0x0⟩,
   ⟨0x600040, 0, 1, 0x0, 0x0, 0x0, 0x0, 0x0, 0x0⟩,
   ⟨0x600044, 0, 1, 0x0, 0x0, 0x0, 0x0, 0xFFFFFFFF, 0x0⟩,
   ⟨0x600048, 0, 1, 0x0, 0x0, 0x0, 0x0, 0xFFFFFFFF, 0x0⟩,
   ⟨0x600100, 4, 128, 0x0, 0x0, 0x0, 0x0, 0x0, 0x0⟩,
   ⟨0x600300, 0, 1, 0x0, 0x0, 0x0, 0x0, 0x0, 0x0⟩,
   ⟨0x600400, 4, 8, 0x0, 0x0, 0x0, 0x0, 0x0, 0x0⟩,
   ⟨0x600420, 0, 1, 0x0, 0x0, 0x0, 0x0, 0x0, 0x0⟩,
   ⟨0x700000, 0, 1, 0x0, 0x0, 0x0, 0x0, 0x0, 0x0⟩,
   ⟨0x700004, 0, 1, 0x0, 0x0, 0x0, 0x0, 0x0, 0x0⟩,
   ⟨0x700008, 0, 1, 0x0, 0x0, 0x0, 0x0, 0x0, 0x0⟩]

def regRows7 : List RegRow :=
  [⟨0x700010, 4, 4, 0x0, 0x0, 0x0, 0x0, 0x0, 0x0⟩,
   ⟨0x700020, 0, 1, 0xFF, 0x0, 0x0, 0x0, 0x0, 0x0⟩,
   ⟨0x700024, 0, 1, 0x0, 0x0, 0x0, 0xFFFFFFFF, 0x0, 0x0⟩,
   ⟨0x700028, 0, 1, 0x0, 0x0, 0x0, 0x0, 0x0, 0x0⟩,
   ⟨0x70002C, 0, 1, 0x0, 0x0, 0x0, 0x0, 0xFFFFFFFF, 0x0⟩,
   ⟨0x700030, 0, 1, 0x0, 0x0, 0x0, 0x0, 0x0, 0x0⟩,
   ⟨0x700040, 4, 8, 0xF, 0x0, 0x0, 0x0, 0x0, 0x0⟩,
   ⟨0x700060, 0, 1, 0x3FFF1FFF, 0x0, 0x0, 0x0, 0x0, 0x0⟩,
   ⟨0x700064, 0, 1, 0x3FFF1FFF, 0x0, 0x0, 0x0, 0x0, 0x0⟩,
   ⟨0x700068, 0, 1, 0xFFFFFFFF, 0x0, 0x0, 0x0, 0x0, 0x0⟩,
   ⟨0x800000, 0, 1, 0x0, 0xFF, 0x0, 0x0, 0x0, 0x0⟩,
   ⟨0x800004, 0, 1, 0x0, 0x0, 0x0, 0x0, 0x0, 0x0⟩,
   ⟨0x800008, 0, 1, 0x0, 0x0, 0x0, 0x3FFFF, 0x0, 0x0⟩,
   ⟨0x80000C, 0, 1, 0x0, 0x8, 0x0, 0x0, 0x0, 0x1⟩,
   ⟨0x800010, 0, 1, 0x0, 0x0, 0x0, 0x3, 0x0, 0x0⟩,
   ⟨0x800014, 0, 1, 0x0, 0x0, 0x0, 0x0, 0x0, 0x0⟩,
   ⟨0x800018, 0, 1, 0x3FFF, 0x0, 0x0, 0x0, 0x0, 0x7D0⟩,
   ⟨0x80001C, 0, 1, 0x0, 0x0, 0x0, 0x0, 0x0, 0x0⟩,
   ⟨0x800100, 0, 1, 0x6, 0x0, 0x9, 0x0, 0x0, 0x0⟩,
   ⟨0x800104, 0, 1, 0x3FFF, 0x0, 0x0, 0x0, 0x0, 0x0⟩,
   ⟨0x800108, 0, 1, 0x0, 0x2, 0x0, 0x0, 0x0, 0x0⟩,
   ⟨0x80010C, 0, 1, 0x0, 0x0, 0x0, 0x0, 0x0, 0x0⟩,
   ⟨0x800110, 0, 1, 0x0, 0x0, 0x0, 0x0, 0x0, 0x0⟩,
   ⟨0x800114, 0, 1, 0x0, 0x0, 0x0, 0x0, 0x0, 0x0⟩]

def regRows8 : List RegRow :=
  [⟨0x800120, 4, 5, 0x0, 0x0, 0x0, 0x0, 0x0, 0x0⟩,
   ⟨0xA00000, 0, 1, 0xFFF, 0x0, 0x0, 0x0, 0x0, 0xA28⟩,
   ⟨0xA00008, 0, 1, 0xFFF, 0x0, 0x0, 0x0, 0x0, 0x0⟩,
   ⟨0xA0000C, 0, 1, 0xFF, 0x0, 0x0, 0x0, 0x0, 0x28A0A0⟩,
   ⟨0xA00010, 0, 1, 0x0, 0x0, 0x0, 0x0, 0x0, 0x0⟩,
   ⟨0xA00014, 0, 1, 0x0, 0x0, 0x0, 0x0, 0x0, 0x0⟩,
   ⟨0xA00020, 0, 1, 0xFF, 0x0, 0x0, 0x0, 0x0, 0x0⟩,
   ⟨0xA00024, 0, 1, 0x0, 0x0, 0x0, 0x0, 0x0, 0x0⟩,
   ⟨0xA00028, 0, 1, 0x0, 0x0, 0x0, 0x0, 0x0, 0x0⟩,
   ⟨0xA00030, 0, 1, 0x0, 0x0, 0x0, 0x0, 0x0, 0x0⟩,
   ⟨0xA01000, 4, 64, 0xFFFF, 0x0, 0x10000, 0x0, 0x0, 0x0⟩,
   ⟨0xA02000, 8, 64, 0x0, 0x0, 0x0, 0x0, 0x0, 0x0⟩,
   ⟨0xA02004, 8, 64, 0x0, 0x0, 0x0, 0x0, 0x0, 0x0⟩,
   ⟨0xA03000, 0, 1, 0x0, 0x0, 0x0, 0x0, 0x0, 0x0⟩,
   ⟨0xA03004, 0, 1, 0x0, 0x0, 0x0, 0x0, 0x0, 0x0⟩]

def regRows : List RegRow := regRows0 ++ regRows1 ++ regRows2 ++ regRows3 ++ regRows4 ++ regRows5 ++ regRows6 ++ regRows7 ++ regRows8

end Sys2Proof.Machine
end

