-- ==== Sys2Proof/Machine/Events.lean ====
section
/-!
DEFINITION. Completion entries, events, interrupts, notifications and the log ring (R299–R303, R318–R335, R339).
-/

namespace Sys2Proof.Machine

/-! ### Free values and reference counters -/

/-- A fresh free value. -/
def State.free (s : State) : BitVec 64 := Config.freeValue s.fresh
def State.took (s : State) : State := { s with fresh := s.fresh + 1 }

/-- The reading of a reference counter (R15): its last reading advanced by a free amount. Die 8 is the hub. -/
def State.refNow (s : State) (d : Nat) : BitVec 64 := Tab.get 0 s.refs d + s.free
def State.tick (s : State) (d : Nat) : State := { s with refs := Tab.put 0 s.refs d (s.refNow d), fresh := s.fresh + 1 }

/-! ### Endpoints, ladles -/

def State.ep (s : State) (e : Ep) : Endpoint := if e = 0 then s.he0 else s.he1
def State.setEp (s : State) (e : Ep) (v : Endpoint) : State := if e = 0 then { s with he0 := v } else { s with he1 := v }
def State.live (s : State) (e : Ep) : Live := if e = 0 then s.live0 else s.live1
def State.setLive (s : State) (e : Ep) (v : Live) : State :=
  if e = 0 then { s with live0 := v } else { s with live1 := v }

/-- The generation with which every ladle starts (R497). -/
def State.genStart (s : State) : Word := BitVec.ofNat 32 (s.fw.start.toNat * 65536)

def State.ladle (s : State) : LadleRef → Ladle
  | .admin => s.fw.admin
  | .flask f n => Tab.get (Ladle.off s.genStart) (s.flask f).ladles n.toNat

def State.setLadle (s : State) (l : LadleRef) (v : Ladle) : State :=
  match l with
  | .admin => { s with fw := { s.fw with admin := v } }
  | .flask f n =>
    let fl := s.flask f
    s.setFlask f { fl with ladles := Tab.put (Ladle.off s.genStart) fl.ladles n.toNat v }

def Ladle.sqSize (l : Ladle) : Nat := 2 ^ l.sqLog2
def Ladle.cqSize (l : Ladle) : Nat := 2 ^ l.cqLog2
/-- R323. -/
def Ladle.cqFull (l : Ladle) : Bool := (l.cqTail + 1) % l.cqSize == l.cqHead

/-- The owner's endpoint, if an endpoint owns the module. -/
def State.ownerEp (s : State) : Option Ep :=
  if s.own.valid then match s.own.master with
    | .he0 => some 0
    | .he1 => some 1
    | _ => none
  else none

/-! ### Interrupts and the owner's notification -/

/-- Whether an outbound write of the domain on the endpoint has still to be transmitted (R299). -/
def State.outPending (s : State) (e : Ep) (dom : Domain) : Bool :=
  (s.fab.reqs.any fun r => space r.addr.toNat == 5 && (r.addr.toNat / 2 ^ 43 % 2 == e.toNat) && r.dom == dom &&
    (match r.op with | .store .. => true | _ => false)) ||
  ((s.ep e).queue.any fun r => r.dom == dom && r.data.isSome)

/-- Whether a message of the entry may leave the endpoint now (R285, R299, R300, R303, R341). -/
def State.msixMay (s : State) (e : Ep) (entry : Nat) : Bool :=
  let x := s.ep e
  let m := Tab.get MsixEntry.reset x.msix entry
  let f := s.flask (BitVec.ofNat 8 (entry / 8))
  x.msixEn && !x.fnMask && !m.masked && x.bme && !x.d3 && !x.flr && decide (x.speed ≠ 0) && decide (f.st ≠ .held) &&
    !s.outPending e (BitVec.ofNat 9 (entry / 8))

/-- One event on a vector: a message, or the pending bit (R300). -/
def State.raiseMsix (s : State) (e : Ep) (entry : Nat) : State :=
  let x := s.ep e
  let m := Tab.get MsixEntry.reset x.msix entry
  if s.msixMay e entry then
    (s.emit (.msix e m.addr m.data)).setEp e { x with msix := Tab.put MsixEntry.reset x.msix entry { m with pending := false } }
  else s.setEp e { x with msix := Tab.put MsixEntry.reset x.msix entry { m with pending := true } }

/-- Pending messages that may leave now leave, one for each entry. -/
def State.flushMsix (s : State) (e : Ep) : State :=
  (s.ep e).msix.foldl (fun s x =>
    if x.2.pending && s.msixMay e x.1 then
      let ep := s.ep e
      (s.emit (.msix e x.2.addr x.2.data)).setEp e
        { ep with msix := Tab.put MsixEntry.reset ep.msix x.1 { x.2 with pending := false } }
    else s) s

/-- The notification write leaves the owner's endpoint (R301). -/
def State.sendNote (s : State) (e : Ep) : State :=
  let off := e.toNat * 0x100
  let a := (s.reg (Reg.pciHe0OnoteAddrLo + off)).toNat + (s.reg (Reg.pciHe0OnoteAddrHi + off)).toNat * 2 ^ 32
  let s := s.setEp e { s.ep e with noteArmed := false, noteHeld := false }
  s.emit (.hostWrite e (BitVec.ofNat 64 a) (Word.bytes (s.reg (Reg.pciHe0OnoteData + off))) false false)

/-- An entry has been written for the owner (R301, R302). -/
def State.notifyOwner (s : State) : State :=
  match s.ownerEp with
  | none => s
  | some e =>
    let x := s.ep e
    if !x.noteEn then s
    else if !x.noteArmed then s.setEp e { x with missed := true }
    else if x.bme && !x.d3 && !x.flr && decide (x.speed ≠ 0) && !s.outPending e 0x100 then s.sendNote e
    else s.setEp e { x with noteHeld := true }

/-! ### The `MEM` error log (R237) -/

/-- `SOURCE` of a log entry (R237). -/
inductive Src where
  | core | engine | move | hub | host | fettle | vote
  deriving DecidableEq, Repr

def Src.code : Src → Nat
  | .core => 0
  | .engine => 1
  | .move => 2
  | .hub => 3
  | .host => 4
  | .fettle => 5
  | .vote => 6

/-- The owner of an address: a flask, or 0x100; the stores of firmware processors are firmware's. -/
def State.ownerAt (s : State) (fa : Nat) : Domain :=
  if aboveSpace ≤ fa then 0x100
  else if space fa = 2 then s.mem.ownerOf (faGranule fa) else s.mem.clusterOwnerOf (faCluster fa)

/-- The cluster whose store holds an address, if one does. -/
def storeCluster (fa : Nat) : Option Nat :=
  if aboveSpace + 2 ^ 40 ≤ fa then none
  else if aboveSpace ≤ fa then some ((fa - aboveSpace) / 2 ^ 20)
  else if space fa = 2 then none
  else some (faCluster fa).toNat

/-- The die that holds an address; the hub is 8. -/
def faDie (fa : Nat) : Nat :=
  match storeCluster fa with
  | some cl => cl / 512
  | none => if aboveSpace ≤ fa then 8 else bits fa 41 39

/-- The address that a log entry holds; the stores of firmware processors have none, and theirs is a free value. -/
def State.logAddr (s : State) (fa : Nat) : Nat := if aboveSpace ≤ fa then s.free.toNat / 2 ^ 16 else fa

/-- The four words of a log entry (R237); the syndrome is a free value in the bits that the memory's code uses. -/
def logWords (s : State) (memory : Nat) (ue poison : Bool) (src : Src) (fa : Nat) : List Byte :=
  let w0 := memory + (if ue then 8 else 0) + (if poison then 16 else 0) + src.code * 32 + (s.ownerAt fa).toNat * 256
  let syn := s.free.toNat % 2 ^ 16 &&& (if memory < 2 then 0x007F else 0xFF0F)
  leBytes 4 w0 ++ leBytes 6 (s.logAddr fa) ++ leBytes 2 syn ++ leBytes 4 (s.took.refNow (faDie fa)).toNat

/-- An entry of the `MEM` error log, written at `NEXT` (R237). -/
def State.logMem (s : State) (memory : Nat) (ue poison : Bool) (src : Src) (fa : Nat) : State :=
  let n := (s.reg Reg.memLogHead).toNat % 64
  let bs := logWords s memory ue poison src fa
  let s := s.took.tick (faDie fa)
  { s with regs := Tab.put 0 (putWords' s.regs (Reg.memLog + 16 * n) bs 4) Reg.memLogHead (BitVec.ofNat 32 ((n + 1) % 64)) }
where
  /-- Words put at successive register offsets. -/
  putWords' (t : Tab Word) : Nat → List Byte → Nat → Tab Word
    | _, _, 0 => t
    | o, bs, k + 1 => putWords' (Tab.put 0 t o (BitVec.ofNat 32 (leNat (bs.take 4)))) (o + 4) (bs.drop 4) k

/-! ### Triplicated words (R225, R235) -/

/-- A triplicated word's index (R235). -/
def tripIndex : TripWord → Nat
  | .fuseShadow => 0
  | .ownerRecord => 1
  | .pairEpoch => 2
  | .mouldRoot f => 256 + f.toNat
  | .keySlot i => 512 + i.toNat

/-- A flask's for its mould root, the owner's for the other words. -/
def tripDom : TripWord → Domain
  | .mouldRoot f => BitVec.ofNat 9 f.toNat
  | _ => 0x100

/-- A write of all three copies. A flip that waits for it inverts bits of one: its own code corrects one bit, and more make the
copy disagree (R219, R225, R235). -/
def Mem.writeTrip (m : Mem) (w : Nat) : Mem :=
  let m := { m with trip := m.trip.filter fun x => x.1 != w }
  match m.flip with
  | none => m
  | some x =>
    if x.target = 3 ∧ x.addr = w then
      { m with flip := none, flipDone := true
               trip := if 2 ≤ (List.range 43).countP x.mask.testBit ∧ x.copy.toNat < 3 then m.trip ++ [(w, x.copy)] else m.trip }
    else m

def State.writeTrip (s : State) (w : TripWord) : State := { s with mem := s.mem.writeTrip (tripIndex w) }

/-- An entry of the `MEM` log for a vote: the word is in no fabric store, so its address and syndrome are free values (R237). -/
def State.logVote (s : State) (ue : Bool) (d : Domain) : State :=
  let n := (s.reg Reg.memLogHead).toNat % 64
  let bs := leBytes 4 (3 + (if ue then 8 else 0) + Src.vote.code * 32 + d.toNat * 256) ++ leBytes 6 s.free.toNat ++
    leBytes 2 (s.took.free.toNat % 128) ++ leBytes 4 (s.took.took.refNow 8).toNat
  let s := s.took.took.tick 8
  let regs := State.logMem.putWords' s.regs (Reg.memLog + 16 * n) bs 4
  { s with regs := Tab.put 0 regs Reg.memLogHead (BitVec.ofNat 32 ((n + 1) % 64)) }

/-- The third copy of a word is rewritten (R225). -/
def State.repairTrip (s : State) (w : TripWord) : State :=
  { s with mem := { s.mem with trip := s.mem.trip.filter fun x => x.1 != tripIndex w } }

/-- A read of a triplicated word votes: a copy that disagrees is rewritten, counted and logged (R225). -/
def State.readTrip (s : State) (w : TripWord) : State :=
  if s.mem.trip.any fun x => x.1 == tripIndex w then ((s.repairTrip w).count Reg.memVoteFix).logVote false (tripDom w) else s

def State.readTrips (s : State) (ws : List TripWord) : State := ws.foldl State.readTrip s

/-- A whole-line write replaces a codeword: an error or poison that it held is logged only (R222). -/
def State.replaceCw (s : State) (a : Nat) (src : Src) : State :=
  match s.mem.cw a with
  | .uncorrectable => (s.count Reg.memUeLpddr).logMem 2 true false src a
  | .poisoned => s.logMem 2 true true src a
  | _ => s

/-! ### What scorers hear of a write (R242, R246, R255) -/

def ScorRec.d (r : ScorRec) : Nat := r.headDim.toNat

/-- A fill is asked for by a write of n bytes that covers the last K-scale byte of a block area (R238, R242). -/
def State.noteFill (s : State) (f : FlaskId) (r : ScorRec) (a n : Nat) : State :=
  let k := (a + n - 1 - r.kvBase.toNat) / (272 * r.d)
  let at' := r.kvBase.toNat + k * (272 * r.d) + 264 * r.d - 1
  if r.mode = 0 ∧ r.kvBase.toNat < a + n ∧ a ≤ at' ∧ at' < a + n ∧ k < r.maxBlocks.toNat * r.heads.toNat then
    { s with fab := { s.fab with nextId := s.fab.nextId + 1 }
             fills := s.fills ++ [⟨f, r, k % r.heads.toNat, k / r.heads.toNat, s.fab.nextId⟩] }
  else s

/-- A request is asked for by a whole-line write to a slot of the control page. Writing a busy slot is unpredictable within the
flask (R246): whether it asks again is a free choice (DESIGN CHOICE, log entry 77). -/
def State.noteAsk (s : State) (f : FlaskId) (r : ScorRec) (a : Nat) (bs : List Byte) : State :=
  let slot : BitVec 6 := BitVec.ofNat 6 ((a - r.sumBase.toNat) / 64)
  let ask (s : State) : State :=
    { s with fab := { s.fab with nextId := s.fab.nextId + 1 }, asks := s.asks ++ [⟨f, r, slot, bs, s.fab.nextId⟩] }
  if bs.length ≠ 64 ∨ a < r.sumBase.toNat ∨ r.sumBase.toNat + 4096 ≤ a then s
  else if (s.scor.any fun q => q.flask == f && q.region == r.region && q.slot == slot) ||
      s.asks.any fun q => q.flask == f && q.scor.region == r.region && q.slot == slot then
    (if s.free.getLsbD 0 then ask s.took else s.took)
  else ask s

/-- A write within a line of LPDDR has been performed at its home. -/
def State.noteWrite (s : State) (fa : Nat) (bs : List Byte) : State :=
  let o := s.mem.ownerOf (faGranule fa)
  let f : FlaskId := BitVec.ofNat 8 o.toNat
  let fl := s.flask f
  let scors := match fl.mould with
    | none => []
    | some m => m.scors
  let a := 2 * 2 ^ 44 + fl.granules.idxOf (faGranule fa) * 2 ^ 28 + fa % 2 ^ 28
  if 256 ≤ o.toNat ∨ fl.st = .resetting ∨ fl.st = .destroying then s
  else scors.foldl (fun s r => (s.noteFill f r a bs.length).noteAsk f r a bs) s

/-- A whole line of LPDDR is written (R211, R222). -/
def State.wholeLine (s : State) (fa : Nat) (bs : List Byte) (src : Src) : State :=
  let l := fa / 64 * 64
  let s := (s.replaceCw l src).replaceCw (l + 32) src
  { s with mem := s.mem.setLine fa bs }.noteWrite fa bs

/-! ### Keys (R232, R444) -/

/-- Key use is suspended while a breakout holds. -/
def State.breakout (s : State) : Bool := (s.reg Reg.secBoStat).getLsbD 2

/-- An access to a granule of the flask waits: key use is suspended, and the key is still loaded (R232). -/
def State.keyWaits (s : State) (f : FlaskId) : Bool := s.breakout && (s.flask f).keyLoaded

/-- The entries of a ladle wait with its flask's memory. -/
def State.ladleWaits (s : State) : LadleRef → Bool
  | .admin => false
  | .flask f _ => s.keyWaits f

/-! ### Entries -/

/-- The 64 bytes of an entry (R322). -/
def Entry.bytes (e : Entry) (phase : Bool) (sqHead : Nat) : List Byte :=
  (leBytes 4 e.tag.toNat ++ leBytes 2 e.status.toNat ++
    leBytes 2 ((if phase then 1 else 0) + (if e.event then 2 else 0)) ++ leBytes 4 e.detail.toNat ++ leBytes 2 sqHead ++
    leBytes 2 e.code.toNat ++ e.result ++ List.replicate 48 0).take 64

/-- Words put one after another in a table by word. -/
def putWords (t : Tab Word) : Nat → List Byte → Nat → Tab Word
  | _, _, 0 => t
  | k, bs, n + 1 => putWords (Tab.put 0 t k (BitVec.ofNat 32 (leNat (bs.take 4)))) (k + 1) (bs.drop 4) n

/-- The hub's write of bytes at a flask's address in LPDDR, cut by lines; a part outside the flask, of a flask with no key
loaded, or of less than a line that holds an error, is not written (R16, R211, R222, R232). -/
def State.writeLp (s : State) (dom : Domain) (a : Nat) (bs : List Byte) : State :=
  (split 64 bs.length a bs).foldl (fun s x =>
    match translate s dom x.1 with
    | none => s
    | some fa =>
      let l := fa / 64 * 64
      let whole := decide (x.2.length = 64)
      let bad (a : Nat) : Bool := decide (s.mem.cw a = .uncorrectable) || decide (s.mem.cw a = .poisoned)
      if !(faValid fa && homeOk s dom fa) || (!whole && (bad l || bad (l + 32))) then s
      else if whole then s.wholeLine fa x.2 .hub
      else { s with mem := s.mem.setLine fa x.2 }.noteWrite fa x.2) s

/-- A ladle's vector is raised after an entry has been written (R330). -/
def State.signal (s : State) (l : LadleRef) (quiet : Bool) : State :=
  match l with
  | .admin => if quiet then s else s.notifyOwner
  | .flask f _ =>
    let d := s.ladle l
    let fl := s.flask f
    if quiet ∨ d.raised ∨ d.vector.toNat ≥ fl.vectors ∨ fl.host.toNat ≥ 2 then s
    else (s.setLadle l { d with raised := true }).raiseMsix (BitVec.ofNat 1 fl.host.toNat) (8 * f.toNat + d.vector.toNat)

/-- An entry is written at the ladle's tail (R322, R323). -/
def State.putEntry (s : State) (l : LadleRef) (e : Entry) : State :=
  let d := s.ladle l
  let bs := e.bytes d.phase d.sqHead
  let t := (d.cqTail + 1) % d.cqSize
  let s' := match l with
    | .admin => { s with fw := { s.fw with admCq := putWords s.fw.admCq (d.cqTail * 16) bs 16 } }
    | .flask f _ => s.writeLp (BitVec.ofNat 9 f.toNat) (d.cqBase.toNat + 64 * d.cqTail) bs
  (s'.setLadle l { s'.ladle l with cqTail := t, phase := if t = 0 then !d.phase else d.phase }).signal l e.quiet

/-! ### The log ring -/

/-- A record of the log ring (R334): code, source, severity, tap, flask, die, hub, cluster; `data` is its 16 bytes. -/
def State.logRecord (s : State) (code : BitVec 16) (source sev : Nat) (tap : Bool) (flask : Domain) (cl : Option ClusterId)
    (data : List Byte) : State :=
  let die := match cl with
    | none => 8
    | some c => c.toNat / 512
  let w0 := code.toNat + source * 2 ^ 16 + sev * 2 ^ 20 + (if tap then 2 ^ 22 else 0)
  let w1 := flask.toNat + (match cl with
    | none => 2 ^ 12
    | some c => die * 2 ^ 9 + c.toNat % 512 * 2 ^ 13)
  let bs := leBytes 4 w0 ++ leBytes 4 w1 ++ leBytes 8 (s.refNow die).toNat ++ (data ++ List.replicate 16 0).take 16
  let s := s.tick die
  let n := (s.fw.logNext + 1) % 4096
  { s with fw := { s.fw with log := putWords s.fw.log (s.fw.logNext * 8) bs 8, logNext := n
                             logWraps := if n = 0 then (s.fw.logWraps + 1) % 2 ^ 20 else s.fw.logWraps } }

/-- A tap point writes its record when it is enabled (R335); the manual gives its 16 data bytes no layout. -/
def State.tapBy (s : State) (source : Nat) (cl : Option ClusterId) (n : Nat) (flask : Domain) : State :=
  if (s.reg Reg.ladleTapEn).getLsbD n then
    ({ s with fresh := s.fresh + 2 }).logRecord (BitVec.ofNat 16 n) source 0 true flask cl
      (leBytes 8 s.free.toNat ++ leBytes 8 (Config.freeValue (s.fresh + 1)).toNat)
  else s

/-- A tap point of the scheduler core. -/
def State.tap (s : State) (n : Nat) (flask : Domain) : State := s.tapBy 2 none n flask

/-! ### Events -/

/-- An event entry; `src` is the source's die and cluster, or 0xFFF (R322). -/
def evEntry (code : BitVec 16) (status : Status) (src : Nat) (result : List Byte) : Entry :=
  ⟨0xFFFF_FFFF, status, true, false, BitVec.ofNat 32 src, code, result⟩

/-- The data of an event, four bytes each in the order of R333, where no chapter lays them out. -/
def evData (xs : List Nat) : List Byte := xs.flatMap (leBytes 4)

def State.box (s : State) : LadleRef → EventBox
  | .admin => s.fw.box
  | .flask f _ => (s.flask f).box

def State.setBox (s : State) (l : LadleRef) (b : EventBox) : State :=
  match l with
  | .admin => { s with fw := { s.fw with box := b } }
  | .flask f _ => s.setFlask f { s.flask f with box := b }

/-- Whether the ladle can take an entry now. -/
def State.ladleTakes (s : State) (l : LadleRef) : Bool :=
  (s.ladle l).enabled && !(s.ladle l).cqFull && (s.ladle l).held.isEmpty && !s.ladleWaits l

/-- The `EVENTS_LOST` entry that precedes the next event delivered (R329). -/
def State.reportLost (s : State) (l : LadleRef) : State :=
  let b := s.box l
  if b.lost = 0 then s
  else (s.setBox l { b with lost := 0 }).putEntry l (evEntry 0x0202 St.success 0xFFF (Word.bytes b.lost))

/-- An event reaches its ladle: written, held for a full ladle, or dropped and counted (R329). -/
def State.deliver (s : State) (l : LadleRef) (e : Entry) : State :=
  let b := s.box l
  if b.held.isEmpty && s.ladleTakes l then
    let s := s.reportLost l
    if s.ladleTakes l then s.putEntry l e else s.setBox l { s.box l with held := [e] }
  else if b.held.length < 64 then s.setBox l { b with held := b.held ++ [e] }
  else (s.setBox l { b with lost := satInc b.lost }).count Reg.ladleEventsLost

/-- Held events, oldest first, are written while the ladle takes them. -/
def State.drainBox (s : State) (l : LadleRef) : List Entry → State
  | [] => s
  | e :: rest =>
    if s.ladleTakes l then
      let s := s.reportLost l
      if s.ladleTakes l then
        State.drainBox ((s.putEntry l e).setBox l { (s.putEntry l e).box l with held := rest }) l rest
      else s
    else s

/-- An event for a flask, in its ladle 0 (R318, R268). -/
def State.postFlask (s : State) (f : FlaskId) (code : BitVec 16) (status : Status) (src : Nat) (result : List Byte) :
    State :=
  let fl := s.flask f
  if fl.st = .free then s
  else
    let s := (s.setFlask f { fl with events := satInc fl.events }).tap 8 (BitVec.ofNat 9 f.toNat)
    s.deliver (.flask f 0) (evEntry code status src result)

/-- An event for the owner, in the admin ladle. -/
def State.postOwner (s : State) (code : BitVec 16) (status : Status) (src : Nat) (result : List Byte) : State :=
  (s.tap 8 0x100).deliver .admin (evEntry code status src result)

/-- An event for a domain: a flask's to the flask, any other to the owner. -/
def State.postDom (s : State) (d : Domain) (code : BitVec 16) (status : Status) (src : Nat) (result : List Byte) : State :=
  if d.toNat < 256 then s.postFlask (BitVec.ofNat 8 d.toNat) code status src result else s.postOwner code status src result

/-- A doorbell, an event or the core timer wakes a firmware processor that waits in sys 0x7 (R312). -/
def State.wakeSys (s : State) (p : Proc) : State :=
  let k := s.core p
  match k.wait with
  | some ⟨.sysWait .., _, _, _⟩ => s.setCore p { k with wait := none, a := { k.a with pc := k.a.pc + 1 } }
  | _ => s

/-- An event that a cluster control core forwards: buffered while it is away (R339). -/
def State.postCluster (s : State) (cl : ClusterId) (d : Domain) (code : BitVec 16) (status : Status) (result : List Byte) :
    State :=
  let s := s.wakeSys (.ccc cl)
  if s.fw.down.contains (.cluster cl) then
    let c := s.cluster cl
    if d.toNat < 256 then
      if c.evq.length < 64 then
        s.setCluster cl { c with evq := c.evq ++ [(BitVec.ofNat 8 d.toNat, evEntry code status cl.toNat result)] }
      else
        let f := BitVec.ofNat 8 d.toNat
        let b := (s.flask f).box
        (s.setFlask f { s.flask f with box := { b with lost := satInc b.lost } }).count Reg.ladleEventsLost
    else s.postOwner code status cl.toNat result
  else s.postDom d code status cl.toNat result

/-! ### Completions -/

/-- A completion entry is written, or held behind a full ring (R329) or until key use goes on (R232). -/
def State.putCompletion (s : State) (l : LadleRef) (e : Entry) : State :=
  let d := s.ladle l
  let dom : Domain := match l with
    | .admin => 0x100
    | .flask f _ => BitVec.ofNat 9 f.toNat
  if !d.enabled then s
  else if d.held.isEmpty && !d.cqFull && !s.ladleWaits l then (s.tap 2 dom).putEntry l e
  else
    let s := s.setLadle l { d with held := d.held ++ [e] }
    match l with
    | .admin => s
    | .flask f n =>
      let fl := s.flask f
      if fl.paused || s.keyWaits f then s
      else (s.setFlask f { fl with paused := true }).postOwner 0x0205 St.success 0xFFF
        (evData [f.toNat, n.toNat])

/-- A master's index (R433). -/
def masterIndex : Master → Nat
  | .he0 => 0
  | .he1 => 1
  | .mgmt => 2
  | .peer => 3

/-- The owner's index, or 0xFF for none (R422). -/
def Own.index (o : Own) : Nat := if o.valid then masterIndex o.master else 0xFF

/-- A transition that waits is made once no admin command is outstanding and no activation runs: the admin rings with all
that waits for them are zeroed, the old owner's notification is switched off, the record is written, and `OWN_CHANGED` is
posted (R324, R438, R440). -/
def State.tryTransition (s : State) : State :=
  match s.own.next with
  | none => s
  | some x =>
    if !s.fw.admin.cmds.isEmpty || s.fw.act.isSome then s
    else
      let old := s.own.index
      let s := match s.ownerEp with
        | none => s
        | some e => s.setEp e { s.ep e with noteEn := false, noteHeld := false }
      let s := { s with
        fw := { s.fw with admin := Ladle.admin (s.fw.admin.gen + 1), admSq := [], admCq := [], box := ⟨[], 0⟩ }
        own := { s.own with valid := true, master := x.1, nonce := x.2, changes := s.own.changes + 1, holding := false
                            electing := false, hand := none, claims := [], next := none } }
      (s.writeTrip .ownerRecord).postOwner 0x0803 St.success 0xFFF (evData [old, masterIndex x.1])

/-- The command with the tag completes, once (R325); a tag that is not outstanding writes nothing. -/
def State.complete (s : State) (l : LadleRef) (tag : Word) (status : Status) (detail : Word) (result : List Byte) : State :=
  let d := s.ladle l
  match d.cmds.find? (·.tag = tag) with
  | none => s
  | some c =>
    let s := s.setLadle l { d with cmds := d.cmds.filter (·.tag ≠ tag) }
    (s.putCompletion l ⟨tag, status, false, c.quiet, detail, opcodeOf c.instr, result⟩).tryTransition

/-- Held completions, oldest first, are written while the ring has room and its memory does not wait. -/
def State.drainHeld (s : State) (l : LadleRef) : List Entry → State
  | [] => s
  | e :: rest =>
    if (s.ladle l).cqFull || s.ladleWaits l then s
    else
      let s := s.setLadle l { s.ladle l with held := rest }
      State.drainHeld (s.putEntry l e) l rest

/-- Space has been freed: held completions, then `PAUSED`, then held events (R329). -/
def State.ladleFreed (s : State) (l : LadleRef) : State :=
  let s := s.drainHeld l (s.ladle l).held
  match l with
  | .admin => s.drainBox .admin s.fw.box.held
  | .flask f n =>
    let fl := s.flask f
    let s := if fl.ladles.any fun x => !x.2.held.isEmpty then s else s.setFlask f { fl with paused := false }
    if n = 0 then s.drainBox l (s.flask f).box.held else s

/-- Key use goes on: what waited for flasks' memory is written (R232, R445). -/
def State.keysResume (s : State) : State :=
  s.flasks.foldl (fun s e => ((s.flask (BitVec.ofNat 8 e.1)).ladles.map Prod.fst).foldl
    (fun s n => s.ladleFreed (.flask (BitVec.ofNat 8 e.1) (BitVec.ofNat 4 n))) s) s

end Sys2Proof.Machine
end

