-- ==== Sys2Proof/Machine/MemOps.lean ====
section
/-!
DEFINITION. Accesses at their homes with the accounting of errors (R219–R224, R236, R237, R552), repairs (R226–R229), and the
reads and writes of hub engines and hosts.
-/

namespace Sys2Proof.Machine

/-! ### Errors met, and repairs (R222, R223, R226–R229) -/

/-- An uncorrectable or already marked word or codeword is met: counted, logged, and posted to its flask or to the owner
(R222). -/
def State.noteUe (s : State) (memory : Nat) (poison : Bool) (src : Src) (fa : Nat) : State :=
  let bs := logWords s memory true poison src fa
  ((s.count (if memory < 2 then Reg.memUeSram else Reg.memUeLpddr)).logMem memory true poison src fa).postDom
    (s.ownerAt fa) 0x0401 St.uncorrectable ((storeCluster fa).getD (if aboveSpace ≤ fa then 0xFFF else faDie fa * 512)) bs

/-- A corrected word or codeword is met (R223). -/
def State.meetCe (s : State) (memory : Nat) (src : Src) (fa : Nat) : State :=
  (s.count (if memory < 2 then Reg.memCeSram else if memory = 4 then Reg.memCeLink else Reg.memCeLpddr)).logMem
    memory false false src fa

def sramMemory (fa : Nat) : Nat := if fa < aboveSpace ∧ space fa = 1 then 1 else 0

/-- A word as a repair reads it: corrected, or marked (R228). -/
def State.scrubWord (s : State) (src : Src) (k : Nat) : State :=
  match s.mem.wordMark k with
  | .good => s
  | .correctable => { s with mem := s.mem.setWordMark k .good }.meetCe (sramMemory (4 * k)) src (4 * k)
  | .uncorrectable => { s with mem := s.mem.setWord k TWord.poisoned }.noteUe (sramMemory (4 * k)) false src (4 * k)

/-- A codeword as a repair reads it; poison is kept. -/
def State.scrubCw (s : State) (src : Src) (a : Nat) : State :=
  match s.mem.cw a with
  | .correctable => { s with mem := s.mem.setCw a .good }.meetCe 2 src a
  | .uncorrectable => { s with mem := s.mem.setCw a .poisoned }.noteUe 2 false src a
  | _ => s

/-- Steps 2 and 3 of the repair of a line in use (R228). -/
def State.scrubLine (s : State) (src : Src) (fa : Nat) : State :=
  let l := fa / 64 * 64
  if fa < aboveSpace ∧ space fa = 2 then (s.scrubCw src l).scrubCw src (l + 32)
  else (List.range 16).foldl (fun s i => s.scrubWord src (l / 4 + i)) s

def lineRepair (r : Repair) (store : Nat) : Bool :=
  match r with
  | .line a => storeOf a == store
  | _ => false

def columnRepair (r : Repair) (store : Nat) : Bool :=
  match r with
  | .column a _ => storeOf a == store
  | _ => false

/-- Whether a spare is left for a repair: 4 lines and 2 bit-columns of a core store or a bank, 256 lines of a channel, one
macro of the triplicated store; rows of a DRAM are its own (R226). -/
def Mem.spareLeft (m : Mem) (r : Repair) : Bool :=
  let all := m.repairs ++ m.fused
  match r with
  | .line a => decide (all.countP (lineRepair · (storeOf a)) < spareLines a)
  | .column a _ => decide (all.countP (columnRepair · (storeOf a)) < 2)
  | .spareMacro => decide (Repair.spareMacro ∉ all)
  | .dramRow .. => true

/-- A line with no spare left: a channel's granule is marked faulty and the line poisoned; any other store has a hard fault
(R229). -/
def State.noSpare (s : State) (fa : Nat) : State :=
  if fa < aboveSpace ∧ space fa = 2 then
    let g := faGranule fa
    let l := fa / 64 * 64
    { s with mem := { ((s.mem.setCw l .poisoned).setCw (l + 32) .poisoned) with
      faulty := if s.mem.faulty.contains g then s.mem.faulty else s.mem.faulty ++ [g] } }
  else if s.mem.hardFaults.contains (storeOf fa) then s
  else { s with mem := { s.mem with hardFaults := s.mem.hardFaults ++ [storeOf fa] } }

/-- A soft repair: it enters the repair log, or no spare is left for it (R226, R227, R229). -/
def State.repair (s : State) (r : Repair) : State :=
  if s.mem.spareLeft r then { s with mem := { s.mem with repairs := s.mem.repairs ++ [r] } }
  else match r with
    | .line a => s.noSpare a
    | .column a _ => s.noSpare a
    | _ => s

/-- A soft repair of a line in use (R227, R228). -/
def State.softRepair (s : State) (src : Src) (fa : Nat) : State := (s.scrubLine src fa).repair (.line (fa / 64 * 64))

/-- Whether a word or codeword that has been marked has since been rewritten. -/
def Mem.rewritten (m : Mem) (fa : Nat) : Bool :=
  if fa < aboveSpace ∧ space fa = 2 then decide (m.cw fa ≠ .poisoned) else decide ((m.word (fa / 4)).tag ≠ Tag.poison)

/-- An uncorrectable error at a word or codeword: where the line has been marked and then rewritten, it is repaired
(R227). -/
def State.markLine (s : State) (src : Src) (fa : Nat) : State :=
  let before := s.mem.marked.any fun a => a / 64 == fa / 64 && s.mem.rewritten a
  let s := if s.mem.marked.contains fa then s else { s with mem := { s.mem with marked := s.mem.marked ++ [fa] } }
  if before then s.softRepair src fa else s

/-- An error that is met, with the repair that it asks for; an error of the link asks for none. -/
def State.meetUe (s : State) (memory : Nat) (poison : Bool) (src : Src) (fa : Nat) : State :=
  (if poison || memory = 4 then s else s.markLine src fa).noteUe memory poison src fa

/-! ### Reads at the home -/

/-- What the home's checker finds at a word: its own memory's state, or the event reported. An invalid line holds no error
(R214); an entry whose parity is wrong is uncorrectable (R219). -/
def State.foundWord (s : State) (k : Nat) (ecc : EccReport) : WordMark :=
  if ecc = .parity then .uncorrectable
  else if !(Tab.get false s.mem.sramValid (k / 16)) then .good
  else match s.mem.wordMark k, ecc with
    | .uncorrectable, _ => .uncorrectable
    | _, .uncorrectable => .uncorrectable
    | .good, .correctable => .correctable
    | m, _ => m

/-- A read of the SRAM word at word index k by its home: the word, whether it was uncorrectable or marked, and the state
with the word marked or corrected (R222, R223). -/
def State.readWord (s : State) (k : Nat) (src : Src) (ecc : EccReport) : TWord × Bool × State :=
  let w := s.mem.word k
  let mk := s.foundWord k ecc
  if mk = .uncorrectable then
    (TWord.poisoned, true, ({ s with mem := s.mem.setWord k TWord.poisoned }).meetUe (sramMemory (4 * k)) false src (4 * k))
  else if w.tag = Tag.poison then
    (TWord.poisoned, true, { s with mem := s.mem.setWord k TWord.poisoned }.logMem (sramMemory (4 * k)) true true src (4 * k))
  else if mk = .correctable then
    (w, false, { s with mem := s.mem.setWordMark k .good }.meetCe (sramMemory (4 * k)) src (4 * k))
  else (w, false, s)

/-- A read of a codeword by its channel: whether it is lost, and the state after, with the codeword corrected or poisoned. A
burst that failed link ECC and passed when retried is counted before its codeword is looked at (R214, R221–R224). -/
def State.readCode (s : State) (a : Nat) (src : Src) (ecc : EccReport) : Bool × State :=
  let c := a / 32 * 32
  if ecc = .parity then (true, { s with mem := s.mem.poisonCw c }.meetUe 2 false src c)
  else if !(Tab.get false s.mem.lpValid (a / 4096)) then (false, s)
  else if ecc = .linkFailed then (true, s.meetUe 4 false src c)
  else
    let s := if ecc = .linkRetried then s.meetCe 4 src c else s
    match s.mem.cw c, ecc with
    | .poisoned, _ => (true, s.meetUe 2 true src c)
    | .uncorrectable, _ => (true, { s with mem := s.mem.setCw c .poisoned }.meetUe 2 false src c)
    | _, .uncorrectable => (true, { s with mem := s.mem.setCw c .poisoned }.meetUe 2 false src c)
    | .correctable, _ => (false, { s with mem := s.mem.setCw c .good }.meetCe 2 src c)
    | .good, .correctable => (false, s.meetCe 2 src c)
    | .good, _ => (false, s)

/-- A read of n bytes within one LPDDR codeword: the bytes, whether they are lost, and the state after. -/
def State.readCw (s : State) (a n : Nat) (src : Src) (ecc : EccReport) : List Byte × Bool × State :=
  (s.mem.bytes a n, s.readCode a src ecc)

/-! ### Writes at the home (R211, R215, R222, R552) -/

/-- A write of bytes within one line of LPDDR: of a whole line; or of less, which reads both codewords first and is not
performed where one is lost. The second component says whether it was performed; `ecc` is what the check of the codeword at
the address finds. -/
def State.lineWrite (s : State) (fa : Nat) (bs : List Byte) (src : Src) (ecc : EccReport) : State × Bool :=
  if bs.length = 64 then (s.wholeLine fa bs src, true)
  else
    let l := fa / 64 * 64
    let r := s.readCode l src (if fa / 32 * 32 = l then ecc else .stored)
    let q := r.2.readCode (l + 32) src (if fa / 32 * 32 = l then .stored else ecc)
    if r.1 || q.1 then (q.2, false) else ({ q.2 with mem := q.2.mem.setLine fa bs }.noteWrite fa bs, true)

/-- A whole word of SRAM is overwritten: an error that it held is logged only, with fresh check bits (R222). -/
def State.replaceWord (s : State) (k : Nat) (w : TWord) (src : Src) (ecc : EccReport) : State :=
  let m := sramMemory (4 * k)
  let s := if s.foundWord k ecc = .uncorrectable then (s.count Reg.memUeSram).logMem m true false src (4 * k)
    else if (s.mem.word k).tag = Tag.poison then s.logMem m true true src (4 * k)
    else s
  { s with mem := s.mem.setWord k w }

/-- Bytes within one SRAM word written over what it holds; the tag of the word that they make is given from its old one. A word
that is lost or marked is marked, and the write not performed (R222, R552). -/
def State.partWord (s : State) (fa : Nat) (bs : List Byte) (tag : Tag → Tag) (src : Src) (ecc : EccReport) : State × Bool :=
  let r := s.readWord (fa / 4) src ecc
  if r.2.1 then (r.2.2, false)
  else ({ r.2.2 with mem := r.2.2.mem.setWord (fa / 4) ⟨Word.setBytes r.1.payload (fa % 4) bs, tag r.1.tag⟩ }, true)

/-- A write to a line ends the reservations of other processors on it (R109). -/
def State.breakResv (s : State) (line : Nat) (except : Option Proc) : State :=
  { s with cores := ended s.cores, fwCores := ended s.fwCores }
where
  ended (t : Tab Core) : Tab Core :=
    t.map fun (e : Nat × Core) =>
      if e.2.a.resv.valid && e.2.a.resv.line == line && except.map procKey != some e.1 then
        (e.1, { e.2 with a := { e.2.a with resv := ⟨false, line⟩ } })
      else e

/-- A core's own reservation on a line ends (R109). -/
def State.ownResv (s : State) (p : Proc) (line : Nat) : State :=
  let k := s.core p
  if k.a.resv.valid && k.a.resv.line == line then s.setCore p { k with a := { k.a with resv := ⟨false, line⟩ } } else s

/-- A reply leaves a home for a waiter. -/
def State.wakeWith (s : State) (w : Waiter) (r : Reply) : State :=
  { s with fab := { s.fab with syncReps := s.fab.syncReps ++ [⟨w.issuer, w.gen, w.addr, w.seg, w.off, false, r⟩] } }

/-- A write of cluster store wakes the waiters of a tally whose `COUNT` is 0 (R184). -/
def State.wakeTally (s : State) (fa : Nat) : State :=
  let a := fa / 4 * 4
  let cl := faCluster fa
  let c := s.cluster cl
  let mine := c.waiters.filter fun w => w.addr.toNat == a && decide (w.kind = .tally)
  if space fa ≠ 1 ∨ mine.isEmpty ∨ (s.mem.word (fa / 4)).payload.toNat % 2 ^ 31 ≠ 0 then s
  else
    mine.foldl (fun s w => s.wakeWith w (.data ⟨0, Tag.int⟩))
      (s.setCluster cl { c with waiters := c.waiters.filter fun w => !(w.addr.toNat == a && decide (w.kind = .tally)) })

/-- How a hub engine's or a host's access ended. -/
inductive HubRes where
  | ok | outside | uncorrectable
  deriving DecidableEq, Repr

/-- The worse of two results; an address outside the flask first. -/
def HubRes.and : HubRes → HubRes → HubRes
  | .outside, _ => .outside
  | _, .outside => .outside
  | .uncorrectable, _ => .uncorrectable
  | _, r => r

/-- What follows a write of tagged memory: reservations on its line end, and the waiters of a tally wake. -/
def State.wrote (s : State) (fa : Nat) (except : Option Proc) : State := (s.breakResv (fa / 64) except).wakeTally fa

/-- One piece of a write, within one SRAM word or one LPDDR line, at its home; what it supplies becomes RAW (R204, R211, R222,
R552). -/
def State.hubPiece (s : State) (dom : Domain) (src : Src) (a : Nat) (bs : List Byte) : State × HubRes :=
  match translate s dom a with
  | none => (s, .outside)
  | some fa =>
    if !(faValid fa && homeOk s dom fa) then (s, .outside)
    else if space fa = 2 then
      let r := s.lineWrite fa bs src .stored
      (r.1, if r.2 then .ok else .uncorrectable)
    else if bs.length = 4 then ((s.replaceWord (fa / 4) ⟨Word.setBytes 0 0 bs, Tag.raw⟩ src .stored).wrote fa none, .ok)
    else
      let r := s.partWord fa bs (fun _ => Tag.raw) src .stored
      if r.2 then (r.1.wrote fa none, .ok) else (r.1, .uncorrectable)

/-- The step at which an address's space is cut: LPDDR lines, SRAM words. -/
def cutOf (a : Nat) : Nat := if space a = 2 then 64 else 4

/-- Whether every byte of a range is one that the domain has at a home. -/
def State.within (s : State) (dom : Domain) (a n : Nat) : Bool :=
  (pieces (cutOf a) n a n).all fun x => match translate s dom x.1 with
    | none => false
    | some fa => faValid fa && homeOk s dom fa

/-- A write of bytes at a flask address (a fabric address for domain 0x100); one that would fall outside is not performed at
all (R16). -/
def State.hubWrite (s : State) (dom : Domain) (src : Src) (a : Nat) (bs : List Byte) : State × HubRes :=
  if !s.within dom a bs.length then (s, .outside)
  else (split (cutOf a) bs.length a bs).foldl (fun r x =>
    let r' := r.1.hubPiece dom src x.1 x.2
    (r'.1, r.2.and r'.2)) (s, .ok)

/-- One piece of a read, within one SRAM word or one codeword. -/
def State.hubReadPiece (s : State) (dom : Domain) (src : Src) (a n : Nat) : List Byte × State × HubRes :=
  match translate s dom a with
  | none => ([], s, .outside)
  | some fa =>
    if !(faValid fa && homeOk s dom fa) then ([], s, .outside)
    else if space fa = 2 then
      let r := s.readCw fa n src .stored
      (r.1, r.2.2, if r.2.1 then .uncorrectable else .ok)
    else
      let r := s.readWord (fa / 4) src .stored
      (((Word.bytes r.1.payload).drop (fa % 4)).take n, r.2.2, if r.2.1 then .uncorrectable else .ok)

/-- A read of n bytes at a flask address. -/
def State.hubRead (s : State) (dom : Domain) (src : Src) (a n : Nat) : List Byte × State × HubRes :=
  (pieces (if space a = 2 then 32 else 4) n a n).foldl (fun r x =>
    let r' := r.2.1.hubReadPiece dom src x.1 x.2
    (r.1 ++ r'.1, r'.2.1, r.2.2.and r'.2.2)) ([], s, .ok)

/-- Words of a placement target are about to be overwritten before their message's token is issued: what they held is kept
(R18). -/
def State.land (s : State) (key : LandKey) (dom : Domain) (a n : Nat) : State :=
  let new := (pieces 4 n a n).filterMap fun x => (translate s dom x.1).bind fun fa =>
    if s.fab.landing.any fun l => l.1 == key && l.2.1 == fa / 4 then none
    else some (key, fa / 4, if space fa = 2 then ⟨BitVec.ofNat 32 (leNat (s.mem.bytes (fa / 4 * 4) 4)), Tag.raw⟩ else s.mem.word (fa / 4))
  { s with fab := { s.fab with landing := s.fab.landing ++ new } }

/-- The token has been issued, or the message has ended without one. -/
def State.landEnd (s : State) (key : LandKey) : State :=
  { s with fab := { s.fab with landing := s.fab.landing.filter fun l => l.1 != key } }

/-- What a core that reads a word of a placement target finds before the token: each byte old or new, a free choice (R18). -/
def State.mixed (s : State) (fa : Nat) (w : TWord) : State × TWord :=
  match s.fab.landing.find? fun l => l.2.1 == fa / 4 with
  | none => (s, w)
  | some (_, _, old) =>
    let pick (i : Nat) : Byte := (if s.free.getLsbD i then Word.bytes old.payload else Word.bytes w.payload).getD i 0
    (s.took, ⟨BitVec.ofNat 32 (leNat [pick 0, pick 1, pick 2, pick 3]), if s.free.getLsbD 4 then old.tag else w.tag⟩)

/-- Whether a range of flask addresses lies inside the flask's clusters and granules (R16, R55). -/
def inFlask (s : State) (dom : Domain) (a n : Nat) : Bool :=
  (pieces (if space a = 2 then 2 ^ 28 else 2 ^ 13) (n / 2 ^ 13 + 2) a n).all fun x =>
    match translate s dom x.1, translate s dom (x.1 + x.2 - 1) with
    | some p, some q => faValid p && faValid q
    | _, _ => false

end Sys2Proof.Machine
end

