-- ==== Sys2Proof/Machine/Ops.lean ====
section
/-!
DEFINITION. What every instruction of a processor shares: registers, the instruction fetch, issue, the trap and the return
from it, stops, the segment check, and the way to a word of memory (R67–R120).
-/

namespace Sys2Proof.Machine

/-! ### Registers -/

def Arch.reg (a : Arch) (r : RegNo) : TWord := a.g[r.toNat]'r.isLt
/-- An instruction that writes a register writes payload and tag (R67). -/
def Arch.setReg (a : Arch) (r : RegNo) (w : TWord) : Arch := { a with g := a.g.set r.toNat w r.isLt }
def Arch.desc (a : Arch) (i : BitVec 3) : Desc := a.sg[i.toNat]'i.isLt
def Core.reg (c : Core) (r : RegNo) : TWord := c.a.reg r
def Core.setReg (c : Core) (r : RegNo) (w : TWord) : Core := { c with a := c.a.setReg r w }
def Core.setStat (c : Core) (t : Stat) : Core := { c with a := { c.a with stat := t } }
def Core.setZ (c : Core) (z : Bool) : Core := c.setStat { c.a.stat with z := z }

/-- The core's counters of an event count it; counters wrap (R528, R529). -/
def Core.bump (c : Core) (event n : Nat) : Core :=
  { c with pm := c.pm.map fun m => if m.event.toNat = event then { m with count := m.count + BitVec.ofNat 32 n } else m }

/-- A cluster's counters of an event count it (R528, R531). -/
def State.clCount (s : State) (cl : ClusterId) (event n : Nat) : State :=
  { s with bg := { s.bg with clCtr := s.bg.clCtr.map fun e =>
      if e.1 / 16 = cl.toNat ∧ e.2.event.toNat = event then (e.1, { e.2 with count := e.2.count + BitVec.ofNat 48 n }) else e } }

/-- The hub's counters of an event and instance count it. -/
def State.hubCount (s : State) (event inst n : Nat) : State :=
  let hit (i : Nat) : Bool := decide ((s.reg (Reg.pmonHubSel + 4 * i)).toNat % 2 ^ 16 = event + inst * 2 ^ 8)
  { s with bg := { s.bg with hubCtr := ((List.range 64).filter hit).foldl (fun t i =>
      let c := Tab.get ⟨0, 0⟩ t i
      Tab.put ⟨0, 0⟩ t i { c with count := c.count + BitVec.ofNat 48 n }) s.bg.hubCtr } }

/-! ### Links between dies (R12) -/

/-- The die of a processor, whose reference counter it reads (R15); the hub is 8. -/
def procDie : Proc → Nat
  | .core c => c.toNat / 131072
  | .ccc cl => cl.toNat / 512
  | .hub _ => 8

/-- What carries a transaction from one die to another: nothing between dies, ring links leaving the dies named, or a C-die's
hub link; the hub is 8. -/
inductive Link where
  | inside
  | ring (dies : List Nat)
  | hub (die : Nat)
  deriving DecidableEq, Repr

/-- The direction with fewer hops; with four either way, towards increasing die number. -/
def linkOf (a b : Nat) : Link :=
  let up := (b + 8 - a) % 8
  if a = b then .inside
  else if a = 8 then .hub b
  else if b = 8 then .hub a
  else if up ≤ 4 then .ring ((List.range up).map fun i => (a + i) % 8)
  else .ring ((List.range (8 - up)).map fun i => (a + 8 - i) % 8)

/-- A transaction travels: each ring link that it takes counts its bytes at the die that it leaves (R531). -/
def State.travel (s : State) (a b kind n : Nat) : State :=
  match linkOf a b with
  | .ring ds => ds.foldl (fun s d => s.hubCount 0x0A d (Config.linkBytes kind n)) s
  | _ => s

namespace PmEv
def retired : Nat := 0x02
def condFalse : Nat := 0x03
def remoteLoads : Nat := 0x18
def sends : Nat := 0x19
def taken : Nat := 0x1A
def traps : Nat := 0x1B
def engineBlocks : Nat := 0x1C
end PmEv

def State.modCore (s : State) (p : Proc) (f : Core → Core) : State := s.setCore p (f (s.core p))

/-! ### Traps -/

/-- A trap about to be taken: its vector and what it writes into `ECAUSE`, `EADDR` and `EDETAIL` (R112, R113). -/
structure TrapInfo where
  vector : BitVec 4
  seg : BitVec 3
  line : Bool
  found : Tag
  want : Tag
  eaddr : Word
  edetail : Word
  deriving DecidableEq, Repr

/-- A trap that names nothing but its vector. -/
def trapOf (v : BitVec 4) : TrapInfo := ⟨v, 0, false, 0, 0, 0, 0⟩

namespace Vec
def illegal : BitVec 4 := 0
def priv : BitVec 4 := 1
def fetch : BitVec 4 := 2
def segment : BitVec 4 := 3
def access : BitVec 4 := 4
def align : BitVec 4 := 5
def tag : BitVec 4 := 6
def poison : BitVec 4 := 7
def ecc : BitVec 4 := 8
def bus : BitVec 4 := 9
def sync : BitVec 4 := 10
def engine : BitVec 4 := 11
def timer : BitVec 4 := 12
def soft : BitVec 4 := 13
end Vec

/-- The status of each vector (R112); none for `TIMER`. -/
def vectorStatus (v : BitVec 4) : Status :=
  match v.toNat with
  | 0 => St.illegal
  | 1 => St.privilege
  | 2 => St.fetch
  | 3 => St.segmentFault
  | 4 => St.accessFault
  | 5 => St.align
  | 6 => St.tagFault
  | 7 => St.uncorrectable
  | 8 => St.uncorrectable
  | 9 => St.bus
  | 10 => St.sync
  | 11 => St.engine
  | 13 => St.soft
  | _ => St.success

/-- `ECAUSE` (R113). -/
def TrapInfo.ecause (t : TrapInfo) : Word :=
  BitVec.ofNat 32 (t.vector.toNat + t.seg.toNat * 2 ^ 4 + (if t.line then 2 ^ 7 else 0) + t.found.toNat * 2 ^ 8 +
    t.want.toNat * 2 ^ 12 + (vectorStatus t.vector).toNat * 2 ^ 16)

def poisonTrap : TrapInfo := { trapOf Vec.poison with found := Tag.poison }
def tagTrap (found : Tag) : TrapInfo := { trapOf Vec.tag with found := found }

/-- The locks of a holder that is lost are handed to their homes for abandonment (R192). -/
def State.loseLocks (s : State) (p : Proc) : State :=
  match p with
  | .core c =>
    let k := s.core p
    { s with fab := { s.fab with lost := s.fab.lost ++ k.locks.map fun (h : HeldLock) => (c, k.idx, h.addr) } }.setCore p
      { k with locks := [] }
  | _ => s

/-- Every cluster that holds anything, changed. -/
def State.mapClusters (s : State) (f : Cluster → Cluster) : State :=
  s.clusters.foldl (fun s e => s.setCluster (BitVec.ofNat 12 e.1) (f (s.cluster (BitVec.ofNat 12 e.1)))) s

/-- A reply that hands a lock to its caller. -/
def MemRep.grants (r : MemRep) : Bool :=
  match r.reply with
  | .flags true (some _) => true
  | _ => false

/-- The waiters for an object. -/
def State.waitersAt (s : State) (fa : Nat) : List Waiter :=
  (s.cluster (faCluster fa)).waiters.filter fun w => w.addr.toNat == fa

/-- `WAITERS` of a lock word follows its waiters (R189). -/
def State.markWaiters (s : State) (fa : Nat) : State :=
  let w := s.mem.word (fa / 4)
  if w.tag ≠ Tag.lock then s
  else
    let v := (w.payload &&& 0xFFBF_FFFF#32) ||| (if (s.waitersAt fa).isEmpty then 0 else 0x0040_0000#32)
    { s with mem := s.mem.setWord (fa / 4) ⟨v, Tag.lock⟩ }

/-- A wait that a trap leaves the homes as R188 and R191 say: a barrier's waiter is detached, a lock's is withdrawn;
its other requests are withdrawn. -/
def State.endWait (s : State) (p : Proc) : State :=
  let k := s.core p
  match k.wait with
  | none => s
  | some _ =>
    let keep (w : Waiter) : Option Waiter :=
      if w.issuer = p ∧ w.gen = k.gen then
        match w.kind with
        | .barrier r _ closed => some { w with kind := .barrier r true closed }
        | _ => none
      else some w
    let s := s.setCore p { k with wait := none }
    let s := { s with fab := { s.fab with
      reqs := s.fab.reqs.filter fun r => !(r.issuer == p && !r.posted)
      reps := s.fab.reps.filter fun r => !(r.issuer == p && !r.posted)
      syncs := s.fab.syncs.filter fun r => !(r.issuer == p && (decide (r.kind = SyncKind.twait) || decide (r.kind = SyncKind.lock)))
      syncReps := s.fab.syncReps.filter fun r => !(r.issuer == p) || r.grants } }
    let gone := s.clusters.flatMap fun e => (e.2.waiters.filter fun w => (keep w).isNone && decide (w.kind = .lock)).map (·.addr.toNat)
    gone.foldl State.markWaiters (s.mapClusters fun c => { c with waiters := c.waiters.filterMap keep })

/-- A processor stops, on a double trap, a bad vector word or its watchdog (R115, R117). -/
def State.stopCore (s : State) (p : Proc) (vector : Byte) (status : Status) : State :=
  let s := s.endWait p
  let k := s.core p
  let s := (s.loseLocks p).modCore p fun k => { k with run := .stopped vector status }
  match p with
  | .core c =>
    s.postCluster (coreCluster c) k.flask 0x0102 status
      (leBytes 4 c.toNat ++ leBytes 4 k.a.pc ++ Word.bytes k.a.trap.epc ++ Word.bytes k.a.trap.ecause ++
        [vector, 0] ++ leBytes 2 status.toNat ++ List.replicate 28 0)
  | _ => s

/-- Whether the words that a processor runs are in the model: a core's always, a firmware processor's once its store has been
loaded (R316). -/
def State.holdsImage (s : State) (p : Proc) : Bool := procIsCore p || Tab.get false s.mem.sramValid (storeBase p / 64)

/-- Taking a trap (R110, R115). The instruction trapped at, or for a boundary trap not yet issued, is the one at pc. The words
of the image that a firmware processor has run since State.reset are not in the model: where its store holds nothing, the
handler stands at a free word. -/
def State.takeTrap (s : State) (p : Proc) (t : TrapInfo) : State :=
  let s := s.endWait p
  let k := s.core p
  if !k.a.stat.te && decide (t.vector ≠ Vec.timer) then
    s.stopCore p (BitVec.ofNat 8 t.vector.toNat) St.doubleTrap
  else
    let r := s.readWord (storeBase p / 4 + (k.a.tvec + t.vector.toNat) % procWords p) .core .stored
    let r := if s.holdsImage p then r else (⟨s.free.extractLsb' 0 32, Tag.code⟩, false, s.took)
    let s := r.2.2
    if r.1.tag ≠ Tag.code then s.stopCore p (BitVec.ofNat 8 t.vector.toNat) (vectorStatus t.vector)
    else s.modCore p fun k =>
      { k.bump PmEv.traps 1 with a := { k.a with
          trap := ⟨BitVec.ofNat 32 k.a.pc, t.ecause, t.eaddr, t.edetail⟩
          resv := ⟨false, k.a.resv.line⟩
          stat := { k.a.stat with te := false }
          pc := r.1.payload.toNat % procWords p } }

/-- The return from a trap (R114). -/
def Arch.trapReturn (a : Arch) (p : Proc) : Arch :=
  { a with pc := a.trap.epc.toNat % procWords p, stat := { a.stat with te := true } }

/-! ### Issue -/

/-- What the body of an instruction answers. -/
inductive Body where
  | ok (s : State)                        -- done; pc goes to the next word
  | jump (s : State) (pc : Nat)           -- done; pc goes to the word named
  | trap (s : State) (t : TrapInfo)       -- trapped, with what R106, R222 let it have done
  | wait (s : State) (w : Wait)           -- the core waits at this instruction

/-- An instruction that completes: pc moves, and in stall mode the watchdog restarts (R117). -/
def State.retire (s : State) (p : Proc) (pc : Nat) (event : Nat) : State :=
  s.modCore p fun k =>
    { k.bump event 1 with
             wait := none
             a := { k.a with pc := pc
                             timers := if k.a.stat.wdm then k.a.timers
                                       else { k.a.timers with wdCount := k.a.timers.wdPeriod } } }

/-- What comes of an instruction of `len` words at pc. -/
def State.settle (s : State) (p : Proc) (len : Nat) : Body → State
  | .ok s' => s'.retire p ((s.core p).a.pc + len) PmEv.retired
  | .jump s' pc => s'.retire p pc PmEv.retired
  | .trap s' t => s'.takeTrap p t
  | .wait s' w => s'.modCore p fun k => { k with wait := some w }

/-- Whether a descriptor with `PX` covers word i of the core's own store (R104). The instruction stores of firmware
processors have no fabric address, and no descriptor is asked of them. -/
def Core.mayFetch (c : Core) (p : Proc) (i : Nat) : Bool :=
  match p with
  | .core n =>
    let fa := c.idx / 256 * 2 ^ 32 + n.toNat % 256 * 2 ^ 24 + 4 * i
    c.a.sg.toList.any fun d =>
      d.px && decide (d.lines ≠ 0) && decide (d.base.toNat ≤ fa) && decide (fa + 4 ≤ d.base.toNat + d.lines.toNat * 64)
  | _ => true

/-- The word at index i as fetched now or ahead (R95), whether it is lost or marked (R222), and the state after. -/
def State.fetch (s : State) (p : Proc) (i : Nat) : TWord × Bool × State :=
  match (s.core p).ahead.find? (·.1 = i) with
  | some e => (e.2, false, s)
  | none =>
    s.readWord (storeBase p / 4 + i) .core .stored

/-- The two words after i are fetched ahead (R95). -/
def State.fetchAhead (s : State) (p : Proc) (i : Nat) : State :=
  let k := s.core p
  let get (j : Nat) : List (Nat × TWord) :=
    match k.ahead.find? (·.1 = j) with
    | some e => [e]
    | none =>
      let x := storeBase p / 4 + j
      if j < procWords p ∧ s.mem.wordMark x = .good ∧ (s.mem.word x).tag ≠ Tag.poison then [(j, s.mem.word x)] else []
  s.setCore p { k with ahead := get (i + 1) ++ get (i + 2) }

/-- The fetch of one word: its trap, if it has one (R99, R104, R112, R553). Words that are not in the model are code. -/
def State.fetchTrap (s : State) (p : Proc) (i : Nat) : Option TrapInfo × State :=
  if i ≥ procWords p ∨ !(s.core p).mayFetch p i then (some (trapOf Vec.fetch), s)
  else if !s.holdsImage p then (none, s)
  else
    let r := s.fetch p i
    if r.2.1 then (some (trapOf Vec.ecc), r.2.2)
    else if r.1.tag ≠ Tag.code then (some (trapOf Vec.fetch), r.2.2)
    else (none, r.2.2)

/-- How an instruction stands to the end of the store (R553). -/
inductive Flow where
  | next                -- goes on to the next word
  | transfer            -- a branch, return or jump, when taken
  | call                -- two words
  deriving DecidableEq, Repr

def Flow.len : Flow → Nat
  | .call => 2
  | _ => 1

/-- A processor issues an instruction (R72, R73, R112): the traps of a boundary first, then the fetch, the words that no
instruction may have, the condition, and the body. A processor that is not running, or waits, issues nothing. -/
def State.issue (s : State) (p : Proc) (cond : BitVec 4) (legal : Bool) (flow : Flow) (body : State → Body) : State :=
  let k := s.core p
  if k.run ≠ .running ∨ k.wait.isSome ∨ s.phase = .off then s
  else match k.postErr with
  | e :: rest =>
    (s.setCore p { k with postErr := rest }).takeTrap p
      { trapOf (if e.access then Vec.access else Vec.bus) with seg := e.seg, eaddr := e.off }
  | [] =>
    if k.a.timers.pending && k.a.stat.te then
      (s.setCore p { k with a := { k.a with timers := { k.a.timers with pending := false } } }).takeTrap p (trapOf Vec.timer)
    else
      let pc := k.a.pc
      let holds := condHolds cond k.a.stat
      match s.fetchTrap p pc with
      | (some t, s) => s.takeTrap p t
      | (none, s) =>
        match (if flow = .call then s.fetchTrap p (pc + 1) else (none, s)) with
        | (some t, s) => s.takeTrap p t
        | (none, s) =>
          let s := s.fetchAhead p (pc + flow.len - 1)
          if pc + flow.len ≥ procWords p ∧ !(holds && decide (flow ≠ .next)) then s.takeTrap p (trapOf Vec.fetch)
          else if cond = 0xF ∨ !legal then s.takeTrap p (trapOf Vec.illegal)
          else if !holds then s.retire p (pc + flow.len) PmEv.condFalse
          else s.settle p flow.len (body s)

/-! ### Operand tags (R96, R97) -/

def intLike (t : Tag) : Bool := t == Tag.int || t == Tag.raw
def offLike (t : Tag) : Bool := t == Tag.int || t == Tag.raw || t == Tag.ptr

/-- The trap of operands, each with the tags it accepts: POISON before TAG, the first operand at fault named (R96, R97,
R112). -/
def operandTrap (ops : List (TWord × (Tag → Bool))) : Option TrapInfo :=
  if ops.any fun o => o.1.tag == Tag.poison then some poisonTrap
  else (ops.find? fun o => !o.2 o.1.tag).map fun o => tagTrap o.1.tag

/-! ### The segment check (R81, R103) -/

/-- The permissions that an access needs. -/
structure Need where
  r : Bool
  w : Bool
  a : Bool
  deriving DecidableEq, Repr

def Need.none : Need := ⟨false, false, false⟩
def Need.read : Need := ⟨true, false, false⟩
def Need.write : Need := ⟨false, true, false⟩

/-- The segment offset (R81): the payload, or 64 times it, plus the displacement. -/
def segOff (ra : Word) (l : Bool) (disp : Int) : Int := (if l then ra.toNat * 64 else ra.toNat) + disp

def segTrap (v : BitVec 4) (seg : BitVec 3) (off : Int) : TrapInfo :=
  { trapOf v with seg := seg, eaddr := BitVec.ofInt 32 off }

/-- `seg_check`: the flask address of the access, or the trap. -/
def segCheck (a : Arch) (seg : BitVec 3) (off : Int) (size : Nat) (need : Need) : Except TrapInfo Nat :=
  let d := a.desc seg
  if off % (min size 4 : Nat) ≠ 0 then .error (segTrap Vec.align seg off)
  else if d.lines = 0 then .error (segTrap Vec.segment seg off)
  else if off < 0 ∨ d.lines.toNat * 64 < off + size then .error (segTrap Vec.segment seg off)
  else if (need.r && !d.pr) || (need.w && !d.pw) || (need.a && !d.pa) then .error (segTrap Vec.access seg off)
  else .ok (d.base.toNat + off.toNat)

/-- The priority of the vectors that the check of an address may raise (R112). -/
def addrPriority (v : BitVec 4) : Nat := if v = Vec.align then 7 else if v = Vec.segment then 8 else if v = Vec.access then 9 else 11

/-- The checks of an instruction's two ends: of two conditions that it meets, the one of the higher priority (R112). -/
def bothChecks {α β : Type} (x : Except TrapInfo α) (y : Except TrapInfo β) : Except TrapInfo (α × β) :=
  match x, y with
  | .ok a, .ok b => .ok (a, b)
  | .error t, .ok _ => .error t
  | .ok _, .error u => .error u
  | .error t, .error u => .error (if addrPriority u.vector < addrPriority t.vector then u else t)

/-- Where a checked access goes. -/
inductive Place where
  | own (fa : Nat)        -- the core's own core store
  | cluster (fa : Nat)    -- its cluster store
  | away (fa : Nat)       -- any other home
  deriving DecidableEq, Repr

def Place.fa : Place → Nat
  | .own a => a
  | .cluster a => a
  | .away a => a

def Place.isLocal : Place → Bool
  | .away _ => false
  | _ => true

/-- Translation of a checked address, and the home's check where the home is the core's own cluster (R102, R203, R204). -/
def locate (s : State) (p : Proc) (d : Desc) (seg : BitVec 3) (off : Int) (addr : Nat) : Except TrapInfo Place :=
  match translate s d.flask addr with
  | none => .error (segTrap Vec.access seg off)
  | some fa =>
    let own := match p with
      | .core c => space fa == 0 && fa / 2 ^ 24 == coreBase c / 2 ^ 24
      | _ => false
    let clus := space fa == 1 && some (faCluster fa) == procCluster p
    if own || clus then
      if !faValid fa then .error (segTrap Vec.bus seg off)
      else if homeOk s d.flask fa then .ok (if own then .own fa else .cluster fa)
      else .error (segTrap Vec.access seg off)
    else .ok (.away fa)

/-- Tagged memory: core stores and cluster stores (R70). -/
def Place.tagged (pl : Place) : Bool := space pl.fa == 0 || space pl.fa == 1

/-- A request leaves the core for the home of its address. -/
def State.sendReq (s : State) (p : Proc) (d : Desc) (seg : BitVec 3) (off : Int) (fa : Nat) (posted : Bool) (op : MemOp) :
    State :=
  let s := match op with
    | .load _ => s.modCore p fun k => k.bump PmEv.remoteLoads 1
    | _ => s
  { s with fab := { s.fab with
      nextId := s.fab.nextId + 1
      reqs := s.fab.reqs ++ [⟨s.fab.nextId, p, (s.core p).gen, BitVec.ofNat 48 fa, d.flask, seg,
        BitVec.ofInt 32 off, posted, op⟩] } }

end Sys2Proof.Machine
end

