-- ==== Sys2Proof/Machine/Operands.lean ====
section
/-!
DEFINITION. The operand forms of the register instructions: which tags they take, which tag their result has, and the
bodies that the instructions of one form share (R75–R80, R96, R97).
-/

namespace Sys2Proof.Machine

/-- Every operand INT or RAW; the result is INT (R96). -/
def intRule (ops : List TWord) : Except TrapInfo Tag :=
  match operandTrap (ops.map fun w => (w, intLike)) with
  | some t => .error t
  | none => .ok Tag.int

/-- add, sub and addi: one PTR beside INT or RAW gives PTR; two PTR give INT where `two` allows them (R96). -/
def ptrRule (two : Bool) (a b : TWord) : Except TrapInfo Tag :=
  match operandTrap [(a, offLike), (b, offLike)] with
  | some t => .error t
  | none =>
    if a.tag = Tag.ptr ∧ b.tag = Tag.ptr then (if two then .ok Tag.int else .error (tagTrap Tag.ptr))
    else if a.tag = Tag.ptr ∨ b.tag = Tag.ptr then .ok Tag.ptr
    else .ok Tag.int

/-- cmp: both INT or RAW, or both PTR (R96). -/
def cmpRule (a b : TWord) : Except TrapInfo Tag :=
  if a.tag = Tag.ptr ∧ b.tag = Tag.ptr then .ok Tag.int else intRule [a, b]

/-- Operands of one type or RAW (R96). -/
def typeRule (want res : Tag) (ops : List TWord) : Except TrapInfo Tag :=
  match operandTrap (ops.map fun w => (w, fun t => t == want || t == Tag.raw)) with
  | some t => .error t
  | none => .ok res

/-- rd takes the result and, where the instruction sets flags, the flags are set. -/
def writeResult (p : Proc) (rd : RegNo) (setFlags : Bool) (s : State) (tag : Tag) (r : Word × FlagSet) : Body :=
  .ok (s.modCore p fun c =>
    (c.setReg rd ⟨r.1, tag⟩).setStat (c.a.stat.put (if setFlags then r.2 else FlagSet.keep)))

/-- Class 0x0 with two source registers (R75). -/
def aluR (p : Proc) (f : AluR) (rule : TWord → TWord → Except TrapInfo Tag) (op : Word → Word → Stat → Word × FlagSet)
    (s : State) : Host.Outcome State Fault Refusal :=
  .next (s.issue p f.cond (f.resv == 0) .next fun s =>
    let c := s.core p
    match rule (c.reg f.ra) (c.reg f.rb) with
    | .error t => .trap s t
    | .ok tag => writeResult p f.rd f.s s tag (op (c.reg f.ra).payload (c.reg f.rb).payload c.a.stat))

/-- Class 0x0 with one source register (R75). -/
def aluU (p : Proc) (f : AluR) (op : Word → Word × FlagSet) (s : State) : Host.Outcome State Fault Refusal :=
  .next (s.issue p f.cond (f.resv == 0) .next fun s =>
    let c := s.core p
    match intRule [c.reg f.ra] with
    | .error t => .trap s t
    | .ok tag => writeResult p f.rd f.s s tag (op (c.reg f.ra).payload))

/-- Class 0x1 (R76); the immediate is given as a word tagged INT. -/
def aluI (p : Proc) (f : AluI) (imm : Word) (rule : TWord → TWord → Except TrapInfo Tag) (op : Word → Word → Word × FlagSet)
    (s : State) : Host.Outcome State Fault Refusal :=
  .next (s.issue p f.cond true .next fun s =>
    let c := s.core p
    match rule (c.reg f.ra) ⟨imm, Tag.int⟩ with
    | .error t => .trap s t
    | .ok tag => writeResult p f.rd f.s s tag (op (c.reg f.ra).payload imm))

/-- Two operands of INT or RAW. -/
def intRule2 (a b : TWord) : Except TrapInfo Tag := intRule [a, b]

/-- The sticky bits set by class 0x4 (R80). -/
def Stat.stick (t : Stat) (f : FFlags) : Stat :=
  { t with finv := t.finv || f.inv, fdz := t.fdz || f.dz, fov := t.fov || f.ov, fuf := t.fuf || f.uf
           xsat := t.xsat || f.xsat }

/-- Class 0x4 (R79): the operands in `ops`, the tag they take, the tag of the result. -/
def fpOp (p : Proc) (f : FpF) (ops : Core → List TWord) (want res : Tag) (op : Core → Word × FFlags) (s : State) :
    Host.Outcome State Fault Refusal :=
  .next (s.issue p f.cond (f.resv == 0) .next fun s =>
    let c := s.core p
    match typeRule want res (ops c) with
    | .error t => .trap s t
    | .ok tag =>
      .ok (s.modCore p fun c => (c.setReg f.rd ⟨(op c).1, tag⟩).setStat (c.a.stat.stick (op c).2)))

/-- Class 0x4 over ra and rb. -/
def fp2 (p : Proc) (f : FpF) (want res : Tag) (op : Word → Word → Word × FFlags) (s : State) :
    Host.Outcome State Fault Refusal :=
  fpOp p f (fun c => [c.reg f.ra, c.reg f.rb]) want res (fun c => op (c.reg f.ra).payload (c.reg f.rb).payload) s

/-- Class 0x4 over ra alone. -/
def fp1 (p : Proc) (f : FpF) (want res : Tag) (op : Word → Word × FFlags) (s : State) :
    Host.Outcome State Fault Refusal :=
  fpOp p f (fun c => [c.reg f.ra]) want res (fun c => op (c.reg f.ra).payload) s

/-- rb of class 0x3 (R78). -/
def cmpRb (f : CmpF) : RegNo := f.operand.extractLsb' 8 4
/-- The tag immediate of class 0x3. -/
def cmpTag (f : CmpF) : Tag := f.operand.extractLsb' 0 4

end Sys2Proof.Machine
end

