-- ==== Sys2Proof/Machine/Alu.lean ====
section
/-!
DEFINITION. Classes 0x0 to 0x4: arithmetic, move immediate, compare and tag, binary32 and fixed point (R75–R80).
-/

namespace Sys2Proof.Machine

/-! ### Class 0x0 (R75) -/

/-- add (R75, R96). -/
def execAdd (p : Proc) (f : AluR) (s : State) : Host.Outcome State Fault Refusal :=
  aluR p f (ptrRule false) (fun a b _ => addWith a b false) s

/-- sub (R75, R96). -/
def execSub (p : Proc) (f : AluR) (s : State) : Host.Outcome State Fault Refusal :=
  aluR p f (ptrRule true) (fun a b _ => subWith a b true) s

/-- and (R75). -/
def execAnd (p : Proc) (f : AluR) (s : State) : Host.Outcome State Fault Refusal :=
  aluR p f intRule2 (fun a b _ => logicFlags (a &&& b)) s

/-- or (R75). -/
def execOr (p : Proc) (f : AluR) (s : State) : Host.Outcome State Fault Refusal :=
  aluR p f intRule2 (fun a b _ => logicFlags (a ||| b)) s

/-- xor (R75). -/
def execXor (p : Proc) (f : AluR) (s : State) : Host.Outcome State Fault Refusal :=
  aluR p f intRule2 (fun a b _ => logicFlags (a ^^^ b)) s

/-- andn (R75). -/
def execAndn (p : Proc) (f : AluR) (s : State) : Host.Outcome State Fault Refusal :=
  aluR p f intRule2 (fun a b _ => logicFlags (a &&& ~~~b)) s

/-- shl: the amount is rb[4:0] (R75). -/
def execShl (p : Proc) (f : AluR) (s : State) : Host.Outcome State Fault Refusal :=
  aluR p f intRule2 (fun a b _ => opShl a (b.toNat % 32)) s

/-- shr: the amount is rb[4:0] (R75). -/
def execShr (p : Proc) (f : AluR) (s : State) : Host.Outcome State Fault Refusal :=
  aluR p f intRule2 (fun a b _ => opShr a (b.toNat % 32)) s

/-- sar: the amount is rb[4:0] (R75). -/
def execSar (p : Proc) (f : AluR) (s : State) : Host.Outcome State Fault Refusal :=
  aluR p f intRule2 (fun a b _ => opSar a (b.toNat % 32)) s

/-- rol: the amount is rb[4:0] (R75). -/
def execRol (p : Proc) (f : AluR) (s : State) : Host.Outcome State Fault Refusal :=
  aluR p f intRule2 (fun a b _ => opRol a (b.toNat % 32)) s

/-- mul (R75). -/
def execMul (p : Proc) (f : AluR) (s : State) : Host.Outcome State Fault Refusal :=
  aluR p f intRule2 (fun a b _ => opMul a b) s

/-- mulhs (R75). -/
def execMulhs (p : Proc) (f : AluR) (s : State) : Host.Outcome State Fault Refusal :=
  aluR p f intRule2 (fun a b _ => opMulhs a b) s

/-- mulhu (R75). -/
def execMulhu (p : Proc) (f : AluR) (s : State) : Host.Outcome State Fault Refusal :=
  aluR p f intRule2 (fun a b _ => opMulhu a b) s

/-- divs (R75). -/
def execDivs (p : Proc) (f : AluR) (s : State) : Host.Outcome State Fault Refusal :=
  aluR p f intRule2 (fun a b _ => opDivs a b) s

/-- divu (R75). -/
def execDivu (p : Proc) (f : AluR) (s : State) : Host.Outcome State Fault Refusal :=
  aluR p f intRule2 (fun a b _ => opDivu a b) s

/-- rems (R75). -/
def execRems (p : Proc) (f : AluR) (s : State) : Host.Outcome State Fault Refusal :=
  aluR p f intRule2 (fun a b _ => opRems a b) s

/-- remu (R75). -/
def execRemu (p : Proc) (f : AluR) (s : State) : Host.Outcome State Fault Refusal :=
  aluR p f intRule2 (fun a b _ => opRemu a b) s

/-- min (R75). -/
def execMin (p : Proc) (f : AluR) (s : State) : Host.Outcome State Fault Refusal :=
  aluR p f intRule2 (fun a b _ => pick (decide (a.toInt ≤ b.toInt)) a b) s

/-- max (R75). -/
def execMax (p : Proc) (f : AluR) (s : State) : Host.Outcome State Fault Refusal :=
  aluR p f intRule2 (fun a b _ => pick (decide (b.toInt ≤ a.toInt)) a b) s

/-- minu (R75). -/
def execMinu (p : Proc) (f : AluR) (s : State) : Host.Outcome State Fault Refusal :=
  aluR p f intRule2 (fun a b _ => pick (decide (a.toNat ≤ b.toNat)) a b) s

/-- maxu (R75). -/
def execMaxu (p : Proc) (f : AluR) (s : State) : Host.Outcome State Fault Refusal :=
  aluR p f intRule2 (fun a b _ => pick (decide (b.toNat ≤ a.toNat)) a b) s

/-- clz (R75). -/
def execClz (p : Proc) (f : AluR) (s : State) : Host.Outcome State Fault Refusal :=
  aluU p f (fun a => opCount (leadingZeros a)) s

/-- popc (R75). -/
def execPopc (p : Proc) (f : AluR) (s : State) : Host.Outcome State Fault Refusal :=
  aluU p f (fun a => opCount (onesBelow a 32)) s

/-- mov: payload and tag; `S` must be 0 (R75, R97). -/
def execMov (p : Proc) (f : AluR) (s : State) : Host.Outcome State Fault Refusal :=
  .next (s.issue p f.cond (f.resv == 0 && !f.s) .next fun s =>
    .ok (s.modCore p fun c => c.setReg f.rd (c.reg f.ra)))

/-- adc (R75). -/
def execAdc (p : Proc) (f : AluR) (s : State) : Host.Outcome State Fault Refusal :=
  aluR p f intRule2 (fun a b t => addWith a b t.c) s

/-- sbc (R75). -/
def execSbc (p : Proc) (f : AluR) (s : State) : Host.Outcome State Fault Refusal :=
  aluR p f intRule2 (fun a b t => subWith a b t.c) s

/-! ### Class 0x1 (R76) -/

/-- addi (R76, R96). -/
def execAddi (p : Proc) (f : AluI) (s : State) : Host.Outcome State Fault Refusal :=
  aluI p f (f.imm.signExtend 32) (ptrRule false) (fun a b => addWith a b false) s

/-- andi (R76). -/
def execAndi (p : Proc) (f : AluI) (s : State) : Host.Outcome State Fault Refusal :=
  aluI p f (f.imm.zeroExtend 32) intRule2 (fun a b => logicFlags (a &&& b)) s

/-- ori (R76). -/
def execOri (p : Proc) (f : AluI) (s : State) : Host.Outcome State Fault Refusal :=
  aluI p f (f.imm.zeroExtend 32) intRule2 (fun a b => logicFlags (a ||| b)) s

/-- xori (R76). -/
def execXori (p : Proc) (f : AluI) (s : State) : Host.Outcome State Fault Refusal :=
  aluI p f (f.imm.zeroExtend 32) intRule2 (fun a b => logicFlags (a ^^^ b)) s

/-- shli: the amount is imm[4:0] (R76). -/
def execShli (p : Proc) (f : AluI) (s : State) : Host.Outcome State Fault Refusal :=
  aluI p f (f.imm.zeroExtend 32) intRule2 (fun a b => opShl a (b.toNat % 32)) s

/-- shri: the amount is imm[4:0] (R76). -/
def execShri (p : Proc) (f : AluI) (s : State) : Host.Outcome State Fault Refusal :=
  aluI p f (f.imm.zeroExtend 32) intRule2 (fun a b => opShr a (b.toNat % 32)) s

/-- sari: the amount is imm[4:0] (R76). -/
def execSari (p : Proc) (f : AluI) (s : State) : Host.Outcome State Fault Refusal :=
  aluI p f (f.imm.zeroExtend 32) intRule2 (fun a b => opSar a (b.toNat % 32)) s

/-- muli (R76). -/
def execMuli (p : Proc) (f : AluI) (s : State) : Host.Outcome State Fault Refusal :=
  aluI p f (f.imm.signExtend 32) intRule2 opMul s

/-! ### Class 0x2 (R77) -/

/-- movi (R77). -/
def execMovi (p : Proc) (f : MovI) (s : State) : Host.Outcome State Fault Refusal :=
  .next (s.issue p f.cond true .next fun s =>
    .ok (s.modCore p fun c => c.setReg f.rd ⟨f.imm.signExtend 32, Tag.int⟩))

/-- movui (R77). -/
def execMovui (p : Proc) (f : MovI) (s : State) : Host.Outcome State Fault Refusal :=
  .next (s.issue p f.cond true .next fun s =>
    .ok (s.modCore p fun c => c.setReg f.rd ⟨f.imm.zeroExtend 32, Tag.int⟩))

/-- movhi: rd is a source too (R77). -/
def execMovhi (p : Proc) (f : MovI) (s : State) : Host.Outcome State Fault Refusal :=
  .next (s.issue p f.cond true .next fun s =>
    let w := (s.core p).reg f.rd
    if w.tag = Tag.poison then .trap s poisonTrap
    else .ok (s.modCore p fun c => c.setReg f.rd ⟨f.imm ++ w.payload.extractLsb' 0 16, w.tag⟩))

/-! ### Class 0x3 (R78) -/

/-- cmp (R78, R96). -/
def execCmp (p : Proc) (f : CmpF) (s : State) : Host.Outcome State Fault Refusal :=
  .next (s.issue p f.cond true .next fun s =>
    let c := s.core p
    match cmpRule (c.reg f.ra) (c.reg (cmpRb f)) with
    | .error t => .trap s t
    | .ok _ => .ok (s.modCore p fun c =>
        c.setStat (c.a.stat.put (subWith (c.reg f.ra).payload (c.reg (cmpRb f)).payload true).2)))

/-- cmpi (R78). -/
def execCmpi (p : Proc) (f : CmpF) (s : State) : Host.Outcome State Fault Refusal :=
  .next (s.issue p f.cond true .next fun s =>
    let c := s.core p
    match intRule [c.reg f.ra] with
    | .error t => .trap s t
    | .ok _ => .ok (s.modCore p fun c =>
        c.setStat (c.a.stat.put (subWith (c.reg f.ra).payload (f.operand.signExtend 32) true).2)))

/-- fcmp (R78). -/
def execFcmp (p : Proc) (f : CmpF) (s : State) : Host.Outcome State Fault Refusal :=
  .next (s.issue p f.cond true .next fun s =>
    let c := s.core p
    match typeRule Tag.f32 Tag.f32 [c.reg f.ra, c.reg (cmpRb f)] with
    | .error t => .trap s t
    | .ok _ =>
      let r := fCmp (c.reg f.ra).payload (c.reg (cmpRb f)).payload
      .ok (s.modCore p fun c => c.setStat { c.a.stat with
        z := r.1.1, n := r.1.2.1, c := r.1.2.2.1, v := r.1.2.2.2, finv := c.a.stat.finv || r.2 }))

/-- tcmp (R78, R97). -/
def execTcmp (p : Proc) (f : CmpF) (s : State) : Host.Outcome State Fault Refusal :=
  .next (s.issue p f.cond true .next fun s =>
    .ok (s.modCore p fun c => c.setStat { c.a.stat with t := decide ((c.reg f.ra).tag = (c.reg (cmpRb f)).tag) }))

/-- tchk; a reserved tag in the immediate is ILLEGAL (R71, R78). -/
def execTchk (p : Proc) (f : CmpF) (s : State) : Host.Outcome State Fault Refusal :=
  .next (s.issue p f.cond (!(cmpTag f).reserved) .next fun s =>
    .ok (s.modCore p fun c => c.setStat { c.a.stat with t := decide ((c.reg f.ra).tag = cmpTag f) }))

/-- tget (R78). -/
def execTget (p : Proc) (f : CmpF) (s : State) : Host.Outcome State Fault Refusal :=
  .next (s.issue p f.cond true .next fun s =>
    .ok (s.modCore p fun c => c.setReg f.rd ⟨(c.reg f.ra).tag.zeroExtend 32, Tag.int⟩))

/-- tset; a reserved tag is ILLEGAL (R71, R78). -/
def execTset (p : Proc) (f : CmpF) (s : State) : Host.Outcome State Fault Refusal :=
  .next (s.issue p f.cond (!(cmpTag f).reserved) .next fun s =>
    .ok (s.modCore p fun c => c.setReg f.rd ⟨(c.reg f.ra).payload, cmpTag f⟩))

/-- tsetr; a reserved value is ILLEGAL (R78). -/
def execTsetr (p : Proc) (f : CmpF) (s : State) : Host.Outcome State Fault Refusal :=
  .next (s.issue p f.cond true .next fun s =>
    let t : Tag := ((s.core p).reg (cmpRb f)).payload.extractLsb' 0 4
    if t.reserved then .trap s (trapOf Vec.illegal)
    else .ok (s.modCore p fun c => c.setReg f.rd ⟨(c.reg f.ra).payload, t⟩))

/-! ### Class 0x4 (R79, R80) -/

/-- fadd (R79). -/
def execFadd (p : Proc) (f : FpF) (s : State) : Host.Outcome State Fault Refusal :=
  fp2 p f Tag.f32 Tag.f32 (fAdd) s

/-- fsub (R79). -/
def execFsub (p : Proc) (f : FpF) (s : State) : Host.Outcome State Fault Refusal :=
  fp2 p f Tag.f32 Tag.f32 (fSub) s

/-- fmul (R79). -/
def execFmul (p : Proc) (f : FpF) (s : State) : Host.Outcome State Fault Refusal :=
  fp2 p f Tag.f32 Tag.f32 (fMul) s

/-- fmin (R79). -/
def execFmin (p : Proc) (f : FpF) (s : State) : Host.Outcome State Fault Refusal :=
  fp2 p f Tag.f32 Tag.f32 (fMinMax false) s

/-- fmax (R79). -/
def execFmax (p : Proc) (f : FpF) (s : State) : Host.Outcome State Fault Refusal :=
  fp2 p f Tag.f32 Tag.f32 (fMinMax true) s

/-- fdiv (R79). -/
def execFdiv (p : Proc) (f : FpF) (s : State) : Host.Outcome State Fault Refusal :=
  fp2 p f Tag.f32 Tag.f32 (fDiv) s

/-- fma, rounded once (R79). -/
def execFma (p : Proc) (f : FpF) (s : State) : Host.Outcome State Fault Refusal :=
  fpOp p f (fun c => [c.reg f.ra, c.reg f.rb, c.reg f.rc]) Tag.f32 Tag.f32
    (fun c => fMa (c.reg f.ra).payload (c.reg f.rb).payload (c.reg f.rc).payload) s

/-- fneg; rb is ignored (R79). -/
def execFneg (p : Proc) (f : FpF) (s : State) : Host.Outcome State Fault Refusal :=
  fp1 p f Tag.f32 Tag.f32 fNeg s

/-- fsqrt (R79). -/
def execFsqrt (p : Proc) (f : FpF) (s : State) : Host.Outcome State Fault Refusal :=
  fp1 p f Tag.f32 Tag.f32 fSqrt s

/-- i2f (R79). -/
def execI2f (p : Proc) (f : FpF) (s : State) : Host.Outcome State Fault Refusal :=
  fp1 p f Tag.int Tag.f32 i2F s

/-- f2i (R79). -/
def execF2i (p : Proc) (f : FpF) (s : State) : Host.Outcome State Fault Refusal :=
  fp1 p f Tag.f32 Tag.int f2I s

/-- fxadd (R79). -/
def execFxadd (p : Proc) (f : FpF) (s : State) : Host.Outcome State Fault Refusal :=
  fp2 p f Tag.fx Tag.fx fxAdd s

/-- fxsub (R79). -/
def execFxsub (p : Proc) (f : FpF) (s : State) : Host.Outcome State Fault Refusal :=
  fp2 p f Tag.fx Tag.fx fxSub s

/-- fxmul (R79). -/
def execFxmul (p : Proc) (f : FpF) (s : State) : Host.Outcome State Fault Refusal :=
  fp2 p f Tag.fx Tag.fx fxMul s

/-- fx2f (R79). -/
def execFx2f (p : Proc) (f : FpF) (s : State) : Host.Outcome State Fault Refusal :=
  fp1 p f Tag.fx Tag.f32 fx2F s

/-- f2fx (R79). -/
def execF2fx (p : Proc) (f : FpF) (s : State) : Host.Outcome State Fault Refusal :=
  fp1 p f Tag.f32 Tag.fx f2Fx s

end Sys2Proof.Machine
end

