-- ==== Sys2Proof/Machine/Identity.lean ====
section
/-!
DEFINITION. What the security core derives from its seed and its keys: HMAC-SHA-512, the identity, the link keys and the XTS
payloads of the twin link (spec/14_security_and_ownership.md, R416–R418; spec/15_twins.md, R455, R456).
-/

namespace Sys2Proof.Machine

/-- The ASCII bytes of a string. -/
def ascii (x : String) : List Byte := x.toList.map fun c => BitVec.ofNat 8 c.toNat

def sha512 (bs : List Byte) : List Byte := leBytes 64 (Config.sha512 bs).toNat

/-- HMAC-SHA-512 (FIPS 198-1): keys of at most the 128-byte block, which all keys here are. -/
def hmac512 (key msg : List Byte) : List Byte :=
  let k := key ++ List.replicate (128 - key.length) 0
  sha512 (k.map (· ^^^ 0x5C) ++ sha512 (k.map (· ^^^ 0x36) ++ msg))

/-- The first 32 bytes of an HMAC, as a number. -/
def hmacKey (key : List Byte) (msg : List Byte) : BitVec 256 := BitVec.ofNat 256 (leNat ((hmac512 key msg).take 32))

/-- A value derived from the identity seed under a label (R416). -/
def State.derive (s : State) (label : String) : BitVec 256 := hmacKey (leBytes 32 s.sec.seed.toNat) (ascii label)

/-- The Ed25519 private seed of the identity key, the provisioning key and the store key (R416). -/
def State.idSeed (s : State) : BitVec 256 := s.derive "olmen-id"
def State.dpk (s : State) : BitVec 256 := s.derive "olmen-prov"
def State.dsk (s : State) : BitVec 256 := s.derive "olmen-store"

/-- The identity public key, and the device identity: the first 16 bytes of its SHA-512 (R417). -/
def State.pubKey (s : State) : BitVec 256 := Config.edPublic s.idSeed
def State.ident (s : State) : List Byte := (sha512 (leBytes 32 s.pubKey.toNat)).take 16

/-- A word of the identity and of the public key, as `ID.IDENT` and `ID.PUBKEY` show them. -/
def State.identWord (s : State) (i : Nat) : Word := BitVec.ofNat 32 (leNat ((s.ident.drop (4 * i)).take 4))
def State.pubKeyWord (s : State) (i : Nat) : Word := s.pubKey.extractLsb' (32 * i) 32

/-- A 256-bit key under RFC 5649, and what comes out of a wrap of one; none where it is not a 256-bit key. -/
def unwrap256 (kek : BitVec 256) (blob : List Byte) : Option (BitVec 256) :=
  match Config.keyUnwrap (leBytes 32 kek.toNat) blob with
  | some k => if k.length = 32 then some (BitVec.ofNat 256 (leNat k)) else none
  | none => none

/-- What flash holds of the device unlock key and of K_P: their wraps under DSK (R418, R459). -/
def State.sealed (s : State) (k : Option (BitVec 256)) : Option (List Byte) :=
  k.map fun k => Config.keyWrap (leBytes 32 s.dsk.toNat) (leBytes 32 k.toNat)

/-- A key of a registered mould-verification key, where one is registered (R431). -/
def State.mouldKey (s : State) (i : Nat) : Option (BitVec 256) :=
  if i < 16 ∧ (s.reg 0x600300).getLsbD i then
    some (BitVec.ofNat 256 (leNat ((List.range 8).flatMap fun w => Word.bytes (s.reg (0x600100 + 32 * i + 4 * w)))))
  else none

/-- Random bits of the module's source: so many free 64-bit values. -/
def State.random (s : State) (n : Nat) : Nat :=
  leNat ((List.range n).flatMap fun i => leBytes 8 (Config.freeValue (s.fresh + i)).toNat)

/-! ### The twin link's keys (R455, R456) -/

/-- The link key of an epoch; none where no pair key is held. -/
def State.linkKey (s : State) (epoch : Word) : Option (BitVec 256) :=
  s.twin.kp.map fun k => hmacKey (leBytes 32 k.toNat) (ascii "olmen-twin" ++ leBytes 4 epoch.toNat)

/-- The tweak of unit i of an XTS payload: the message's number, and its direction, 1 from module B. -/
def xtsTweak (fromB : Bool) (seq i : Nat) : BitVec 128 :=
  BitVec.ofNat 128 (2 ^ 127 + (if fromB then 2 ^ 95 else 0) + (seq * 64 + i) % 2 ^ 64)

/-- The 64-byte units of a payload; the last is filled with zeros. -/
def units64 (bs : List Byte) : List (List Byte) :=
  (List.range ((bs.length + 63) / 64)).map fun i =>
    let u := (bs.drop (64 * i)).take 64
    u ++ List.replicate (64 - u.length) 0

/-- Each unit of a payload under a cipher and its tweak. -/
def xtsUnits (cipher : BitVec 128 → List Byte → List Byte) (fromB : Bool) (seq : Nat) (bs : List Byte) : List Byte :=
  ((units64 bs).zipIdx).flatMap fun u => cipher (xtsTweak fromB seq u.2) u.1

/-- The key of a flask of the module's own; and of one of the peer's, as the peer has mirrored it. -/
def State.ownKey (s : State) (f : FlaskId) : BitVec 512 := (s.flask f).key.getD 0
def State.peerKey (s : State) (f : FlaskId) : Option (BitVec 512) :=
  s.twin.mirror.findSome? fun x => match x with
    | .key g k => if g = f then some (BitVec.ofNat 512 (leNat k)) else none
    | _ => none

/-- A body as it leaves: the data of a flask are encrypted under its key, and keys are wrapped under the link key. -/
def State.sealBody (s : State) (epoch : Word) (seq : Nat) (b : TwinBody) : TwinBody :=
  let enc (f : FlaskId) (bs : List Byte) := xtsUnits (Config.xtsEncrypt (s.ownKey f)) s.twin.roleB seq bs
  let wrap (k : List Byte) := match s.linkKey epoch with
    | some l => Config.keyWrap (leBytes 32 l.toNat) k
    | none => []
  match b with
  | .windowWrite (some f) a bs => .windowWrite (some f) a (enc f bs)
  | .readResp (some f) bs => .readResp (some f) (enc f bs)
  | .mirror (.key f k) => .mirror (.key f (wrap k))
  | .mirror (.setup f p (some k)) => .mirror (.setup f p (some (wrap k)))
  | b => b

/-- A body that arrived, opened; none where a key does not unwrap, or the flask's key is not here. -/
def State.openBody (s : State) (m : TwinMsg) : Option TwinBody :=
  let dec (f : FlaskId) (bs : List Byte) : Option (List Byte) :=
    (s.peerKey f).map fun k => xtsUnits (Config.xtsDecrypt k) (!s.twin.roleB) m.seq.toNat bs
  let unwrap (k : List Byte) : Option (List Byte) := (s.linkKey m.epoch).bind fun l => Config.keyUnwrap (leBytes 32 l.toNat) k
  match m.body with
  | .windowWrite (some f) a bs => (dec f bs).map fun x => .windowWrite (some f) a x
  | .readResp (some f) bs => (dec f bs).map fun x => .readResp (some f) x
  | .mirror (.key f k) => (unwrap k).map fun x => .mirror (.key f x)
  | .mirror (.setup f p (some k)) => (unwrap k).map fun x => .mirror (.setup f p (some x))
  | b => some b

/-- `TYPE`, and the flask of an `XTS` payload (R455). -/
def TwinBody_type : TwinBody → Byte
  | .heartbeat => 1
  | .hello .. => 2
  | .mirror _ => 3
  | .windowWrite .. => 4
  | .windowRead .. => 5
  | .readResp .. => 6
  | .ingotStream .. => 7
  | .register .. => 8

def TwinBody_xts : TwinBody → Option FlaskId
  | .windowWrite f .. => f
  | .readResp f _ => f
  | _ => none

/-- The 16-byte header of a message (R455). -/
def twinHeader (epoch : Word) (seq : Nat) (b : TwinBody) : List Byte :=
  let x := TwinBody_xts b
  [TwinBody_type b, if x.isSome then 1 else 0] ++ leBytes 2 ((x.map fun f => f.toNat).getD 0x1FF) ++ leBytes 4 epoch.toNat ++ leBytes 8 seq

/-- The tag of a message under the link key of its epoch, over its header and its payload as it stands on the link; its IV is the
message's number and its direction (R455). -/
def State.linkTag (s : State) (fromB : Bool) (epoch : Word) (seq : Nat) (b : TwinBody) : BitVec 128 :=
  match s.linkKey epoch with
  | none => 0
  | some k => Config.gmac (leBytes 32 k.toNat) (BitVec.ofNat 96 (seq % 2 ^ 64 + if fromB then 2 ^ 95 else 0))
      (twinHeader epoch seq b ++ Config.twinPayload b)

/-- Whether the tag of a message from the peer is right. -/
def State.tagged (s : State) (m : TwinMsg) : Bool := m.tag == s.linkTag (!s.twin.roleB) m.epoch m.seq.toNat m.body

end Sys2Proof.Machine
end

