-- ==== Sys2Proof/Machine/Access.lean ====
section
/-!
DEFINITION. What a home does with an access, and block moves (R85, R86, R93, R98, R107–R109, R171, R222).
-/

namespace Sys2Proof.Machine

/-- The bytes of a halfword or byte within a word, as a number. -/
def subValue (w : Word) (a n : Nat) : Nat := bits w.toNat (8 * (a % 4) + 8 * n - 1) (8 * (a % 4))

/-- How a home ends an access. -/
inductive HomeRes where
  | word (w : TWord)      -- a load's word, or tas's old word with Z in `z`
  | tas (old : TWord) (z : Bool)
  | stored
  | cond (ok : Bool)
  | lost                  -- an uncorrectable or poisoned word or codeword
  | tagged (t : Tag)      -- the word there forbids the store (R98)
  deriving DecidableEq, Repr

/-- A load of the aligned word that holds the address. -/
def State.homeLoad (s : State) (fa : Nat) (src : Src) (ecc : EccReport) : State × HomeRes :=
  if space fa = 2 then
    let r := s.readCw (fa / 4 * 4) 4 src ecc
    if r.2.1 then (r.2.2, .lost)
    else
      let m := r.2.2.mixed fa ⟨BitVec.ofNat 32 (leNat r.1), Tag.raw⟩
      (m.1, .word m.2)
  else
    let r := s.readWord (fa / 4) src ecc
    if r.2.1 then (r.2.2, .lost)
    else
      let m := r.2.2.mixed fa r.1
      (m.1, .word m.2)

/-- A store of n bytes (R83, R98, R211, R222). -/
def State.homeStore (s : State) (fa n : Nat) (v : TWord) (src : Src) (ecc : EccReport) : State × HomeRes :=
  let bs := (Word.bytes v.payload).take n
  if space fa = 2 then
    let r := s.lineWrite fa bs src ecc
    (r.1, if r.2 then .stored else .lost)
  else
    let k := fa / 4
    let t := (s.mem.word k).tag
    let ue := decide (s.foundWord k ecc = .uncorrectable)
    if n = 4 then
      if t = Tag.lock ∧ !ue then (s, .tagged Tag.lock) else ((s.replaceWord k v src ecc).wrote fa none, .stored)
    else if !ue && !intLike t && t != Tag.poison then (s, .tagged t)
    else
      let r := s.partWord fa bs id src ecc
      if r.2 then (r.1.wrote fa none, .stored) else (r.1, .tagged Tag.poison)

/-- tas (R107): never over a LOCK or POISON word, nor one that is lost. A tas of the core `who` ends its own reservation on the
line even where it writes nothing (R109). -/
def State.homeTas (s : State) (who : Proc) (fa : Nat) (src : Src) (ecc : EccReport) : State × HomeRes :=
  let w := s.mem.word (fa / 4)
  let sound := decide (space fa ≠ 2) && decide (s.foundWord (fa / 4) ecc ≠ .uncorrectable)
  if sound && w.tag == Tag.lock then (s, .tagged Tag.lock)
  else
    let s := s.ownResv who (fa / 64)
    if sound && w.tag == Tag.poison then (s.logMem (sramMemory fa) true true src fa, .tas w false)
    else match s.homeLoad fa src ecc with
    | (s, .word w) =>
      if w.payload = 0 then
        match s.homeStore fa 4 ⟨1, Tag.int⟩ src .stored with
        | (s, .stored) => (s, .tas w true)
        | r => r
      else (s, .tas w false)
    | r => r

/-- The home sets the reservation of a core (R108). -/
def State.setResv (s : State) (p : Proc) (fa : Nat) : State :=
  s.modCore p fun k => { k with a := { k.a with resv := ⟨true, fa / 64⟩ } }

/-- scond: decided at the line's home; the store's own tag rule first (R98, R108). -/
def State.homeScond (s : State) (p : Proc) (fa : Nat) (v : TWord) (src : Src) (ecc : EccReport) : State × HomeRes :=
  let old := s.mem.word (fa / 4)
  if old.tag = Tag.lock ∧ s.foundWord (fa / 4) ecc ≠ .uncorrectable then (s, .tagged Tag.lock)
  else
    let r := (s.core p).a.resv
    let clear (s : State) : State := s.modCore p fun k => { k with a := { k.a with resv := ⟨false, r.line⟩ } }
    if r.valid && r.line == fa / 64 then (clear (s.homeStore fa 4 v src ecc).1, .cond true)
    else (clear s, .cond false)

/-! ### Block moves (R92, R93) -/

/-- The sixteen words of a source line with the tags that a tagged destination receives; `none` where a word or codeword
is lost. A source outside the flask is lost too. -/
def State.moveLine (s : State) (dom : Domain) (a : Nat) (deftag : Tag) : Option (List TWord) × State :=
  match translate s dom a with
  | none => (none, s)
  | some fa =>
    if !(faValid fa && homeOk s dom fa) then (none, s)
    else if space fa = 2 then
      let r := s.readCw fa 32 .move .stored
      let q := r.2.2.readCw (fa + 32) 32 .move .stored
      if r.2.1 || q.2.1 then (none, q.2.2)
      else (some ((List.range 16).map fun i =>
        (⟨BitVec.ofNat 32 (leNat (((r.1 ++ q.1).drop (4 * i)).take 4)), deftag⟩ : TWord)), q.2.2)
    else
      let r := (List.range 16).foldl (fun (r : List TWord × Bool × State) i =>
        let w := r.2.2.readWord (fa / 4 + i) .move .stored
        let t := if w.1.tag = Tag.lock ∨ w.1.tag = Tag.token then Tag.raw else w.1.tag
        ((r.1 ++ [(⟨w.1.payload, t⟩ : TWord)], (r.2.1 || w.2.1), w.2.2) : List TWord × Bool × State)) ([], false, s)
      if r.2.1 then (none, r.2.2) else (some r.1, r.2.2)

/-- A destination line written; `none` where it holds a LOCK word or lies outside the flask. -/
def State.putLine (s : State) (who : OutWho) (dom : Domain) (a : Nat) (ws : List TWord) : Option State :=
  if space a = 5 then
    let e : Ep := BitVec.ofNat 1 (a / 2 ^ 43)
    let x := s.ep e
    let r : OutReq :=
      ⟨s.fab.nextId, who, dom, BitVec.ofNat 48 a, 64, some (ws.flatMap fun w => Word.bytes w.payload)⟩
    let s := { s with fab := { s.fab with nextId := s.fab.nextId + 1 } }
    some (s.setEp e { x with queue := x.queue ++ [r] })
  else
    match translate s dom a with
    | none => none
    | some fa =>
      if !(faValid fa && homeOk s dom fa) then none
      else if space fa = 2 then some (s.wholeLine fa (ws.flatMap fun w => Word.bytes w.payload) .move)
      else if (List.range 16).any fun i => (s.mem.word (fa / 4 + i)).tag == Tag.lock then none
      else
        let s := (ws.zipIdx).foldl (fun s x => s.replaceWord (fa / 4 + x.2) x.1 .move .stored) s
        some ((List.range 16).foldl (fun s i => s.wakeTally (fa + 4 * i)) (s.breakResv (fa / 64) none))

/-- Line i of a move; `none` where it is the line that stops the move, of which nothing is written (DESIGN CHOICE, log entry 124: R93 says
only that no line beyond it is). -/
def State.moveOne (s : State) (who : Nat → OutWho) (m : Move) (i : Nat) : Option State × State :=
  let src := match m.data with
    | some bs => (some ((List.range 16).map fun j =>
        (⟨BitVec.ofNat 32 (leNat ((bs.drop (64 * i + 4 * j)).take 4)), m.deftag⟩ : TWord)), s)
    | none => s.moveLine m.sdom (m.src.toNat + 64 * i) m.deftag
  match src with
  | (none, s) => (none, s)
  | (some ws, s) => (s.putLine (who i) m.ddom (m.dst.toNat + 64 * i) ws, s)

/-- n lines of a move from line i on; the failing line, if one fails. -/
def State.moveLines (s : State) (who : Nat → OutWho) (m : Move) (i : Nat) : Nat → State × Option Nat
  | 0 => (s, none)
  | n + 1 => match s.moveOne who m i with
    | (some s, _) => State.moveLines s who m (i + 1) n
    | (none, s) => (s, some i)

/-- A move ends, at its last line or at the line that stops it (R93). -/
def State.endMove (s : State) (p : Proc) (slot : BitVec 2) (failed : Option Nat) : State :=
  s.modCore p fun k =>
    { k with moves := k.moves.set slot.toNat none slot.isLt
             moveErr := match failed with
               | none => k.moveErr
               | some i => k.moveErr ++ [(slot, i)] }

/-- A block move runs to its end, or to the line that stops it (R93). -/
def State.runMove (s : State) (p : Proc) (slot : BitVec 2) (m : Move) : State :=
  let r := s.moveLines (.move p (s.core p).gen slot) m m.next (m.lines - m.next)
  r.1.endMove p slot r.2

/-- One line of a move performed at its home, others being still to come (R176). -/
def State.stepMove (s : State) (p : Proc) (slot : BitVec 2) (m : Move) : State :=
  match s.moveOne (.move p (s.core p).gen slot) m m.next with
  | (some s, _) => s.modCore p fun k => { k with moves := k.moves.set slot.toNat (some { m with next := m.next + 1 }) slot.isLt }
  | (none, s) => s.endMove p slot (some m.next)

/-- Whether a move has lines still to write on a path. -/
def moveOnPath (s : State) (m : Move) (path : Nat) : Bool :=
  (List.range m.lines).any fun i => decide (m.next ≤ i) &&
    match translate s m.ddom (m.dst.toNat + 64 * i) with
    | none => false
    | some fa => pathOf fa == path

/-- A move put among others, older ones first. -/
def insertMove (x : BitVec 2 × Move) : List (BitVec 2 × Move) → List (BitVec 2 × Move)
  | [] => [x]
  | y :: r => if x.2.seq ≤ y.2.seq then x :: y :: r else y :: insertMove x r

/-- The outstanding moves of a processor, oldest first. -/
def Core.moveList (k : Core) : List (BitVec 2 × Move) :=
  ([0, 1, 2, 3] : List (BitVec 2)).foldl (fun r i =>
    match k.moves[i.toNat]'i.isLt with
    | some m => insertMove (i, m) r
    | none => r) []

/-- A move whose source in space 0x5 has not come yet. -/
def Move.dry (m : Move) : Bool := decide (space m.src.toNat = 5) && m.data.isNone

/-- A write of a core on a path waits for an earlier move whose lines on that path have no data yet (R171). -/
def State.moveHolds (s : State) (p : Proc) (fa : Nat) : Bool :=
  (s.core p).moveList.any fun e => e.2.dry && moveOnPath s e.2 (pathOf fa)

/-- A write of a core on its own path comes after the lines of its earlier moves on that path (R171). -/
def State.flushMoves (s : State) (p : Proc) (path : Nat) : State :=
  (s.core p).moveList.foldl (fun s e => if moveOnPath s e.2 path && !e.2.dry then s.runMove p e.1 e.2 else s) s

/-- Whether an operation reads the word at an index; a sideband list may go on for fifteen words. -/
def EngOp.reads (op : EngOp) (k : Nat) : Bool :=
  let in_ (a n : Nat) : Bool := decide (a / 4 ≤ k) && decide (k < a / 4 + n)
  match op.instr with
  | .edot _ f => in_ op.wbase (op.wlen + 15) || (!f.xp && in_ op.xbase (op.xlen + 15))
  | .epack _ _ => in_ op.wbase op.wlen
  | .emx _ _ => in_ op.wbase (op.wlen + 15)
  | _ => false

/-- Whether an operation may write the word at an index. -/
def EngOp.writes (op : EngOp) (k : Nat) : Bool :=
  match op.instr with
  | .epack _ _ => decide (op.xbase / 4 ≤ k) && decide (k < op.xbase / 4 + op.xlen)
  | .emx _ _ => decide (op.xbase / 4 ≤ k) && decide (k < op.xbase / 4 + op.xlen)
  | _ => false

/-- A store of the core to a word that an operation reads (R133). -/
def State.noteStore (s : State) (p : Proc) (fa : Nat) : State :=
  let k := s.core p
  if k.eng.toList.any fun g => g.queue.any fun op => op.reads (fa / 4) then
    s.setCore p { k with eng := k.eng.map fun g =>
      { g with queue := g.queue.map fun op => if op.reads (fa / 4) then { op with dirty := fa / 4 :: op.dirty } else op } }
  else s

/-- What comes before a write of a core at its own stores. -/
def State.beforeWrite (s : State) (p : Proc) (fa : Nat) : State := (s.flushMoves p (pathOf fa)).noteStore p fa

/-- Whether an engine's write of a word is not yet visible to its core (R133). -/
def Core.unseenAt (k : Core) (w : Nat) : Bool :=
  k.eng.toList.any fun g => g.unseen.any (fun r => decide (r.1 ≤ w) && decide (w < r.1 + r.2)) ||
    g.queue.any fun op => op.writes w

/-- A core's load from a store of its own; a word that an engine writes and has not made visible reads as a free value
(R133), with any tag that is not reserved (R71). -/
def State.coreLoad (s : State) (p : Proc) (fa : Nat) : State × HomeRes :=
  let t : Tag := s.free.extractLsb' 32 4
  if (s.core p).unseenAt (fa / 4) then (s.took, .word ⟨s.free.extractLsb' 0 32, if t.reserved then Tag.raw else t⟩)
  else s.homeLoad fa .core .stored

/-- Lines of the core's moves for a host that the endpoints have not transmitted (R296). -/
def State.movesOut (s : State) (p : Proc) : Bool :=
  let g := (s.core p).gen
  ([0, 1] : List Ep).any fun e => (s.ep e).queue.any fun r => r.data.isSome && match r.who with
    | .move q h .. => q == p && h == g
    | _ => false

/-- Whether every earlier store, atomic, block-move line and send of the core has been performed (R174). -/
def State.fenceOver (s : State) (p : Proc) : Bool :=
  let k := s.core p
  decide (k.unacked = 0) && k.moves.toList.all Option.isNone &&
    !(s.fab.reqs.any fun r => r.issuer == p && r.gen == k.gen && (match r.op with | .load _ => false | _ => true)) &&
    !s.movesOut p &&
    (match p with
      | .core c => !(s.fab.transit.any fun t => t.src == c && t.gen == k.gen)
      | _ => true)

end Sys2Proof.Machine
end

