-- ==== Sys2Proof/Machine/LoadStore.lean ====
section
/-!
DEFINITION. Classes 0x5 to 0x9: loads, stores, atomics, branches, call, return and jump (R81–R88, R105–R108, R553).
-/

namespace Sys2Proof.Machine

/-! ### Shared by the memory instructions -/

/-- A checked and translated access: its offset and where it goes. -/
def reach (s : State) (p : Proc) (ra : RegNo) (seg : BitVec 3) (l : Bool) (disp : Int) (size : Nat) (need : Need) :
    Except TrapInfo (Int × Place) :=
  let c := s.core p
  let off := segOff (c.reg ra).payload l disp
  match segCheck c.a seg off size need with
  | .error t => .error t
  | .ok addr => match locate s p (c.a.desc seg) seg off addr with
    | .error t => .error t
    | .ok pl => .ok (off, pl)

/-- imm10 × 4. -/
def imm10w (o : BitVec 10) : Int := o.toInt * 4
/-- imm6 × 4 in [5:0]. -/
def imm6w (o : BitVec 10) : Int := (o.extractLsb' 0 6).toInt * 4

/-- A word as the load's segment gives it its tag (R70). -/
def retag (d : Desc) (tagged : Bool) (w : TWord) : TWord := if tagged then w else ⟨w.payload, d.deftag⟩

def taggedAt (fa : Nat) : Bool := space fa == 0 || space fa == 1

/-- The error responses of a precise access (R85). -/
def replyTrap (seg : BitVec 3) (off : Int) : Reply → TrapInfo
  | .accessFault => segTrap Vec.access seg off
  | .tagFault t => { segTrap Vec.tag seg off with found := t }
  | _ => segTrap Vec.bus seg off

/-- The wait of an instruction whose request has left the core. -/
def memWait (i : Instr) (fa : Nat) : Wait := ⟨i, true, fa, []⟩

/-- The end of a store's access at a home that is the core's own (R86, R98, R222). -/
def localStore (_p : Proc) (seg : BitVec 3) (off : Int) (r : State × HomeRes) : Body :=
  match r.2 with
  | .tagged t => .trap r.1 { segTrap Vec.tag seg off with found := t }
  | _ => .ok r.1

/-! ### Loads (R82, R85) -/

/-- ld receives its word. -/
def ldDone (p : Proc) (f : MemF) (fa : Nat) (w : TWord) (s : State) : Body :=
  .ok (s.modCore p fun c =>
    (c.setReg f.rd (retag (c.a.desc f.seg) (taggedAt fa) w)).setStat { c.a.stat with t := false })

def ldcWant (f : MemF) : Tag := f.operand.extractLsb' 6 4

/-- ldc receives its word and compares its tag. -/
def ldcDone (p : Proc) (f : MemF) (fa : Nat) (w : TWord) (s : State) : Body :=
  let c := s.core p
  let x := retag (c.a.desc f.seg) (taggedAt fa) w
  if x.tag = ldcWant f then .ok (s.modCore p fun c => (c.setReg f.rd x).setStat { c.a.stat with t := true })
  else .trap s { segTrap Vec.tag f.seg (segOff (c.reg f.ra).payload f.l (imm6w f.operand)) with
    found := x.tag, want := ldcWant f }

def subKind (f : MemF) : Nat := (f.operand.extractLsb' 7 3).toNat
def subDisp (f : MemF) : Int := (f.operand.extractLsb' 0 7).toInt

/-- The value of a byte or halfword (R82). -/
def subLoad (kind a : Nat) (w : Word) : Word :=
  match kind with
  | 0 => BitVec.ofNat 32 (subValue w a 1)
  | 1 => (BitVec.ofNat 8 (subValue w a 1)).signExtend 32
  | 2 => BitVec.ofNat 32 (subValue w a 2)
  | _ => (BitVec.ofNat 16 (subValue w a 2)).signExtend 32

/-- ldsub receives the word that holds its value; a lost word of a store of its own gives POISON. -/
def ldsubDone (p : Proc) (f : MemF) (fa : Nat) (lost : Bool) (w : TWord) (s : State) : Body :=
  .ok (s.modCore p fun c =>
    c.setReg f.rd (if lost then TWord.poisoned else ⟨subLoad (subKind f) fa w.payload, Tag.int⟩))

/-- The shape of every load: check, then read at once or send the request. -/
def loadBody (p : Proc) (i : Instr) (f : MemF) (disp : Int) (size : Nat) (need : Need) (op : MemOp)
    (done : Nat → Bool → TWord → State → Body) (s : State) : Body :=
  match operandTrap [((s.core p).reg f.ra, offLike)] with
  | some t => .trap s t
  | none => match reach s p f.ra f.seg f.l disp size need with
    | .error t => .trap s t
    | .ok (off, pl) =>
      if pl.isLocal then
        match s.coreLoad p pl.fa with
        | (s, .word w) => done pl.fa false w s
        | (s, _) => done pl.fa true TWord.poisoned s
      else .wait (s.sendReq p ((s.core p).a.desc f.seg) f.seg off pl.fa false op) (memWait i pl.fa)

/-- ld. -/
def execLd (p : Proc) (f : MemF) (s : State) : Host.Outcome State Fault Refusal :=
  .next (s.issue p f.cond true .next
    (loadBody p (.ld p f) f (imm10w f.operand) 4 Need.read (.load 4) fun fa _ w => ldDone p f fa w))

/-- ldc; a reserved tag in the immediate is ILLEGAL (R71). -/
def execLdc (p : Proc) (f : MemF) (s : State) : Host.Outcome State Fault Refusal :=
  .next (s.issue p f.cond (!(ldcWant f).reserved) .next
    (loadBody p (.ldc p f) f (imm6w f.operand) 4 Need.read (.load 4) fun fa _ w => ldcDone p f fa w))

/-- lea: the offset tagged PTR; alignment and range only (R82, R103). Of an offset of 2^32 or more, which `L` = 1 allows, rd
holds the low 32 bits (DESIGN CHOICE, log entry 129: R82 does not say). -/
def execLea (p : Proc) (f : MemF) (s : State) : Host.Outcome State Fault Refusal :=
  .next (s.issue p f.cond true .next fun s =>
    let c := s.core p
    match operandTrap [(c.reg f.ra, offLike)] with
    | some t => .trap s t
    | none =>
      let off := segOff (c.reg f.ra).payload f.l (imm10w f.operand)
      match segCheck c.a f.seg off 4 Need.none with
      | .error t => .trap s t
      | .ok _ => .ok (s.modCore p fun c => c.setReg f.rd ⟨BitVec.ofInt 32 off, Tag.ptr⟩))

/-- ldsub; sizes 4–7 are reserved. -/
def execLdsub (p : Proc) (f : MemF) (s : State) : Host.Outcome State Fault Refusal :=
  .next (s.issue p f.cond (decide (subKind f < 4)) .next
    (loadBody p (.ldsub p f) f (subDisp f) (if subKind f < 2 then 1 else 2) Need.read
      (.load (if subKind f < 2 then 1 else 2)) fun fa lost w => ldsubDone p f fa lost w))

/-! ### Stores (R83, R86, R96–R98) -/

def storable (t : Tag) : Bool := t != Tag.lock && t != Tag.token

/-- The operand traps of a store: `carry` says that POISON in the value is carried (R97). -/
def storeTrap (c : Core) (rs ra : RegNo) (carry : Bool) : Option TrapInfo :=
  if carry && (c.reg rs).tag == Tag.poison then operandTrap [(c.reg ra, offLike)]
  else operandTrap [(c.reg ra, offLike), (c.reg rs, storable)]

/-- The wait of a write that an earlier block move holds up (R171): it is checked anew when the move goes on. -/
def storeWait (i : Instr) : Wait := ⟨i, false, 0, []⟩

/-- The shape of every store. -/
def storeBody (p : Proc) (i : Instr) (f : MemF) (disp : Int) (n : Nat) (s : State) : Body :=
  let c := s.core p
  let sp := space (c.a.desc f.seg).base.toNat
  match storeTrap c f.rd f.ra (decide (n = 4) && decide (sp < 2)) with
  | some t => .trap s t
  | none => match reach s p f.ra f.seg f.l disp n Need.write with
    | .error t => .trap s t
    | .ok (off, pl) =>
      if pl.isLocal then
        if s.moveHolds p pl.fa then .wait s (storeWait i)
        else localStore p f.seg off ((s.beforeWrite p pl.fa).homeStore pl.fa n (c.reg f.rd) .core .stored)
      else .ok ((s.sendReq p (c.a.desc f.seg) f.seg off pl.fa true (.store n (c.reg f.rd))).modCore p fun k =>
        { k with unacked := k.unacked + 1 })

/-- st. -/
def execSt (p : Proc) (f : MemF) (s : State) : Host.Outcome State Fault Refusal :=
  .next (s.issue p f.cond true .next (storeBody p (.st p f) f (imm10w f.operand) 4))

/-- stb. -/
def execStb (p : Proc) (f : MemF) (s : State) : Host.Outcome State Fault Refusal :=
  .next (s.issue p f.cond true .next (storeBody p (.stb p f) f f.operand.toInt 1))

/-- sth. -/
def execSth (p : Proc) (f : MemF) (s : State) : Host.Outcome State Fault Refusal :=
  .next (s.issue p f.cond true .next (storeBody p (.sth p f) f f.operand.toInt 2))

/-! ### Atomics (R84, R107, R108) -/

/-- tas receives the old word and Z. -/
def tasDone (p : Proc) (f : MemF) (fa : Nat) (old : TWord) (z : Bool) (s : State) : Body :=
  .ok (s.modCore p fun c => (c.setReg f.rd (retag (c.a.desc f.seg) (taggedAt fa) old)).setZ z)

/-- The body of tas; only core store, cluster store and LPDDR (R107). -/
def tasBody (p : Proc) (f : MemF) (s : State) : Body :=
  match operandTrap [((s.core p).reg f.ra, offLike)] with
  | some t => .trap s t
  | none => match reach s p f.ra f.seg f.l (imm10w f.operand) 4 ⟨true, true, true⟩ with
    | .error t => .trap s t
    | .ok (off, pl) =>
      if space pl.fa ≥ 3 then .trap s (segTrap Vec.access f.seg off)
      else if pl.isLocal then
        if s.moveHolds p pl.fa then .wait s (storeWait (.tas p f))
        else match (s.beforeWrite p pl.fa).homeTas p pl.fa .core .stored with
        | (s, .tas old z) => tasDone p f pl.fa old z s
        | (s, .tagged t) => .trap s { segTrap Vec.tag f.seg off with found := t }
        | (s, _) => tasDone p f pl.fa TWord.poisoned false s
      else .wait (s.sendReq p ((s.core p).a.desc f.seg) f.seg off pl.fa false .tas) (memWait (.tas p f) pl.fa)

/-- tas. -/
def execTas (p : Proc) (f : MemF) (s : State) : Host.Outcome State Fault Refusal :=
  .next (s.issue p f.cond true .next (tasBody p f))

/-- Where lres and scond may go: the own core store, and cluster stores (R107). -/
def resvPlace : Place → Bool
  | .own _ => true
  | .cluster _ => true
  | .away fa => space fa == 1

/-- lres. -/
def execLres (p : Proc) (f : MemF) (s : State) : Host.Outcome State Fault Refusal :=
  .next (s.issue p f.cond true .next fun s =>
    match operandTrap [((s.core p).reg f.ra, offLike)] with
    | some t => .trap s t
    | none => match reach s p f.ra f.seg f.l (imm10w f.operand) 4 ⟨true, false, true⟩ with
      | .error t => .trap s t
      | .ok (off, pl) =>
        if !resvPlace pl then .trap s (segTrap Vec.access f.seg off)
        else if pl.isLocal then
          let w := match (s.coreLoad p pl.fa).2 with
            | .word w => w
            | _ => TWord.poisoned
          .ok (((s.coreLoad p pl.fa).1.setResv p pl.fa).modCore p fun c => c.setReg f.rd w)
        else .wait (s.sendReq p ((s.core p).a.desc f.seg) f.seg off pl.fa false .lres) (memWait (.lres p f) pl.fa))

def scondRs (f : MemF) : RegNo := f.operand.extractLsb' 6 4

/-- scond receives the home's answer. -/
def scondDone (p : Proc) (f : MemF) (ok : Bool) (s : State) : Body :=
  .ok (s.modCore p fun c => (c.setReg f.rd ⟨if ok then 1 else 0, Tag.int⟩).setZ ok)

/-- The body of scond. -/
def scondBody (p : Proc) (f : MemF) (s : State) : Body :=
  let c := s.core p
  match storeTrap c (scondRs f) f.ra false with
  | some t => .trap s t
  | none => match reach s p f.ra f.seg f.l (imm6w f.operand) 4 ⟨false, true, true⟩ with
    | .error t => .trap s t
    | .ok (off, pl) =>
      if !resvPlace pl then .trap s (segTrap Vec.access f.seg off)
      else if pl.isLocal then
        if s.moveHolds p pl.fa then .wait s (storeWait (.scond p f))
        else match (s.beforeWrite p pl.fa).homeScond p pl.fa (c.reg (scondRs f)) .core .stored with
        | (s, .cond ok) => scondDone p f ok s
        | (s, .tagged t) => .trap s { segTrap Vec.tag f.seg off with found := t }
        | (s, _) => scondDone p f false s
      else .wait (s.sendReq p (c.a.desc f.seg) f.seg off pl.fa false (.scond (c.reg (scondRs f))))
        (memWait (.scond p f) pl.fa)

/-- scond. -/
def execScond (p : Proc) (f : MemF) (s : State) : Host.Outcome State Fault Refusal :=
  .next (s.issue p f.cond true .next (scondBody p f))

/-! ### Branches (R87) -/

/-- A taken branch to a word index. -/
def branchTo (p : Proc) (s : State) (t : Int) : Body :=
  if t < 0 ∨ (procWords p : Int) ≤ t then .trap s (trapOf Vec.fetch) else .jump s t.toNat

/-- b. -/
def execB (p : Proc) (f : BrF) (s : State) : Host.Outcome State Fault Refusal :=
  .next (s.issue p f.cond true .transfer fun s => branchTo p s ((s.core p).a.pc + f.disp.toInt))

/-- bl. -/
def execBl (p : Proc) (f : BrF) (s : State) : Host.Outcome State Fault Refusal :=
  .next (s.issue p f.cond true .transfer fun s =>
    let pc := (s.core p).a.pc
    match branchTo p s (pc + f.disp.toInt) with
    | .jump s t => .jump (s.modCore p fun c => c.setReg 15 ⟨BitVec.ofNat 32 (pc + 1), Tag.code⟩) t
    | b => b)

/-! ### Call and return (R88, R105, R106) -/

/-- The registers that a mask names, highest first. -/
def maskRegs (m : BitVec 16) : List RegNo :=
  ((List.range 16).reverse.filter fun i => m.getLsbD i).map fun i => BitVec.ofNat 4 i

/-- The words that a call stores, in order: each register of the mask, then the header. -/
def callWords (c : Core) (m : BitVec 16) : List TWord :=
  ((maskRegs m).map fun r =>
    let w := c.reg r
    if w.tag = Tag.lock ∨ w.tag = Tag.token then ⟨w.payload, Tag.raw⟩ else w) ++
  [⟨0xCA11#16 ++ m, Tag.raw⟩]

/-- The stores of a call, downward from sp. A trap leaves the words before it written (R106). Returns the requests that are
still to be answered. -/
def callStores (p : Proc) (s : State) (sp : Int) (n : Nat) : List TWord → Except (State × TrapInfo) (State × Nat)
  | [] => .ok (s, n)
  | w :: ws =>
    let c := s.core p
    let off := sp - 4
    match segCheck c.a 7 off 4 Need.write with
    | .error t => .error (s, t)
    | .ok addr => match locate s p (c.a.desc 7) 7 off addr with
      | .error t => .error (s, t)
      | .ok pl =>
        if pl.isLocal then
          match (s.beforeWrite p pl.fa).homeStore pl.fa 4 w .core .stored with
          | (s, .tagged t) => .error (s, { segTrap Vec.tag 7 off with found := t })
          | (s, _) => callStores p s off n ws
        else callStores p (s.sendReq p (c.a.desc 7) 7 off pl.fa false (.store 4 w)) off (n + 1) ws

/-- Whether one of the n stores of a call downward from sp waits for an earlier block move (R171). -/
def callHeld (p : Proc) (s : State) (sp : Int) (n : Nat) : Bool :=
  (List.range n).any fun i =>
    let c := s.core p
    let off := sp - 4 * ((i : Int) + 1)
    match segCheck c.a 7 off 4 Need.write with
    | .error _ => false
    | .ok addr => match locate s p (c.a.desc 7) 7 off addr with
      | .error _ => false
      | .ok pl => pl.isLocal && s.moveHolds p pl.fa

/-- The stores that a call has sent elsewhere are withdrawn when it traps: it has no effect but on words below g14 (R106,
R111). -/
def State.withdraw (s : State) (p : Proc) : State :=
  { s with fab := { s.fab with
      reqs := s.fab.reqs.filter fun r => !(r.issuer == p && !r.posted)
      reps := s.fab.reps.filter fun r => !(r.issuer == p && !r.posted) } }

def isCode (t : Tag) : Bool := t == Tag.code
def anyTag (_ : Tag) : Bool := true

/-- The target of a call: its word index, or none. -/
def callTarget (c : Core) (f : CallF) : Int :=
  if f.mode = 0 then c.a.pc + f.disp.toInt else (c.reg f.ra).payload.toNat

/-- A call whose accesses are all complete. -/
def callDone (p : Proc) (f : CallF) (s : State) : Body :=
  let c := s.core p
  let sp := segOff (c.reg 14).payload false 0 - 4 * (callWords c f.mask).length
  .jump (s.modCore p fun c =>
    (c.setReg 14 ⟨BitVec.ofInt 32 sp, Tag.ptr⟩).setReg 15 ⟨BitVec.ofNat 32 (c.a.pc + 2), Tag.code⟩) (callTarget c f).toNat

/-- Whether a word index lies outside the store (R553). -/
def beyond (p : Proc) (t : Int) : Bool := decide (t < 0) || decide ((procWords p : Int) ≤ t)

/-- What a call or return whose target is out of range meets first (R112): where its condition holds, `FETCH`. -/
def State.meetsFetch (s : State) (p : Proc) (cond : BitVec 4) (target : Int) : Bool :=
  condHolds cond (s.core p).a.stat && beyond p target

/-- The body of call. -/
def callBody (p : Proc) (f : CallF) (s : State) : Body :=
  let c := s.core p
  let t := callTarget c f
  let untagged := decide (2 ≤ space (c.a.desc 7).base.toNat)
  let sp := segOff (c.reg 14).payload false 0
  if beyond p t then .trap s (trapOf Vec.fetch)
  else match operandTrap ([(c.reg 14, offLike)] ++ (if f.mode = 1 then [(c.reg f.ra, isCode)] else []) ++
      (if untagged then (maskRegs f.mask).map fun r => (c.reg r, anyTag) else [])) with
  | some t => .trap s t
  | none =>
    if callHeld p s sp (callWords c f.mask).length then .wait s (storeWait (.call p f))
    else match callStores p s sp 0 (callWords c f.mask) with
    | .error (s, t) => .trap (s.withdraw p) t
    | .ok (s, 0) => callDone p f s
    | .ok (s, n + 1) => .wait s ⟨.call p f, true, n + 1, []⟩

/-- call. -/
def execCall (p : Proc) (f : CallF) (s : State) : Host.Outcome State Fault Refusal :=
  .next (s.issue p f.cond (decide (f.mode.toNat < 2) && (s.meetsFetch p f.cond (callTarget (s.core p) f) ||
      (!f.mask.getLsbD 14 && f.resv == 0))) .call (callBody p f))

/-- The registers that a frame header names, lowest first. -/
def headerRegs (h : Word) : List RegNo :=
  ((List.range 16).filter fun i => h.getLsbD i).map fun i => BitVec.ofNat 4 i

/-- A return whose loads are all complete: header first (R105). -/
def retDone (p : Proc) (got : List TWord) (s : State) : Body :=
  let c := s.core p
  let t := (c.reg 15).payload.toNat
  match got with
  | [] => .jump s t
  | h :: ws =>
    let regs := headerRegs h.payload
    let sp := segOff (c.reg 14).payload false 4 + 4 * regs.length
    .jump (s.modCore p fun c =>
      ((regs.zip ws).foldl (fun c x => c.setReg x.1 x.2) c).setReg 14 ⟨BitVec.ofInt 32 sp, Tag.ptr⟩) t

/-- The loads of a return from the next one on; fuel bounds their number. -/
def retLoads (p : Proc) (f : JmpF) (got : List TWord) (s : State) : Nat → Body
  | 0 => retDone p got s
  | fuel + 1 =>
    let c := s.core p
    let sp := segOff (c.reg 14).payload false 0
    let need := match got with
      | [] => 1
      | h :: _ => 1 + (headerRegs h.payload).length
    match got with
    | [h] =>
      if h.payload.extractLsb' 16 16 ≠ 0xCA11#16 then .trap s { segTrap Vec.tag 7 sp with found := h.tag }
      else if need = 1 then retDone p got s
      else retNext p f got s sp fuel
    | _ => if got.length = need then retDone p got s else retNext p f got s sp fuel
where
  /-- The next load of a return. -/
  retNext (p : Proc) (f : JmpF) (got : List TWord) (s : State) (sp : Int) (fuel : Nat) : Body :=
    let c := s.core p
    let off := sp + 4 * got.length
    match segCheck c.a 7 off 4 Need.read with
    | .error t => .trap s t
    | .ok addr => match locate s p (c.a.desc 7) 7 off addr with
      | .error t => .trap s t
      | .ok pl =>
        if pl.isLocal then
          match s.coreLoad p pl.fa with
          | (s, .word w) => retLoads p f (got ++ [retag (c.a.desc 7) (taggedAt pl.fa) w]) s fuel
          | (s, _) => retLoads p f (got ++ [TWord.poisoned]) s fuel
        else .wait (s.sendReq p (c.a.desc 7) 7 off pl.fa false (.load 4)) ⟨.ret p f, true, pl.fa, got⟩

/-- ret. -/
def execRet (p : Proc) (f : JmpF) (s : State) : Host.Outcome State Fault Refusal :=
  .next (s.issue p f.cond (s.meetsFetch p f.cond ((s.core p).reg 15).payload.toNat || (f.ra == 0 && f.mask == 0)) .transfer
    fun s =>
    let c := s.core p
    if procWords p ≤ (c.reg 15).payload.toNat then .trap s (trapOf Vec.fetch)
    else match operandTrap [(c.reg 14, offLike), (c.reg 15, isCode)] with
    | some t => .trap s t
    | none => retLoads p f [] s 18)

/-- jr (R88, R96, R553). A target in range whose ra is not tagged CODE raises `TAG` (DESIGN CHOICE, log entry 128: R88's "Otherwise jr raises
`FETCH` as R553 states" may be read to cover it, R96 and R112 give `TAG`). -/
def execJr (p : Proc) (f : JmpF) (s : State) : Host.Outcome State Fault Refusal :=
  .next (s.issue p f.cond true .transfer fun s =>
    let w := (s.core p).reg f.ra
    if procWords p ≤ w.payload.toNat then .trap s (trapOf Vec.fetch)
    else match operandTrap [(w, isCode)] with
    | some t => .trap s t
    | none => .jump s w.payload.toNat)

end Sys2Proof.Machine
end

