-- ==== Sys2Proof/Machine/Narrow.lean ====
section
/-!
DEFINITION. The arithmetic of the engines (R121–R126, R135–R149): element formats, runs, exact block terms, the
accumulator, rounding, packing and MX conversion, without any memory.
-/

namespace Sys2Proof.Machine

/-- The element formats (R121). -/
inductive Fmt where
  | b4 | f4 | b3 | b2 | t | b8 | f8
  deriving DecidableEq, Repr

/-- The codes of R42; the others are reserved. -/
def Fmt.ofCode (c : BitVec 4) : Option Fmt :=
  match c.toNat with
  | 0 => some .b4
  | 1 => some .f4
  | 2 => some .b3
  | 3 => some .b2
  | 4 => some .t
  | 5 => some .b8
  | 6 => some .f8
  | _ => none

/-- Bits of an element; T is packed by digits. -/
def Fmt.width : Fmt → Nat
  | .b4 | .f4 => 4
  | .b3 => 3
  | .b2 | .t => 2
  | .b8 | .f8 => 8

/-- The pack limit M. -/
def Fmt.limit : Fmt → Nat
  | .b4 => 7
  | .f4 => 6
  | .b3 => 3
  | .b2 | .t => 1
  | .b8 => 127
  | .f8 => 448

def Fmt.tag : Fmt → Tag
  | .b4 | .f4 => Tag.p4
  | .b2 => Tag.p2
  | .b8 | .f8 => Tag.p8
  | .b3 | .t => Tag.raw

def Fmt.isFloat : Fmt → Bool
  | .f4 | .f8 => true
  | _ => false

/-- Bytes of trits of a T run of n blocks (R123). -/
def tritBytes (n : Nat) : Nat := (32 * n + 4) / 5

/-- The element words of a run of n blocks. -/
def Fmt.elemWords (f : Fmt) (n : Nat) : Nat :=
  match f with
  | .t => (tritBytes n + 3) / 4
  | f => n * f.width

def scaleWords (n : Nat) : Nat := (n + 3) / 4

/-- The words of a run before its sideband. -/
def Fmt.fixedWords (f : Fmt) (n : Nat) : Nat := scaleWords n + f.elemWords n

/-- The magnitude of an F4 code in units of 2^−1. -/
def f4Mag (c : Nat) : Nat :=
  let e := c / 2 % 4
  let m := c % 2
  if e = 0 then m else (2 + m) * 2 ^ (e - 1)

/-- The magnitude of an F8 code in units of 2^−9. -/
def f8Mag (c : Nat) : Nat :=
  let e := c / 8 % 16
  let m := c % 8
  if e = 0 then m else (8 + m) * 2 ^ (e - 1)

/-- The magnitude of a binary16 code in units of 2^−24. -/
def f16Mag (c : Nat) : Nat :=
  let e := c / 1024 % 32
  let m := c % 1024
  if e = 0 then m else (1024 + m) * 2 ^ (e - 1)

def signExt (v k : Nat) : Int := if v < 2 ^ (k - 1) then v else (v : Int) - 2 ^ k

def withSign (neg : Bool) (m : Nat) : Int := if neg then -(m : Int) else m

/-- The value of an element code in units of 2^−24; `none` is NaN. -/
def Fmt.value (f : Fmt) (c : Nat) : Option Int :=
  match f with
  | .f4 => some (withSign (decide (8 ≤ c)) (f4Mag (c % 8)) * 2 ^ 23)
  | .f8 => if c % 128 = 127 then none else some (withSign (decide (128 ≤ c)) (f8Mag (c % 128)) * 2 ^ 15)
  | .t => some (((c : Int) - 1) * 2 ^ 24)
  | f => some (signExt c f.width * 2 ^ 24)

/-- The value of a sideband entry in the same units; `none` is an infinity or a NaN (R125, R135). -/
def Fmt.sideValue (f : Fmt) (v : Nat) : Option Int :=
  if f.isFloat then
    (if v / 1024 % 32 = 31 then none else some (withSign (decide (32768 ≤ v)) (f16Mag (v % 32768))))
  else some (signExt v 16 * 2 ^ 24)

/-! ### Runs (R124–R126) -/

/-- Why an engine operation fails (R154). -/
abbrev EngCause := BitVec 4

namespace EngCause
def timeout : EngCause := 1
def tag : EngCause := 2
def poison : EngCause := 3
def sideband : EngCause := 4
def range : EngCause := 5
def trit : EngCause := 6
def param : EngCause := 7
end EngCause

/-- An entry of a sideband list. -/
structure SideEntry where
  block : Nat
  index : Nat
  value : Nat
  deriving DecidableEq, Repr

/-- A run taken apart: scale bytes, element codes by block (a T code is the digit), sideband. -/
structure Run where
  scales : List Nat
  codes : List (List Nat)
  side : List SideEntry
  deriving DecidableEq, Repr

inductive Scan where
  | more
  | fail (cause : EngCause) (block : Nat)
  | done (side : List SideEntry)
  deriving DecidableEq, Repr

/-- A word's tag against those that the engine takes (R134). -/
def tagScan (w : TWord) (ok : Tag → Bool) : Option EngCause :=
  if w.tag = Tag.poison then some EngCause.poison else if ok w.tag then none else some EngCause.tag

/-- Byte b of the word list. -/
def wordByte (ws : List TWord) (b : Nat) : Nat := bits ((ws.getD (b / 4) TWord.zero).payload.toNat) (8 * (b % 4) + 7) (8 * (b % 4))

/-- The block that `EDETAIL` names for byte j of element word k: that of the first element in the byte. -/
def Fmt.blockAt (f : Fmt) (n k j : Nat) : Nat := if f = .t then min (n - 1) (5 * (4 * k + j) / 32) else k / f.width

/-- The block that `EDETAIL` names for word i of the fixed part of a run: for a scale word, the first of the four whose scales it
holds; for an element word, that of its first element (DESIGN CHOICE, log entry 126: R154 says only the block being processed). -/
def Fmt.wordBlock (f : Fmt) (n i : Nat) : Nat :=
  if i < scaleWords n then 4 * i else min (n - 1) (f.blockAt n (i - scaleWords n) 0)

/-- What is wrong with word i of the fixed part of a run; a bad trit's block is that of its byte's first digit. -/
def fixedScan (f : Fmt) (n i : Nat) (w : TWord) : Option (EngCause × Nat) :=
  if i < scaleWords n then (tagScan w fun t => t == Tag.scale || t == Tag.raw).map fun c => (c, f.wordBlock n i)
  else
    let k := i - scaleWords n
    match tagScan w fun t => t == f.tag || t == Tag.raw with
    | some c => some (c, f.wordBlock n i)
    | none =>
      if f = .t then
        ((List.range 4).find? fun j => decide (4 * k + j < tritBytes n) && decide (242 < wordByte [w] j)).map
          fun j => (EngCause.trit, f.blockAt n k j)
      else none

/-- The first fault in the words of the fixed part. -/
def fixedFault (f : Fmt) (n : Nat) : Nat → List TWord → Option (EngCause × Nat)
  | _, [] => none
  | i, w :: ws => match fixedScan f n i w with
    | some e => some e
    | none => fixedFault f n (i + 1) ws

def entryOf (w : Word) : SideEntry := ⟨bits w.toNat 23 21, bits w.toNat 20 16, bits w.toNat 15 0⟩

/-- The sideband list (R125): entries so far, newest last. The block that `EDETAIL` names for a sideband word is the one in its own
`BLOCK` field (DESIGN CHOICE, log entry 126: R154 does not say). -/
def sideScan (n : Nat) (acc : List SideEntry) : List TWord → Scan
  | [] => .more
  | w :: ws =>
    let x := w.payload
    let e := entryOf x
    match tagScan w intLike' with
    | some c => .fail c e.block
    | none =>
      if bits x.toNat 29 24 ≠ 0 then .fail EngCause.sideband e.block
      else if x.getLsbD 30 then
        (if acc.isEmpty && x.getLsbD 31 then .done [] else .fail EngCause.sideband e.block)
      else if n ≤ e.block ∨ acc.any (fun a => decide (32 * e.block + e.index ≤ 32 * a.block + a.index)) ∨
          2 ≤ (acc.filter fun a => a.block == e.block).length then .fail EngCause.sideband e.block
      else if x.getLsbD 31 then .done (acc ++ [e])
      else sideScan n (acc ++ [e]) ws
where
  intLike' (t : Tag) : Bool := t == Tag.int || t == Tag.raw

/-- A run as its words come in. -/
def scanRun (f : Fmt) (n : Nat) (ws : List TWord) : Scan :=
  match fixedFault f n 0 (ws.take (f.fixedWords n)) with
  | some e => .fail e.1 e.2
  | none => if ws.length < f.fixedWords n then .more else sideScan n [] (ws.drop (f.fixedWords n))

/-- The little-endian number that words spell. -/
def wordsNat : List TWord → Nat
  | [] => 0
  | w :: ws => w.payload.toNat + 2 ^ 32 * wordsNat ws

/-- The codes of the 32 elements of block b. -/
def blockCodes (f : Fmt) (b : Nat) (ws : List TWord) : List Nat :=
  match f with
  | .t => (List.range 32).map fun i => wordByte ws ((32 * b + i) / 5) / 3 ^ ((32 * b + i) % 5) % 3
  | f =>
    let v := wordsNat ((ws.drop (b * f.width)).take f.width)
    (List.range 32).map fun i => v / 2 ^ (f.width * i) % 2 ^ f.width

/-- A run from words that the scan has passed. -/
def runOf (f : Fmt) (n : Nat) (ws : List TWord) (side : List SideEntry) : Run :=
  { scales := (List.range n).map fun b => wordByte ws b
    codes := (List.range n).map fun b => blockCodes f b (ws.drop (scaleWords n))
    side := side }

def Run.scale (r : Run) (b : Nat) : Nat := r.scales.getD b 0
def Run.code (r : Run) (b i : Nat) : Nat := (r.codes.getD b []).getD i 0
def Run.sideAt (r : Run) (b i : Nat) : Option Nat :=
  (r.side.find? fun e => e.block == b && e.index == i).map (·.value)

/-- The value of element i of block b, replaced where the sideband names it. -/
def Run.value (r : Run) (f : Fmt) (b i : Nat) : Option Int :=
  match r.sideAt b i with
  | some v => f.sideValue v
  | none => f.value (r.code b i)

/-! ### Rounding (R140–R142) -/

def lfsrStep (x : BitVec 16) : BitVec 16 :=
  (x >>> 1) ||| ((if (x.getLsbD 0 ^^ x.getLsbD 2) ^^ (x.getLsbD 3 ^^ x.getLsbD 5) then 1 else 0) <<< 15)

/-- `choose` for the fraction num ÷ den. -/
def choose (st : Bool) (l : BitVec 16) (num den : Nat) (hiEven : Bool) : Bool × BitVec 16 :=
  if st then (decide (l.toNat ≤ num * 65536 / den), lfsrStep l)
  else (decide (den < 2 * num) || (decide (2 * num = den) && hiEven), l)

/-- `rshift`. -/
def rshift (st : Bool) (l : BitVec 16) (x d : Int) : Int × BitVec 16 :=
  if d ≤ 0 then (x * 2 ^ (-d).toNat, l)
  else
    let p : Nat := 2 ^ d.toNat
    let lo := x / (p : Int)
    let r := choose st l (x - lo * p).toNat p (decide ((lo + 1) % 2 = 0))
    (if r.1 then lo + 1 else lo, r.2)

/-! ### The accumulator (R135, R136) -/

def Engine.satUp (g : Engine) : Engine := { g with sat := true, satc := satInc g.satc }

/-- The exact renormalisation of `acc_add`; the fuel exceeds the 32 bits of `ACC`. -/
def renorm : Nat → Int → Int → Int × Int
  | 0, a, c => (a, c)
  | k + 1, a, c => if a ≠ 0 ∧ a.natAbs < 2 ^ 29 ∧ -512 < c then renorm k (a * 2) (c - 1) else (a, c)

/-- `acc_add`. -/
def accAdd (st : Bool) (g : Engine) (s e : Int) : Engine :=
  if g.pinned then
    let r := rshift st g.lfsr s (g.aexp.toInt - e)
    let a := g.acc.toInt + r.1
    let g := { g with lfsr := r.2 }
    if 2 ^ 31 - 1 < a then { g.satUp with acc := 0x7FFF_FFFF }
    else if a < -2 ^ 31 then { g.satUp with acc := 0x8000_0000 }
    else { g with acc := BitVec.ofInt 32 a }
  else
    let k : Int := (s.natAbs.log2 : Int) - 29
    let c := max (if g.acc = 0 then e + k else max g.aexp.toInt (e + k)) (-512)
    let r1 := rshift st g.lfsr g.acc.toInt (c - g.aexp.toInt)
    let r2 := rshift st r1.2 s (c - e)
    let a := r1.1 + r2.1
    let r3 := if 2 ^ 30 ≤ a.natAbs then rshift st r2.2 a 1 else (a, r2.2)
    let c := if 2 ^ 30 ≤ a.natAbs then c + 1 else c
    let n := renorm 40 r3.1 c
    let g := { g with lfsr := r3.2 }
    if 511 < n.2 then { g.satUp with acc := BitVec.ofInt 32 (n.1.sign * 2 ^ 30), aexp := 511 }
    else { g with acc := BitVec.ofInt 32 n.1, aexp := BitVec.ofInt 10 n.2 }

/-- An odd number and an exponent for x × 2^e, x not 0; the fuel is the bits of x. -/
def oddPart : Nat → Int → Int → Int × Int
  | 0, x, e => (x, e)
  | k + 1, x, e => if x % 2 = 0 then oddPart k (x / 2) (e + 1) else (x, e)

/-- Block b of a dot product (R135). -/
def dotBlock (st : Bool) (wf xf : Fmt) (w x : Run) (g : Engine) (b : Nat) : Engine :=
  if w.scale b = 255 ∨ x.scale b = 255 then { g with nan := true, clipc := satInc g.clipc }
  else
    let vs := (List.range 32).map fun i => (w.value wf b i, x.value xf b i)
    let sum := vs.foldl (fun (a : Int) v => match v with
      | (some p, some q) => a + p * q
      | _ => a) 0
    let g := if vs.any fun v => v.1.isNone || v.2.isNone then { g with nan := true } else g
    if sum = 0 then g
    else
      let r := oddPart (sum.natAbs.log2 + 1) sum ((w.scale b : Int) - 127 + ((x.scale b : Int) - 127) - 48)
      accAdd st g r.1 r.2

def dotRun (st : Bool) (wf xf : Fmt) (n : Nat) (w x : Run) (g : Engine) : Engine :=
  (List.range n).foldl (dotBlock st wf xf w x) g

/-- ezero, and the clear of erd with `CLR` (R143, R144). -/
def Engine.clear (g : Engine) (pinned : Bool) (exp : BitVec 10) : Engine :=
  { g with acc := 0, sat := false, nan := false, pinned := pinned, aexp := if pinned then exp else 0 }

/-- The status word (R145). -/
def Engine.status (g : Engine) : Word :=
  BitVec.ofNat 32 ((g.aexp.signExtend 16).toNat + (if g.sat then 2 ^ 16 else 0) + (if g.nan then 2 ^ 17 else 0) +
    (if g.pinned then 2 ^ 18 else 0))

/-! ### Packing (R146, R147) -/

/-- A source value: m × 2^e, an infinity, or a NaN. -/
inductive SrcVal where
  | num (m e : Int)
  | inf (neg : Bool)
  | nan
  deriving DecidableEq, Repr

def SrcVal.ofWord (w : TWord) : SrcVal :=
  if w.tag = Tag.int then .num w.payload.toInt 0
  else if w.tag = Tag.fx then .num w.payload.toInt (-16)
  else match FVal.ofWord w.payload with
    | .nan _ => .nan
    | .inf n => .inf n
    | .zero _ => .num 0 0
    | .fin n m e => .num (withSign n m) e

/-- |m| × 2^e as a fraction over 2^−u units. -/
def scaled (m e u : Int) : Nat × Nat :=
  if 0 ≤ e + u then (m.natAbs * 2 ^ (e + u).toNat, 1) else (m.natAbs, 2 ^ (-(e + u)).toNat)

/-- Whether |m| × 2^e ≤ M × 2^k. -/
def within (m e : Int) (lim : Nat) (k : Int) : Bool :=
  let q := scaled m e (-k)
  decide (q.1 ≤ lim * q.2)

/-- The least k from k0 on with |m| × 2^e ≤ M × 2^k. -/
def ceilFrom (m e : Int) (lim : Nat) : Nat → Int → Int
  | 0, k => k
  | n + 1, k => if within m e lim k then k else ceilFrom m e lim n (k + 1)

/-- ⌈log2(|m| × 2^e ÷ M)⌉ for m ≠ 0. -/
def ceilLog (m e : Int) (lim : Nat) : Int :=
  ceilFrom m e lim 4 ((m.natAbs.log2 : Int) + e - (lim.log2 : Int) - 1)

/-- |a| < |b| for finite values. -/
def magLt (a b : Int × Int) : Bool :=
  let e := min a.2 b.2
  decide (a.1.natAbs * 2 ^ (a.2 - e).toNat < b.1.natAbs * 2 ^ (b.2 - e).toNat)

def SrcVal.magLt : SrcVal → SrcVal → Bool
  | .num a b, .num c d => Sys2Proof.Machine.magLt (a, b) (c, d)
  | .num _ _, .inf _ => true
  | _, _ => false

/-- The larger in magnitude, the first of equals. -/
def bigger (v : List SrcVal) (i j : Nat) : Nat := if (v.getD i .nan).magLt (v.getD j .nan) then j else i

/-- The largest of the indices, by magnitude descending and index ascending. -/
def biggest (v : List SrcVal) : List Nat → Option Nat
  | [] => none
  | i :: r => some (r.foldl (bigger v) i)

/-- The scale byte, and whether it was clipped. -/
def packScale (f : Fmt) (bias : Nat) (v : List SrcVal) : Nat × Bool :=
  match biggest v (List.range 32) with
  | none => (127, false)
  | some i => match v.getD i .nan with
    | .nan => (127, false)
    | .inf _ => (254, true)
    | .num m e =>
      if m = 0 then (127, false)
      else
        let s := ceilLog m e f.limit - bias + 127
        if s < 0 then (0, true) else if 254 < s then (254, true) else (s.toNat, false)

def SrcVal.over (v : SrcVal) (lim : Nat) (x : Int) : Bool :=
  match v with
  | .num m e => !within m e lim x
  | .inf _ => true
  | .nan => false

/-- The largest code up to `top` whose magnitude, times den, is at most num; magnitudes rise with the code. -/
def floorCode (mag : Nat → Nat) (top num den : Nat) : Nat → Nat → Nat
  | 0, c => c
  | k + 1, c =>
    floorCode mag top num den k (if c + 2 ^ k ≤ top ∧ mag (c + 2 ^ k) * den ≤ num then c + 2 ^ k else c)

/-- m × 2^e rounded to a floating format: sign and code. -/
def roundFloat (st : Bool) (l : BitVec 16) (mag : Nat → Nat) (top : Nat) (unit : Int) (m e : Int) :
    (Bool × Nat) × BitVec 16 :=
  let q := scaled m e unit
  let c := floorCode mag top q.1 q.2 15 0
  let gap := (mag (c + 1) - mag c) * q.2
  let rest := q.1 - mag c * q.2
  if c = top ∨ rest = 0 then ((decide (m < 0), c), (choose st l 0 1 false).2)
  else if m < 0 then
    let r := choose st l (gap - rest) gap (c % 2 == 0)
    ((true, if r.1 then c else c + 1), r.2)
  else
    let r := choose st l rest gap ((c + 1) % 2 == 0)
    ((false, if r.1 then c + 1 else c), r.2)

/-- m × 2^e rounded to an integer with exactly one `choose`. -/
def roundWhole (st : Bool) (l : BitVec 16) (m e : Int) : Int × BitVec 16 :=
  if 0 ≤ e then (m * 2 ^ e.toNat, (choose st l 0 1 false).2) else rshift st l m (-e)

/-- An element's code; `negZero` is the sign of a negative value that rounds to zero, which the spec leaves open. -/
def packElem (st : Bool) (f : Fmt) (l : BitVec 16) (m e : Int) (negZero : Bool) : Nat × BitVec 16 :=
  match f with
  | .f4 =>
    let r := roundFloat st l f4Mag 7 1 m e
    (r.1.2 + (if r.1.1 && (decide (r.1.2 ≠ 0) || negZero) then 8 else 0), r.2)
  | .f8 =>
    let r := roundFloat st l f8Mag 126 9 m e
    (r.1.2 + (if r.1.1 && (decide (r.1.2 ≠ 0) || negZero) then 128 else 0), r.2)
  | .t =>
    let r := roundWhole st l m e
    ((r.1 + 1).toNat, r.2)
  | f =>
    let r := roundWhole st l m e
    ((r.1 % 2 ^ f.width).toNat, r.2)

/-- A sideband value: its 16 bits, and whether it saturated. -/
def packSide (st : Bool) (f : Fmt) (l : BitVec 16) (v : SrcVal) (x : Int) : (Nat × Bool) × BitVec 16 :=
  match v with
  | .nan => ((0, false), (choose st l 0 1 false).2)
  | .inf n =>
    ((if f.isFloat then 0x7BFF + (if n then 32768 else 0) else if n then 0x8001 else 0x7FFF, true),
      (choose st l 0 1 false).2)
  | .num m e =>
    if f.isFloat then
      if !within m (e - x) 65504 0 then
        ((0x7BFF + (if m < 0 then 32768 else 0), true), (choose st l 0 1 false).2)
      else
        let r := roundFloat st l f16Mag 0x7BFF 24 m (e - x)
        ((r.1.2 + (if r.1.1 then 32768 else 0), false), r.2)
    else
      let r := roundWhole st l m (e - x)
      let c := max (-32767) (min 32767 r.1)
      (((c % 65536).toNat, decide (c ≠ r.1)), r.2)

/-- What packing one block gives. -/
structure Packed where
  scale : Nat
  codes : List Nat
  side : List (Nat × Nat)      -- index, value
  eng : Engine
  deriving DecidableEq, Repr

/-- Element i of a block under packing. -/
def packStep (st : Bool) (f : Fmt) (x : Int) (v : List SrcVal) (side : List Nat) (negZero : Nat → Bool)
    (r : Packed × Bool) (i : Nat) : Packed × Bool :=
  let p := r.1
  let u := v.getD i .nan
  if u.over f.limit x && !side.contains i then
    let c := match u with
      | .inf n => n
      | .num m _ => decide (m < 0)
      | .nan => false
    let lim : Int := withSign c f.limit
    ({ p with codes := p.codes ++ [(packElem st f p.eng.lfsr lim 0 false).1]
              eng := { p.eng with lfsr := (choose st p.eng.lfsr 0 1 false).2 } }, true)
  else if side.contains i then
    let q := packSide st f p.eng.lfsr u x
    ({ p with codes := p.codes ++ [if f = .t then 1 else 0], side := p.side ++ [(i, q.1.1)]
              eng := { p.eng with lfsr := q.2 } }, r.2 || q.1.2)
  else
    let m := match u with
      | .num m e => (m, e - x)
      | _ => (0, 0)
    let q := packElem st f p.eng.lfsr m.1 m.2 (negZero i)
    ({ p with codes := p.codes ++ [q.1], eng := { p.eng with lfsr := q.2 } }, r.2)

/-- `pack_block`. -/
def packBlock (st : Bool) (f : Fmt) (bias : Nat) (v : List SrcVal) (negZero : Nat → Bool) (g : Engine) : Packed :=
  let g := if v.any (· == SrcVal.nan) then { g with nan := true } else g
  let v := v.map fun x => if x = SrcVal.nan then SrcVal.num 0 0 else x
  let sc := packScale f bias v
  let x : Int := (sc.1 : Int) - 127
  let g := if sc.2 then { g with clipc := satInc g.clipc } else g
  let big := (List.range 32).filter fun i => (v.getD i .nan).over f.limit x
  let side := match biggest v big with
    | none => []
    | some i => match biggest v (big.filter (· ≠ i)) with
      | none => [i]
      | some j => [i, j]
  let r := (List.range 32).foldl (packStep st f x v side negZero) (⟨sc.1, [], [], g⟩, false)
  if r.2 then { r.1 with eng := { r.1.eng with outc := satInc r.1.eng.outc } } else r.1

/-- The words of a number, lowest first. -/
def natWords : Nat → Nat → List Word
  | 0, _ => []
  | n + 1, v => BitVec.ofNat 32 v :: natWords n (v / 2 ^ 32)

/-- The number whose digits, lowest first, are given. -/
def digits (base : Nat) : List Nat → Nat
  | [] => 0
  | d :: r => d + base * digits base r

/-- A list cut into groups of k; the fuel is its length. -/
def chunks {α : Type} (k : Nat) : Nat → List α → List (List α)
  | 0, _ => []
  | n + 1, l => if l.isEmpty then [] else l.take k :: chunks k n (l.drop k)

/-- The element words of a run; unused digits of a T run are zero. -/
def elemWordsOf (f : Fmt) (codes : List (List Nat)) : List Word :=
  match f with
  | .t =>
    let ds := codes.flatten
    let bs := (chunks 5 ds.length ds).map (digits 3)
    natWords ((bs.length + 3) / 4) (digits 256 bs)
  | f => codes.flatMap fun c => natWords f.width (digits (2 ^ f.width) c)

def sideWord (e : SideEntry) (last : Bool) : Word :=
  BitVec.ofNat 32 (e.value + e.index * 2 ^ 16 + e.block * 2 ^ 21 + (if last then 2 ^ 31 else 0))

def sideWords : List SideEntry → List Word
  | [] => []
  | [e] => [sideWord e true]
  | e :: r => sideWord e false :: sideWords r

/-- The words of a run, with their tags (R126, R134). -/
def runWords (f : Fmt) (n : Nat) (scales : List Nat) (codes : List (List Nat)) (side : List SideEntry) : List TWord :=
  ((natWords (scaleWords n) (digits 256 scales)).map fun w => (⟨w, Tag.scale⟩ : TWord)) ++
    ((elemWordsOf f codes).map fun w => (⟨w, f.tag⟩ : TWord)) ++
    ((if side.isEmpty then [0xC000_0000#32] else sideWords side).map fun w => (⟨w, Tag.int⟩ : TWord))

/-- The whole of an epack over its source values: the run's words and the engine after. -/
def packRun (st : Bool) (f : Fmt) (bias n : Nat) (v : List SrcVal) (negZero : Nat → Nat → Bool) (g : Engine) :
    List TWord × Engine :=
  let r := (List.range n).foldl (fun (r : (List Nat × List (List Nat) × List SideEntry) × Engine) b =>
    let p := packBlock st f bias ((v.drop (32 * b)).take 32) (negZero b) r.2
    ((r.1.1 ++ [p.scale], r.1.2.1 ++ [p.codes],
      r.1.2.2 ++ p.side.map fun e => (⟨b, e.1, e.2⟩ : SideEntry)), p.eng)) (([], [], []), g)
  (runWords f n r.1.1 r.1.2.1 r.1.2.2, r.2)

/-! ### OCP Microscaling (R148–R150) -/

inductive Mx where
  | fp4 | e2m3 | e3m2 | e4m3 | int8
  deriving DecidableEq, Repr

def Mx.ofCode (c : Nat) : Option Mx :=
  match c with
  | 0 => some .fp4
  | 1 => some .e2m3
  | 2 => some .e3m2
  | 3 => some .e4m3
  | 4 => some .int8
  | _ => none

def Mx.width : Mx → Nat
  | .fp4 => 4
  | .e2m3 | .e3m2 => 6
  | .e4m3 | .int8 => 8

/-- The bytes of n blocks in the interchange layout. -/
def Mx.bytes (x : Mx) (n : Nat) : Nat := (n + 3) / 4 * 4 + n * 4 * x.width

/-- Whether the conversion is in the table of R148. -/
def mxSupported (export_ : Bool) (x : Mx) (f : Fmt) : Bool :=
  match x, f with
  | .fp4, .f4 => true
  | .e2m3, .f8 => !export_
  | .e3m2, .f8 => !export_
  | .e4m3, .f8 => true
  | .int8, .b8 => true
  | .int8, .b4 => export_
  | .int8, .b3 => export_
  | .int8, .b2 => export_
  | .int8, .t => export_
  | _, _ => false

/-- The magnitude of an FP6 code in units of 2^−9 (the OCP encodings: E2M3 of bias 1, E3M2 of bias 3). -/
def fp6Mag (x : Mx) (c : Nat) : Nat :=
  match x with
  | .e2m3 => if c / 8 % 4 = 0 then c % 8 * 2 ^ 6 else (8 + c % 8) * 2 ^ (c / 8 % 4 + 5)
  | _ => if c / 4 % 8 = 0 then c % 4 * 2 ^ 5 else (4 + c % 4) * 2 ^ (c / 4 % 8 + 4)

/-- An element code imported. -/
def importCode (x : Mx) (c : Nat) : Nat :=
  match x with
  | .e2m3 => floorCode f8Mag 126 (fp6Mag x (c % 32)) 1 7 0 + (if 32 ≤ c then 128 else 0)
  | .e3m2 => floorCode f8Mag 126 (fp6Mag x (c % 32)) 1 7 0 + (if 32 ≤ c then 128 else 0)
  | _ => c

/-- One block imported: scale, codes, engine. -/
def importBlock (st : Bool) (x : Mx) (mxScale : Nat) (codes : List Nat) (g : Engine) : Nat × List Nat × Engine :=
  let g := if mxScale = 255 ∨ (x = .e4m3 ∧ codes.any fun c => c % 128 = 127) then { g with nan := true } else g
  if mxScale = 255 then (255, codes.map (importCode x), g)
  else if x = .int8 then
    if mxScale < 6 then
      let r := codes.foldl (fun (r : List Nat × BitVec 16) c =>
        let q := rshift st r.2 (signExt c 8) ((6 - mxScale : Nat) : Int)
        (r.1 ++ [(q.1 % 256).toNat], q.2)) ([], g.lfsr)
      (0, r.1, { g with lfsr := r.2, clipc := satInc g.clipc })
    else (mxScale - 6, codes, g)
  else (mxScale, codes.map (importCode x), g)

/-- The factor and the scale step of an export to MXINT8. -/
def int8Step : Fmt → Nat × Nat
  | .b8 => (1, 6)
  | .b4 => (16, 2)
  | .b3 => (32, 1)
  | _ => (64, 0)

/-- A sideband entry folded into its lane: the MX code and whether it clipped. Each fold rounds with one `choose` (R140). A
NaN's code is `open_`, which the spec leaves open. -/
def foldSide (st : Bool) (f : Fmt) (l : BitVec 16) (v open_ : Nat) : Nat × Bool × BitVec 16 :=
  let nan := decide (v / 1024 % 32 = 31) && decide (v % 1024 ≠ 0)
  let inf := decide (v / 1024 % 32 = 31) && decide (v % 1024 = 0)
  let neg := decide (32768 ≤ v)
  match f with
  | .f4 =>
    if nan then (open_ % 16, false, l)
    else if inf || decide (6 * 2 ^ 24 < f16Mag (v % 32768)) then (7 + (if neg then 8 else 0), true, (choose st l 0 1 false).2)
    else
      let r := packElem st .f4 l (withSign neg (f16Mag (v % 32768))) (-24) (open_ % 2 == 1)
      (r.1, false, r.2)
  | .f8 =>
    if nan then (open_ % 256, false, l)
    else if inf || decide (448 * 2 ^ 24 < f16Mag (v % 32768)) then (126 + (if neg then 128 else 0), true, (choose st l 0 1 false).2)
    else
      let r := packElem st .f8 l (withSign neg (f16Mag (v % 32768))) (-24) (open_ % 2 == 1)
      (r.1, false, r.2)
  | f =>
    let x := signExt v 16 * (int8Step f).1
    let c := max (-127) (min 127 x)
    ((c % 256).toNat, decide (c ≠ x), (choose st l 0 1 false).2)

/-- One element exported: its MX code, before any shift for the scale. -/
def exportElem (st : Bool) (f : Fmt) (r : Run) (b : Nat) (open_ : Nat → Nat) (q : List Nat × Bool × BitVec 16) (i : Nat) :
    List Nat × Bool × BitVec 16 :=
  match r.sideAt b i with
  | some v =>
    let y := foldSide st f q.2.2 v (open_ i)
    (q.1 ++ [y.1], q.2.1 || y.2.1, y.2.2)
  | none =>
    let c := r.code b i
    let c' := match f with
      | .f4 => c
      | .f8 => c
      | .t => ((((c : Int) - 1) * 64) % 256).toNat
      | f => ((signExt c f.width * ((int8Step f).1 : Int)) % 256).toNat
    (q.1 ++ [c'], q.2.1, q.2.2)

/-- One block exported: MX scale, codes, engine (R149). -/
def exportBlock (st : Bool) (f : Fmt) (r : Run) (b : Nat) (open_ : Nat → Nat) (g : Engine) : Nat × List Nat × Engine :=
  let q := (List.range 32).foldl (exportElem st f r b open_) ([], false, g.lfsr)
  let sideNan := f.isFloat && r.side.any fun e => e.block == b && (f.sideValue e.value).isNone &&
    decide (e.value % 1024 ≠ 0)
  let elemNan := decide (f = .f8) && (List.range 32).any fun i => (r.sideAt b i).isNone && r.code b i % 128 == 127
  let g := { g with lfsr := q.2.2, nan := g.nan || decide (r.scale b = 255) || sideNan || elemNan }
  let s := if r.scale b = 255 then 255 else r.scale b + (if f.isFloat then 0 else (int8Step f).2)
  if r.scale b ≠ 255 ∧ 254 < s then
    let k := s - 254
    let cs := q.1.map fun c =>
      let x := signExt c 8 * 2 ^ k
      (max (-127) (min 127 x), x)
    let sat := cs.any fun c => c.1 != c.2
    let g := { g with clipc := satInc g.clipc, outc := if sat || q.2.1 then satInc g.outc else g.outc }
    (254, cs.map fun c => (c.1 % 256).toNat, g)
  else (s, q.1, { g with outc := if q.2.1 then satInc g.outc else g.outc })

/-- The words of an interchange area (R150). -/
def mxWords (x : Mx) (n : Nat) (scales : List Nat) (codes : List (List Nat)) : List TWord :=
  ((natWords (scaleWords n) (digits 256 scales)) ++
    (codes.flatMap fun c => natWords x.width (digits (2 ^ x.width) c))).map fun w => ⟨w, Tag.raw⟩

/-- An interchange area taken apart: scales and codes. -/
def mxOf (x : Mx) (n : Nat) (ws : List TWord) : List Nat × List (List Nat) :=
  ((List.range n).map (wordByte ws), (List.range n).map fun b =>
    let v := wordsNat ((ws.drop (scaleWords n + b * x.width)).take x.width)
    (List.range 32).map fun i => v / 2 ^ (x.width * i) % 2 ^ x.width)

end Sys2Proof.Machine
end

