-- ==== Sys2Proof/Machine/Stream.lean ====
section
/-!
DEFINITION. Ports, and class 0xA (R89, R132, R161–R167).
-/

namespace Sys2Proof.Machine

/-! ### Ports -/

def Core.inport (k : Core) (q : Port) : List PortWord := k.inp[q.toNat]'q.isLt
def Core.outport (k : Core) (q : Port) : OutPort := k.outp[q.toNat]'q.isLt
def Core.setInport (k : Core) (q : Port) (ws : List PortWord) : Core := { k with inp := k.inp.set q.toNat ws q.isLt }
def Core.setOutport (k : Core) (q : Port) (o : OutPort) : Core := { k with outp := k.outp.set q.toNat o q.isLt }
def Core.engine (k : Core) (e : BitVec 2) : Engine := k.eng[e.toNat]'e.isLt
def Core.setEngine (k : Core) (e : BitVec 2) (g : Engine) : Core := { k with eng := k.eng.set e.toNat g e.isLt }

def allPorts : List Port := [0, 1, 2, 3, 4, 5, 6, 7]
def allEngines : List (BitVec 2) := [0, 1, 2, 3]

/-- The output port whose stream ends at an input port. -/
def State.feeder (s : State) (c : CoreId) (q : Port) : Option (CoreId × Port) :=
  (s.cores.filter fun e => decide (e.1 < 2 ^ 20)).findSome? fun e =>
    (allPorts.find? fun o => (e.2.outport o).dst == some (c, q)).map fun o => (BitVec.ofNat 20 e.1, o)

/-- A word leaves an input port; a stream word's credit starts back to its source (R166). -/
def State.takeWord (s : State) (p : Proc) (q : Port) : State :=
  let k := s.core p
  match k.inport q with
  | [] => s
  | w :: ws =>
    let s := s.setCore p ((k.setInport q ws).bump PmEv.taken 1)
    match p, w.hub with
    | .core c, false => match s.feeder c q with
      | some src => { s with fab := { s.fab with credits := s.fab.credits ++ [(src.1, src.2, k.gen, 1)] } }
      | none => s
    | _, _ => s

/-! ### Engines at ports (R132) -/

/-- The formats of a core: weights, activations (R42); a reserved code stands for B4 and is cast by nothing. -/
def CoreFmt.weights (f : CoreFmt) : Fmt := (Fmt.ofCode f.wfmt).getD .b4
def CoreFmt.activations (f : CoreFmt) : Fmt := (Fmt.ofCode f.afmt).getD .b4

/-- Whether an operation still takes words from the port. -/
def EngOp.wants (fmt : CoreFmt) (op : EngOp) (q : Port) : Bool :=
  match op.instr with
  | .edot _ f => f.xp && f.xseg == q && decide (scanRun fmt.activations (f.n.toNat + 1) op.got = .more)
  | _ => false

/-- The operations that still take words from the port, by engine and place in its queue. -/
def Core.claims (k : Core) (q : Port) : List (BitVec 2 × Nat × EngOp) :=
  allEngines.flatMap fun e => (((k.engine e).queue.zipIdx).filter fun x => x.1.wants k.fmt q).map fun x => (e, x.2, x.1)

/-- Whether a port's next word goes to an edot. -/
def Core.claimed (k : Core) (q : Port) : Bool := !(k.claims q).isEmpty

/-- The claim of lowest issue order. -/
def firstClaim : List (BitVec 2 × Nat × EngOp) → Option (BitVec 2 × Nat × EngOp)
  | [] => none
  | x :: r => match firstClaim r with
    | none => some x
    | some y => if y.2.2.seq < x.2.2.seq then some y else some x

/-- An executing edot takes one word that waits for it. -/
def State.pullOne (s : State) (p : Proc) (q : Port) : Option State :=
  let k := s.core p
  match firstClaim (k.claims q), k.inport q with
  | some (e, 0, op), w :: _ =>
    let g := k.engine e
    some ((s.takeWord p q).modCore p fun k =>
      k.setEngine e { g with queue := { op with got := op.got ++ [w.w] } :: g.queue.drop 1 })
  | _, _ => none

/-- Executing edots take the words that wait at a port. -/
def State.pullPort (s : State) (p : Proc) (q : Port) : Nat → State
  | 0 => s
  | n + 1 => match s.pullOne p q with
    | none => s
    | some s => State.pullPort s p q n

/-- Executing edots take every word that waits for them. -/
def State.pull (s : State) (p : Proc) : State :=
  allPorts.foldl (fun s q => s.pullPort p q ((s.core p).inport q).length) s

/-! ### Class 0xA (R89) -/

/-- The word that the next instruction sees at an input port. -/
def Core.front (k : Core) (q : Port) : Option TWord := if k.claimed q then none else (k.inport q).head?.map (·.w)

def waitFor (i : Instr) : Wait := ⟨i, true, 0, []⟩

def recvBody (p : Proc) (f : StrF) (s : State) : Body :=
  match (s.core p).front f.port with
  | some w => .ok ((s.takeWord p f.port).modCore p fun k => k.setReg f.r w)
  | none => .wait s (waitFor (.recv p f))

def execRecv (p : Proc) (f : StrF) (s : State) : Host.Outcome State Fault Refusal :=
  .next (s.issue p f.cond (f.resv == 0) .next (recvBody p f))

def execRtry (p : Proc) (f : StrF) (s : State) : Host.Outcome State Fault Refusal :=
  .next (s.issue p f.cond (f.resv == 0) .next fun s =>
    match (s.core p).front f.port with
    | some w => .ok ((s.takeWord p f.port).modCore p fun k => (k.setReg f.r w).setZ false)
    | none => .ok (s.modCore p fun k => k.setZ true))

def execPeek (p : Proc) (f : StrF) (s : State) : Host.Outcome State Fault Refusal :=
  .next (s.issue p f.cond (f.resv == 0) .next fun s =>
    match (s.core p).front f.port with
    | some w => .ok (s.modCore p fun k => (k.setReg f.r w).setZ false)
    | none => .ok (s.modCore p fun k => k.setZ true))

/-- A word leaves on an output port that holds a credit (R166, R167). -/
def State.sendWord (s : State) (p : Proc) (q : Port) (w : TWord) : State :=
  let k := s.core p
  let o := k.outport q
  let s := s.setCore p ((k.bump PmEv.sends 1).setOutport q { o with credits := o.credits - 1, sent := o.sent + 1 })
  match p, o.dst with
  | .core c, some d =>
    { s with fab := { s.fab with transit := s.fab.transit ++ [⟨c, q, k.gen, d.1, d.2, ⟨w, k.flask, false⟩⟩] } }
  | _, _ => s

/-- The tags that a send takes: any but LOCK; POISON goes on without a trap (R96, R97). -/
def sendTrap (w : TWord) : Option TrapInfo := if w.tag = Tag.lock then some (tagTrap Tag.lock) else none

def sendBody (p : Proc) (f : StrF) (s : State) : Body :=
  let k := s.core p
  match sendTrap (k.reg f.r) with
  | some t => .trap s t
  | none => if 0 < (k.outport f.port).credits then .ok (s.sendWord p f.port (k.reg f.r)) else .wait s (waitFor (.send p f))

def execSend (p : Proc) (f : StrF) (s : State) : Host.Outcome State Fault Refusal :=
  .next (s.issue p f.cond (f.resv == 0) .next (sendBody p f))

def execStry (p : Proc) (f : StrF) (s : State) : Host.Outcome State Fault Refusal :=
  .next (s.issue p f.cond (f.resv == 0) .next fun s =>
    let k := s.core p
    match sendTrap (k.reg f.r) with
    | some t => .trap s t
    | none =>
      if 0 < (k.outport f.port).credits then .ok ((s.sendWord p f.port (k.reg f.r)).modCore p fun k => k.setZ false)
      else .ok (s.modCore p fun k => k.setZ true))

def waitanyBody (p : Proc) (f : StrF) (s : State) : Body :=
  match allPorts.find? fun q => f.mask.getLsbD q.toNat && ((s.core p).front q).isSome with
  | some q => .ok (s.modCore p fun k => k.setReg f.r ⟨BitVec.ofNat 32 q.toNat, Tag.int⟩)
  | none => .wait s (waitFor (.waitany p f))

def execWaitany (p : Proc) (f : StrF) (s : State) : Host.Outcome State Fault Refusal :=
  .next (s.issue p f.cond (f.resv == 0) .next (waitanyBody p f))

/-- A word with the bits of the ports that hold. -/
def portBits (on : Port → Bool) : Nat := allPorts.foldl (fun n q => n + if on q then 2 ^ q.toNat else 0) 0

def execPstat (p : Proc) (f : StrF) (s : State) : Host.Outcome State Fault Refusal :=
  .next (s.issue p f.cond (f.resv == 0) .next fun s =>
    let k := s.core p
    let v := portBits (fun q => !(k.inport q).isEmpty) + 256 * portBits fun q => decide (0 < (k.outport q).credits)
    .ok (s.modCore p fun k => k.setReg f.r ⟨BitVec.ofNat 32 v, Tag.int⟩))

end Sys2Proof.Machine
end

