-- ==== Sys2Proof/Machine/Sync.lean ====
section
/-!
DEFINITION. Class 0xB at the core and at the home (R90, R174–R192).
-/

namespace Sys2Proof.Machine

namespace SyncCause
def underflow : Nat := 1
def overflow : Nat := 2
def badAmount : Nat := 3
def objectTag : Nat := 4
def ahead : Nat := 5
def barrierOverflow : Nat := 6
def notOwner : Nat := 7
def recursive : Nat := 8
def lockLimit : Nat := 9
def gone : Nat := 10
end SyncCause

/-- The `SYNC` trap (R181). -/
def syncTrap (seg : BitVec 3) (off edetail : Word) : TrapInfo :=
  { trapOf Vec.sync with seg := seg, eaddr := off, edetail := edetail }

/-- Whether the register [23:20] is read (R179). -/
def SyncKind.reads : SyncKind → Bool
  | .tdec | .tinc | .barr | .barw => true
  | _ => false

def SyncKind.need : SyncKind → Need
  | .twait => Need.read
  | _ => ⟨true, true, false⟩

/-- Whether the instruction fences before it acts (R175). -/
def SyncKind.fences : SyncKind → Bool
  | .barr | .barw | .unlock => true
  | _ => false

def SyncKind.isLock : SyncKind → Bool
  | .lock | .trylock => true
  | _ => false

def syncOff (c : Core) (f : SyncF) : Int := segOff (c.reg f.ra).payload false (f.imm.toInt * 4)

/-- The core's part of a class 0xB instruction other than fence: operands, segment, `LOCK_LIMIT`, the fence, and the
request to the home. -/
def syncBody (p : Proc) (i : Instr) (f : SyncF) (kind : SyncKind) (s : State) : Body :=
  let c := s.core p
  match operandTrap ([(c.reg f.ra, offLike)] ++ (if kind.reads then [(c.reg f.r, intLike)] else [])) with
  | some t => .trap s t
  | none =>
    let off := syncOff c f
    match segCheck c.a f.seg off 4 kind.need with
    | .error t => .trap s t
    | .ok addr =>
      if space addr ≠ 1 then .trap s (segTrap Vec.access f.seg off)
      else match locate s p (c.a.desc f.seg) f.seg off addr with
        | .error t => .trap s t
        | .ok pl =>
          if kind.isLock && decide (4 ≤ c.locks.length) then
            .trap s (syncTrap f.seg (BitVec.ofInt 32 off) (BitVec.ofNat 32 SyncCause.lockLimit))
          else if kind.fences && !s.fenceOver p then .wait s ⟨i, false, pl.fa, []⟩
          else
            .wait { s with fab := { s.fab with
                nextId := s.fab.nextId + 1
                syncs := s.fab.syncs ++ [⟨s.fab.nextId, p, c.gen, BitVec.ofNat 48 pl.fa, (c.a.desc f.seg).flask, f.seg,
                  BitVec.ofInt 32 off, kind, (c.reg f.r).payload, c.idx⟩] } }
              ⟨i, true, pl.fa, []⟩

def execTdec (p : Proc) (f : SyncF) (s : State) : Host.Outcome State Fault Refusal :=
  .next (s.issue p f.cond true .next (syncBody p (.tdec p f) f .tdec))

def execTinc (p : Proc) (f : SyncF) (s : State) : Host.Outcome State Fault Refusal :=
  .next (s.issue p f.cond true .next (syncBody p (.tinc p f) f .tinc))

def execTwait (p : Proc) (f : SyncF) (s : State) : Host.Outcome State Fault Refusal :=
  .next (s.issue p f.cond true .next (syncBody p (.twait p f) f .twait))

def execBarr (p : Proc) (f : SyncF) (s : State) : Host.Outcome State Fault Refusal :=
  .next (s.issue p f.cond true .next (syncBody p (.barr p f) f .barr))

def execBarw (p : Proc) (f : SyncF) (s : State) : Host.Outcome State Fault Refusal :=
  .next (s.issue p f.cond true .next (syncBody p (.barw p f) f .barw))

def execLock (p : Proc) (f : SyncF) (s : State) : Host.Outcome State Fault Refusal :=
  .next (s.issue p f.cond true .next (syncBody p (.lock p f) f .lock))

def execTrylock (p : Proc) (f : SyncF) (s : State) : Host.Outcome State Fault Refusal :=
  .next (s.issue p f.cond true .next (syncBody p (.trylock p f) f .trylock))

def execUnlock (p : Proc) (f : SyncF) (s : State) : Host.Outcome State Fault Refusal :=
  .next (s.issue p f.cond true .next (syncBody p (.unlock p f) f .unlock))

def fenceBody (p : Proc) (f : SyncF) (s : State) : Body :=
  if s.fenceOver p then .ok s else .wait s ⟨.fence p f, false, 0, []⟩

/-- fence; ra, seg and imm9 must be zero. -/
def execFence (p : Proc) (f : SyncF) (s : State) : Host.Outcome State Fault Refusal :=
  .next (s.issue p f.cond (f.ra == 0 && f.seg == 0 && f.imm == 0) .next (fenceBody p f))

/-! ### At the home -/

/-- A word of an object written by the sync unit for a core, or for the hub; the core's own reservation stays (R109). -/
def State.syncWrite (s : State) (who : Option Proc) (fa : Nat) (w : TWord) : State :=
  { s with mem := s.mem.setWord (fa / 4) w }.breakResv (fa / 64) who

def State.syncReply (s : State) (r : SyncReq) (x : Reply) : State :=
  { s with fab := { s.fab with syncReps := s.fab.syncReps ++ [⟨r.issuer, r.gen, r.addr, r.seg, r.off, false, x⟩] } }

/-- A `SYNC` error response. -/
def State.syncError (s : State) (r : SyncReq) (cause : Nat) : State := s.syncReply r (.sync (BitVec.ofNat 32 cause))

/-- Whether n words of an object have the tag that the sync unit requires; one that is lost is marked, and has not (R180,
R222). -/
def wordsOk (s : State) (fa : Nat) (lock : Bool) (n : Nat) : Bool × State :=
  (List.range n).foldl (fun (r : Bool × State) i =>
    let w := r.2.readWord (fa / 4 + i) .core .stored
    ((r.1 && (if lock then w.1.tag == Tag.lock else w.1.tag == Tag.int || w.1.tag == Tag.raw), w.2.2) : Bool × State)) (true, s)

/-- The same for an object of one word. -/
def wordOk (s : State) (fa : Nat) (lock : Bool) : Bool × State := wordsOk s fa lock 1

def amountBad (v : Word) : Bool := decide (v.toNat = 0) || decide (65535 < v.toNat)

/-- tdec and tinc (R183). -/
def State.tallyOp (s : State) (r : SyncReq) (up : Bool) : State :=
  let fa := r.addr.toNat
  let w := s.mem.word (fa / 4)
  let n := w.payload.toNat % 2 ^ 31
  let top := w.payload.toNat / 2 ^ 31 * 2 ^ 31
  if amountBad r.reg then s.syncError r SyncCause.badAmount
  else if !up && decide (n < r.reg.toNat) then s.syncError r SyncCause.underflow
  else if up && decide (2 ^ 31 - 1 < n + r.reg.toNat) then s.syncError r SyncCause.overflow
  else
    let n' := if up then n + r.reg.toNat else n - r.reg.toNat
    ((s.syncWrite r.issuer fa ⟨BitVec.ofNat 32 (top + n'), w.tag⟩).wakeTally fa).syncReply r (.flags (decide (n' = 0)) none)

/-- A waiter enters the home's table of 512 entries; `none` where it is full (R178). -/
def State.addWaiter (s : State) (r : SyncReq) (k : WaitKind) : Option State :=
  let cl := faCluster r.addr.toNat
  let c := s.cluster cl
  if 512 ≤ c.waiters.length then none
  else some (s.setCluster cl { c with waiters := c.waiters ++ [⟨r.issuer, r.gen, r.addr, r.seg, r.off, r.holder, k⟩] })

/-- twait (R184). -/
def State.tallyWait (s : State) (r : SyncReq) : State :=
  if (s.mem.word (r.addr.toNat / 4)).payload.toNat % 2 ^ 31 = 0 then s.syncReply r (.data ⟨0, Tag.int⟩)
  else match s.addWaiter r .tally with
    | some s => s
    | none => s.syncReply r .retry

/-! ### Barriers (R185–R188) -/

/-- A barrier's eight words. -/
structure Barrier where
  arrived : Nat
  round : BitVec 2
  pend : Bool
  early : Nat
  partic : Nat
  expect : Word
  produced : Word
  earlyProduced : Word
  pendPartic : Nat
  pendExpect : Word
  deriving DecidableEq, Repr

def Barrier.read (s : State) (fa : Nat) : Barrier :=
  let w (i : Nat) : Word := (s.mem.word (fa / 4 + i)).payload
  { arrived := bits (w 0).toNat 20 0, round := (w 0).extractLsb' 21 2, pend := (w 0).getLsbD 23
    early := bits (w 1).toNat 20 0, partic := bits (w 2).toNat 20 0, expect := w 3, produced := w 4
    earlyProduced := w 5, pendPartic := bits (w 6).toNat 20 0, pendExpect := w 7 }

def Barrier.words (b : Barrier) : List Word :=
  [BitVec.ofNat 32 (b.arrived + b.round.toNat * 2 ^ 21 + if b.pend then 2 ^ 23 else 0), BitVec.ofNat 32 b.early,
    BitVec.ofNat 32 b.partic, b.expect, b.produced, b.earlyProduced, BitVec.ofNat 32 b.pendPartic, b.pendExpect]

/-- The hardware writes a barrier's words tagged INT. -/
def Barrier.write (s : State) (who : Option Proc) (fa : Nat) (b : Barrier) : State :=
  (b.words.zipIdx).foldl (fun s x => s.syncWrite who (fa + 4 * x.2) ⟨x.1, Tag.int⟩) s

/-- A round closes (R187). The entry of a waiter stays until its core has been woken or the next round closes, so that a `TIMER`
trap that comes before the wake does not lose it (R188). -/
def State.closeRound (s : State) (fa : Nat) (b : Barrier) : State × Barrier :=
  let cl := faCluster fa
  let c := s.cluster cl
  let drift := b.expect ≠ 0 ∧ b.produced ≠ b.expect
  let s := if drift then
      s.postCluster cl (s.mem.clusterOwnerOf cl) 0x0104 St.success
        (evData [cl.toNat, fa % 2 ^ 18, b.round.toNat, (b.produced - b.expect).toNat])
    else s
  let at_ (w : Waiter) : Bool := w.addr.toNat == fa
  let wakes := c.waiters.filter fun w => at_ w && decide (w.kind = .barrier b.round false false)
  let keep (w : Waiter) : Option Waiter :=
    if at_ w then
      match w.kind with
      | .barrier r d false => if r = b.round then some { w with kind := .barrier r d true } else some w
      | .barrier r _ true => if r = b.round - 1 then none else some w
      | _ => some w
    else some w
  let s := s.setCluster cl { s.cluster cl with waiters := c.waiters.filterMap keep }
  (wakes.foldl (fun s w => s.wakeWith w .done) s,
    { b with partic := if b.pend then b.pendPartic else b.partic, expect := if b.pend then b.pendExpect else b.expect
             pend := false, round := b.round + 1, arrived := b.early, produced := b.earlyProduced, early := 0
             earlyProduced := 0 })

/-- Rounds close while enough have arrived; at most three close at one arrival. -/
def State.closeRounds (s : State) (fa : Nat) (b : Barrier) : Nat → State × Barrier
  | 0 => (s, b)
  | n + 1 => if b.partic ≤ b.arrived then
      let r := s.closeRound fa b
      State.closeRounds r.1 fa r.2 n
    else (s, b)

/-- `EDETAIL` of the barrier causes (R181). -/
def barrierDetail (cause : Nat) (b : Barrier) (round : BitVec 2) : Word :=
  BitVec.ofNat 32 (cause + b.round.toNat * 2 ^ 4 + round.toNat * 2 ^ 6)

/-- The detached entry of an earlier barw of the same core on the same barrier (R188). -/
def State.detachedAt (s : State) (r : SyncReq) (round : BitVec 2) : Option Waiter :=
  (s.waitersAt r.addr.toNat).find? fun w => w.issuer == r.issuer && w.gen == r.gen &&
    (decide (w.kind = .barrier (round - 1) true false) || decide (w.kind = .barrier (round - 1) true true))

/-- An operation whose result is unpredictable within the flask (R3, R180, R187): the words at the object hold free values, and
the caller is answered as by an operation that was performed, with free results. -/
def State.anyResult (s : State) (r : SyncReq) : State :=
  let fa := r.addr.toNat
  let words := ((List.range (if r.kind = .barr ∨ r.kind = .barw then 8 else 1)).map fun i => fa + 4 * i).filter faValid
  let s := words.foldl (fun s a => s.took.syncWrite r.issuer a ⟨s.free.extractLsb' 0 32, Tag.int⟩) s
  s.took.syncReply r (match r.kind with
    | .tdec | .tinc => .flags (s.free.getLsbD 0) none
    | .twait => .data ⟨s.free.extractLsb' 0 32, Tag.int⟩
    | _ => .done)

/-- An arrival (R186, R187); `waits` for barw. Words that no cast wrote and the hardware does not keep, which hold no
participants, or as many arrived as take part, make it unpredictable (R56, R187). -/
def State.arrive (s : State) (r : SyncReq) (waits : Bool) : State :=
  let fa := r.addr.toNat
  let b := Barrier.read s fa
  let round : BitVec 2 := r.reg.extractLsb' 16 2
  let amount : Word := BitVec.ofNat 32 (bits r.reg.toNat 15 0)
  if bits r.reg.toNat 31 18 ≠ 0 then s.syncError r SyncCause.badAmount
  else match (if waits then s.detachedAt r round else none) with
  | some w =>
    let cl := faCluster fa
    let c := s.cluster cl
    let rest := c.waiters.filter (· ≠ w)
    match w.kind with
    | .barrier k _ false =>
      (s.setCluster cl { c with waiters := rest ++ [{ w with seg := r.seg, off := r.off, kind := .barrier k false false }] }).syncReply
        r (.flags false none)
    | _ => (s.setCluster cl { c with waiters := rest }).syncReply r .done
  | none =>
    if b.partic = 0 ∨ b.partic ≤ b.arrived then s.anyResult r
    else
      let d := round - b.round
      if d = 0 then land s r waits fa { b with arrived := b.arrived + 1, produced := b.produced + amount } b.round
      else if d = 1 then
        if b.partic < b.early + 1 then s.syncReply r (.sync (barrierDetail SyncCause.barrierOverflow b round))
        else land s r waits fa { b with early := b.early + 1, earlyProduced := b.earlyProduced + amount } (b.round + 1)
      else s.syncReply r (.sync (barrierDetail SyncCause.ahead b round))
where
  /-- The arrival is counted, rounds close, and the caller is answered; a barw that waits needs an entry first. -/
  land (s : State) (r : SyncReq) (waits : Bool) (fa : Nat) (b' : Barrier) (round : BitVec 2) : State :=
    match (if waits then s.addWaiter r (.barrier round false false) else some s) with
    | none => if b'.partic ≤ b'.arrived then
        let c := s.closeRounds fa b' 3
        (Barrier.write c.1 r.issuer fa c.2).syncReply r (.data TWord.zero)
      else s.syncReply r .retry
    | some s =>
      let c := (s.syncReply r (if waits then .flags true none else .done)).closeRounds fa b' 3
      Barrier.write c.1 r.issuer fa c.2

/-- A barw that has been woken leaves the table. -/
def State.leaveBarrier (s : State) (r : MemRep) : State :=
  let cl := faCluster r.fa.toNat
  let c := s.cluster cl
  let mine (w : Waiter) : Bool := w.issuer == r.issuer && w.gen == r.gen && w.addr == r.fa && match w.kind with
    | .barrier _ false true => true
    | _ => false
  if c.waiters.any mine then s.setCluster cl { c with waiters := c.waiters.filter fun w => !mine w } else s

/-! ### Locks (R189–R192) -/

def lockHeld (v : Word) : Bool := v.getLsbD 20
def lockAbandoned (v : Word) : Bool := v.getLsbD 21
def lockOwner (v : Word) : Nat := bits v.toNat 19 0

/-- A lock word. -/
def lockWord (owner : Nat) (held abandoned waiters : Bool) : TWord :=
  ⟨BitVec.ofNat 32 (owner % 2 ^ 20 + (if held then 2 ^ 20 else 0) + (if abandoned then 2 ^ 21 else 0) +
    if waiters then 2 ^ 22 else 0), Tag.lock⟩

/-- The status that a grant writes into rd. -/
def grantWord (abandoned : Bool) : TWord := ⟨if abandoned then 0x51 else 0, Tag.int⟩

/-- A grant that has crossed, or is crossing, the withdrawal of its wait (R191). -/
def State.crossed (s : State) (r : SyncReq) : Bool :=
  ((s.core r.issuer).locks.any fun h => h.addr == r.addr && h.crossed)

def State.granting (s : State) (r : SyncReq) : Bool :=
  s.fab.syncReps.any fun x => x.issuer == r.issuer && x.gen == r.gen && x.fa == r.addr && x.grants

/-- lock and trylock (R190, R191). -/
def State.lockOp (s : State) (r : SyncReq) (waits : Bool) : State :=
  let fa := r.addr.toNat
  let v := (s.mem.word (fa / 4)).payload
  if !lockHeld v then
    (s.syncWrite r.issuer fa (lockWord r.holder true (lockAbandoned v) (v.getLsbD 22))).syncReply r
      (.flags true (some (grantWord (lockAbandoned v))))
  else if lockOwner v = r.holder then
    if s.granting r then s
    else if s.crossed r then s.syncReply r (.flags true (some (grantWord (lockAbandoned v))))
    else s.syncError r SyncCause.recursive
  else if waits then
    match s.addWaiter r .lock with
    | none => s.syncReply r .retry
    | some s => s.markWaiters fa
  else s.syncReply r (.flags false (some ⟨v, Tag.int⟩))

/-- unlock (R190). -/
def State.unlockOp (s : State) (r : SyncReq) : State :=
  let fa := r.addr.toNat
  let v := (s.mem.word (fa / 4)).payload
  if !(lockHeld v && lockOwner v == r.holder) then s.syncError r SyncCause.notOwner
  else
    let cl := faCluster fa
    let c := s.cluster cl
    match (s.waitersAt fa).filter (fun w => decide (w.kind = .lock)) with
    | [] => (s.syncWrite r.issuer fa (lockWord 0 false false false)).syncReply r .done
    | w :: rest =>
      let s := s.setCluster cl { c with waiters := c.waiters.filter (· ≠ w) }
      ((s.syncWrite r.issuer fa (lockWord w.holder true false (!rest.isEmpty))).wakeWith w (.flags true (some (grantWord false)))).syncReply
        r .done

/-- An abandoned lock (R192). -/
def State.abandon (s : State) (fa : Nat) (idx : Nat) : State :=
  let w := s.mem.word (fa / 4)
  let cl := faCluster fa
  if w.tag = Tag.lock ∧ lockHeld w.payload ∧ lockOwner w.payload = idx then
    let c := s.cluster cl
    let ws := (s.waitersAt fa).filter fun w => decide (w.kind = .lock)
    let s := (s.setCluster cl { c with waiters := c.waiters.filter fun w => !ws.contains w }).syncWrite none fa
      (lockWord idx false true false)
    (ws.foldl (fun s w => s.wakeWith w (.flags false (some ⟨0x51, Tag.int⟩))) s).postDom (s.mem.clusterOwnerOf cl) 0x0105
      St.success cl.toNat (evData [cl.toNat, fa % 2 ^ 18, idx])
  else s

/-- The kind of object that the flask's `SYNC` records name at an address, where one does (R180). -/
def State.objectKind (s : State) (dom : Domain) (fa : Nat) : Option Byte :=
  let f := s.flask (BitVec.ofNat 8 dom.toNat)
  if 256 ≤ dom.toNat then none
  else match f.mould with
    | none => none
    | some m => (m.syncs.find? fun r => (f.clusters[r.cluster.toNat]?) == some (faCluster fa) &&
        (r.offset.toNat == fa % 2 ^ 18 || (r.kind == 2 && decide (r.offset.toNat ≤ fa % 2 ^ 18) &&
          decide (fa % 2 ^ 18 < r.offset.toNat + 32)))).map (·.kind)

def SyncKind.object : SyncKind → Byte
  | .tdec | .tinc | .twait => 1
  | .barr | .barw => 2
  | _ => 3

/-- Whether a request may be performed now: no earlier access of its issuer is on its way on the same path (R169, R171). -/
def State.syncTurn (s : State) (r : SyncReq) : Bool :=
  !(s.fab.reqs.any fun q => q.issuer == r.issuer && decide (q.id < r.id) && pathOf q.addr.toNat == pathOf r.addr.toNat)

/-- A response to, or a drop of, what comes from a port that is fenced: of an old generation (R195), or of a core that has
failed and has no replacement (R196). -/
def State.stale (s : State) (p : Proc) (gen : Byte) : Bool := (s.core p).gen != gen || (s.core p).failed

/-- A drop at the switch of a fenced port. -/
def State.fenceDrop (s : State) (p : Proc) : State :=
  match procCluster p with
  | none => s
  | some cl => s.setCluster cl { s.cluster cl with fenceDrops := satInc (s.cluster cl).fenceDrops }

/-- The home's sync unit performs one request (R178–R190). An operation of one kind on an object that a `SYNC` record gives
another kind, or on a barrier that would leave the store, is unpredictable (R180). -/
def State.syncAt (s : State) (r : SyncReq) : State :=
  let fa := r.addr.toNat
  let n := if r.kind.object = 2 then 8 else 1
  if !faValid fa then s.syncReply r .bus
  else if !homeOk s r.dom fa then s.syncReply r .accessFault
  else if !faValid (fa + 4 * (n - 1)) then s.anyResult r
  else
    let ok := wordsOk s fa (decide (r.kind.object = 3)) n
    let s := ok.2
    if !ok.1 then s.syncError r SyncCause.objectTag
    else if decide (r.kind.object ≠ 3) && (match s.objectKind r.dom fa with
        | some k => k == 1 || k == 2
        | none => false) && s.objectKind r.dom fa != some r.kind.object then s.anyResult r
    else match r.kind with
      | .tdec => s.tallyOp r false
      | .tinc => s.tallyOp r true
      | .twait => s.tallyWait r
      | .barr => s.arrive r false
      | .barw => s.arrive r true
      | .lock => s.lockOp r true
      | .trylock => s.lockOp r false
      | .unlock => s.unlockOp r

/-- SYNC_OP_AT_HOME. -/
def execSyncOpAtHome (req : Nat) (s : State) : Host.Outcome State Fault Refusal :=
  match s.fab.syncs.find? (·.id = req) with
  | none => .next s
  | some r =>
    let s' := { s with fab := { s.fab with syncs := s.fab.syncs.filter (·.id ≠ req) } }
    if s.stale r.issuer r.gen then .next (s'.fenceDrop r.issuer)
    else if !s.syncTurn r then .next s
    else .next (((s'.travel (procDie r.issuer) (faDie r.addr.toNat) 0 4).clCount (faCluster r.addr.toNat) 6 1).syncAt r)

/-! ### Replies -/

def syncFields : Instr → Option (Proc × SyncF × SyncKind)
  | .tdec p f => some (p, f, .tdec)
  | .tinc p f => some (p, f, .tinc)
  | .twait p f => some (p, f, .twait)
  | .barr p f => some (p, f, .barr)
  | .barw p f => some (p, f, .barw)
  | .lock p f => some (p, f, .lock)
  | .trylock p f => some (p, f, .trylock)
  | .unlock p f => some (p, f, .unlock)
  | _ => none

/-- The arrival register after its arrival (R186). -/
def roundUp (c : Core) (r : RegNo) : Core :=
  let v := (c.reg r).payload
  c.setReg r ⟨BitVec.ofNat 32 (v.toNat - bits v.toNat 17 16 * 65536 + (bits v.toNat 17 16 + 1) % 4 * 65536), Tag.int⟩

/-- The held-lock list after a grant. -/
def Core.holds (c : Core) (fa : BitVec 48) (crossed : Bool) : Core :=
  { c with locks := (c.locks.filter fun h => h.addr != fa) ++ [⟨fa, crossed⟩] }

/-- What the waiting instruction makes of a reply. -/
def syncEnd (p : Proc) (f : SyncF) (kind : SyncKind) (w : Wait) (r : MemRep) (s : State) : Body :=
  match r.reply with
  | .sync d => .trap s (syncTrap r.seg r.off d)
  | .accessFault => .trap s (segTrap Vec.access r.seg r.off.toInt)
  | .bus => .trap s (segTrap Vec.bus r.seg r.off.toInt)
  | .retry => .wait s { w with issued := false }
  | .data d => match kind with
    | .barw => .ok (s.modCore p fun c => roundUp c f.r)
    | _ => .ok (s.modCore p fun c => c.setReg f.r d)
  | .flags z none => match kind with
    | .barw => .wait (if z then s.modCore p fun c => roundUp c f.r else s) { w with got := [TWord.zero] }
    | _ => .ok (s.modCore p fun c => c.setZ z)
  | .flags z (some d) =>
    .ok (s.modCore p fun c => (if z then c.holds r.fa false else c).setReg f.r d |>.setZ z)
  | .done => match kind with
    | .barr => .ok (s.modCore p fun c => roundUp c f.r)
    | .barw => .ok (s.leaveBarrier r)
    | .unlock => .ok (s.modCore p fun c => { c with locks := c.locks.filter fun h => h.addr != r.fa })
    | _ => .ok s
  | .tagFault t => .trap s { segTrap Vec.tag r.seg r.off.toInt with found := t }

/-- SYNC_REPLY. A grant that no wait takes any more stands, marked as crossed; one whose core is lost is abandoned
(R191, R192). -/
def execSyncReply (p : Proc) (s : State) : Host.Outcome State Fault Refusal :=
  match s.fab.syncReps.find? (·.issuer == p) with
  | none => .next s
  | some r =>
    let s := { s with fab := { s.fab with syncReps := s.fab.syncReps.erase r } }.travel (faDie r.fa.toNat) (procDie p) 1 4
    let k := s.core p
    let lose (s : State) : State :=
      match p with
      | .core c => { s with fab := { s.fab with lost := s.fab.lost ++ [(c, k.idx, r.fa)] } }
      | _ => s
    if s.stale p r.gen then .next (if r.grants then lose s else s)
    else match k.wait with
    | some w => match syncFields w.instr with
      | some (_, f, kind) =>
        if w.fa = r.fa.toNat ∧ w.issued then .next (s.settle p 1 (syncEnd p f kind w r s))
        else .next (if r.grants then s.setCore p (k.holds r.fa true) else s)
      | none => .next (if r.grants then s.setCore p (k.holds r.fa true) else s)
    | none =>
      if !r.grants then .next s
      else match k.run with
        | .running => .next (s.setCore p (k.holds r.fa true))
        | _ => .next (lose s)

/-- SYNC_WAIT_RETRY (R178). -/
def execSyncWaitRetry (p : Proc) (s : State) : Host.Outcome State Fault Refusal :=
  match (s.core p).wait with
  | some w => match syncFields w.instr with
    | some (_, f, kind) => if w.issued then .next s
      else
        let s := s.clCount (faCluster w.fa) 7 1
        .next (s.settle p 1 (syncBody p w.instr f kind s))
    | none => .next s
  | none => .next s

/-- LOCK_ABANDON (R192). -/
def execLockAbandon (c : CoreId) (s : State) : Host.Outcome State Fault Refusal :=
  .next ((s.fab.lost.filter fun x => x.1 == c).foldl (fun s x => s.abandon x.2.2.toNat x.2.1)
    { s with fab := { s.fab with lost := s.fab.lost.filter fun x => x.1 != c } })

end Sys2Proof.Machine
end

