-- ==== Sys2Proof/Machine/Engine.lean ====
section
/-!
DEFINITION. Class 0xC and the work of the engines (R127–R157).
-/

namespace Sys2Proof.Machine

/-! ### Errors (R154, R155) -/

/-- `EDETAIL` of an `ENGINE` trap. -/
def engDetail (e : BitVec 2) (cause : EngCause) (block : BitVec 3) (discarded atIssue : Bool) (pc : Nat) : Word :=
  BitVec.ofNat 32 (e.toNat + cause.toNat * 2 ^ 4 + block.toNat * 2 ^ 8 + (if discarded then 2 ^ 11 else 0) +
    (if atIssue then 2 ^ 12 else 0) + pc % 2 ^ 11 * 2 ^ 16)

def engTrap (d : Word) : TrapInfo := { trapOf Vec.engine with edetail := d }

/-- The pending error that an instruction naming the engines reports, and the state with it cleared. -/
def State.engReport (s : State) (p : Proc) : List (BitVec 2) → Option Body
  | [] => none
  | e :: es =>
    let k := s.core p
    match (k.engine e).err with
    | some x => some (.trap (s.setCore p (k.setEngine e { k.engine e with err := none }))
        (engTrap (engDetail e x.cause x.block x.discarded false x.opPc)))
    | none => State.engReport s p es

/-- The parameter's own error. -/
def badParam (s : State) (p : Proc) (e : BitVec 2) : TrapInfo :=
  engTrap (engDetail e EngCause.param 0 false true (s.core p).a.pc)

/-! ### Issue (R129–R131) -/

/-- The check of an engine's run or area: its fabric address and its offset. -/
def engCheck (s : State) (p : Proc) (seg : BitVec 3) (reg : RegNo) (words : Nat) (need : Need) :
    Except TrapInfo (Nat × Nat) :=
  let c := s.core p
  let off := segOff (c.reg reg).payload false 0
  match segCheck c.a seg off (4 * words) need with
  | .error t => .error t
  | .ok addr =>
    match locate s p (c.a.desc seg) seg off addr, locate s p (c.a.desc seg) seg (off + 4 * words - 4) (addr + 4 * words - 4) with
    | .error t, _ => .error t
    | _, .error t => .error t
    | .ok a, .ok b => if a.isLocal && b.isLocal then .ok (a.fa, off.toNat) else .error (segTrap Vec.access seg off)

/-- An operation enters its engine's queue; `none` where the queue holds two. -/
def State.enqueue (s : State) (p : Proc) (e : BitVec 2) (op : EngOp) : Option State :=
  let k := s.core p
  let g := k.engine e
  if 2 ≤ g.queue.length then none
  else some (({ s with fab := { s.fab with nextId := s.fab.nextId + 1 } }.setCore p
    (k.setEngine e { g with queue := g.queue ++ [{ op with seq := s.fab.nextId, pc := k.a.pc }] })).pull p)

def opOf (i : Instr) (param : Word) (w x : Nat × Nat) (wlen xlen : Nat) : EngOp :=
  ⟨i, 0, param, w.1, wlen, w.2, x.1, xlen, x.2, 0, [], []⟩

/-- The last part of an operation's issue: the pending error, then the queue. -/
def engQueue (p : Proc) (i : Instr) (e : BitVec 2) (op : EngOp) (s : State) : Body :=
  match s.engReport p [e] with
  | some b => b
  | none => match s.enqueue p e op with
    | some s => .ok s
    | none => .wait s (waitFor i)

def edotBody (p : Proc) (f : EdotF) (s : State) : Body :=
  let c := s.core p
  let n := f.n.toNat + 1
  let wl := c.fmt.weights.fixedWords n + 1
  let xl := c.fmt.activations.fixedWords n + 1
  match operandTrap ([(c.reg f.wreg, offLike)] ++ (if f.xp then [] else [(c.reg f.xreg, offLike)])) with
  | some t => .trap s t
  | none =>
    match bothChecks (engCheck s p f.wseg f.wreg wl Need.read)
        (if f.xp then .ok (0, 0) else engCheck s p f.xseg f.xreg xl Need.read) with
    | .error t => .trap s t
    | .ok (w, x) => engQueue p (.edot p f) f.e (opOf (.edot p f) 0 w x wl (if f.xp then 0 else xl)) s

/-- edot; with `XP` 1 xreg must be 0. -/
def execEdot (p : Proc) (f : EdotF) (s : State) : Host.Outcome State Fault Refusal :=
  .next (s.issue p f.cond (!f.xp || f.xreg == 0) .next (edotBody p f))

/-- What a parameter register says, if it is valid (R146, R150). -/
structure EngParam where
  n : Nat
  fmt : Fmt
  bias : Nat
  out : Bool
  mx : Mx
  deriving DecidableEq, Repr

def packParam (w : Word) : Option EngParam :=
  match Fmt.ofCode (w.extractLsb' 4 4) with
  | some f => if w.getLsbD 3 || decide (w.toNat / 2 ^ 10 ≠ 0) then none
      else some ⟨bits w.toNat 2 0 + 1, f, bits w.toNat 9 8, false, .fp4⟩
  | none => none

def mxParam (w : Word) : Option EngParam :=
  match Fmt.ofCode (w.extractLsb' 4 4), Mx.ofCode (bits w.toNat 10 8) with
  | some f, some x =>
    if decide (w.toNat / 2 ^ 11 ≠ 0) || !mxSupported (w.getLsbD 3) x f then none
    else some ⟨bits w.toNat 2 0 + 1, f, 0, w.getLsbD 3, x⟩
  | _, _ => none

/-- The words checked at source and destination (R131). -/
def packSizes (isPack : Bool) (q : EngParam) : Nat × Nat :=
  if isPack then (32 * q.n, q.fmt.fixedWords q.n + 2 * q.n)
  else if q.out then (q.fmt.fixedWords q.n + 1, q.mx.bytes q.n / 4)
  else (q.mx.bytes q.n / 4, q.fmt.fixedWords q.n + 1)

/-- epack and emx: operands, the parameter register, the segments, the queue (R131, R155). -/
def packBody (p : Proc) (i : Instr) (f : PackF) (isPack : Bool) (s : State) : Body :=
  let c := s.core p
  match operandTrap [(c.reg f.sreg, offLike), (c.reg f.dreg, offLike), (c.reg f.preg, intLike)] with
  | some t => .trap s t
  | none => match (if isPack then packParam else mxParam) (c.reg f.preg).payload with
    | none => match s.engReport p [f.e] with
      | some b => b
      | none => .trap s (badParam s p f.e)
    | some q =>
      let n := packSizes isPack q
      match bothChecks (engCheck s p f.sseg f.sreg n.1 Need.read) (engCheck s p f.dseg f.dreg n.2 Need.write) with
      | .error t => .trap s t
      | .ok (a, b) => engQueue p i f.e (opOf i (c.reg f.preg).payload a b n.1 n.2) s

def execEpack (p : Proc) (f : PackF) (s : State) : Host.Outcome State Fault Refusal :=
  .next (s.issue p f.cond true .next (packBody p (.epack p f) f true))

def execEmx (p : Proc) (f : PackF) (s : State) : Host.Outcome State Fault Refusal :=
  .next (s.issue p f.cond true .next (packBody p (.emx p f) f false))

def ezeroBody (p : Proc) (f : EzeroF) (s : State) : Body :=
  engQueue p (.ezero p f) f.e (opOf (.ezero p f) 0 (0, 0) (0, 0) 0 0) s

def execEzero (p : Proc) (f : EzeroF) (s : State) : Host.Outcome State Fault Refusal :=
  .next (s.issue p f.cond (f.resv == 0 && (f.p || f.exp == 0)) .next (ezeroBody p f))

/-! ### Drift (R151–R153) -/

/-- The events of one counter that has risen: one for each multiple of its threshold. -/
def State.driftEvents (s : State) (c : CoreId) (e : BitVec 2) (counter : Nat) (old new limit : Word) : State :=
  if limit = 0 then s
  else
    (List.range (new.toNat / limit.toNat - old.toNat / limit.toNat)).foldl (fun s i =>
      s.postCluster (coreCluster c) (s.core (.core c)).flask 0x0103 St.success
        (evData [c.toNat, e.toNat, counter, (old.toNat / limit.toNat + 1 + i) * limit.toNat])) s

/-- The events of an engine that has gone from g to g'. -/
def State.drift (s : State) (p : Proc) (e : BitVec 2) (g g' : Engine) : State :=
  match p with
  | .core c =>
    let f := (s.core p).fmt
    ((s.driftEvents c e 0 g.satc g'.satc f.satLimit).driftEvents c e 1 g.outc g'.outc f.outLimit).driftEvents c e 2
      g.clipc g'.clipc f.clipLimit
  | _ => s

/-! ### Reading an engine (R130, R144, R152) -/

def Engine.idle (g : Engine) : Bool := g.queue.isEmpty

/-- An instruction that waits until engines are idle, and then makes their writes visible (R133). -/
def engIdle (p : Proc) (i : Instr) (es : List (BitVec 2)) (s : State) (done : State → Body) : Body :=
  match s.engReport p es with
  | some b => b
  | none =>
    let k := s.core p
    if es.all fun e => (k.engine e).idle then
      done (s.setCore p (es.foldl (fun k e => k.setEngine e { k.engine e with unseen := [] }) k))
    else .wait s (waitFor i)

/-- What erd reads: the word, the sticky flags, and the engine after (R144). -/
def erdValue (st : Bool) (f : ErdF) (g : Engine) : TWord × FFlags × Engine :=
  let g' := if f.clr then g.clear g.pinned g.aexp else g
  match f.kind.toNat with
  | 0 =>
    let r := accF32 g.acc.toInt g.aexp.toInt
    (⟨r.1, Tag.f32⟩, r.2, g')
  | 1 =>
    let r := rshift st g.lfsr g.acc.toInt (-(g.aexp.toInt + f.imm.toInt))
    let v := clamp32 r.1
    let g := { g with lfsr := r.2, satc := if v.2 then satInc g.satc else g.satc }
    (⟨v.1, Tag.int⟩, FFlags.none, if f.clr then g.clear g.pinned g.aexp else g)
  | 2 => (⟨g.acc, Tag.int⟩, FFlags.none, g')
  | _ => (⟨g.status, Tag.int⟩, FFlags.none, g')

def erdBody (p : Proc) (f : ErdF) (s : State) : Body :=
  engIdle p (.erd p f) [f.e] s fun s =>
    let k := s.core p
    let g := k.engine f.e
    let r := erdValue k.fmt.stochastic f g
    .ok ((s.setCore p (((k.setEngine f.e r.2.2).setReg f.rd r.1).setStat (k.a.stat.stick r.2.1))).drift p f.e g r.2.2)

def execErd (p : Proc) (f : ErdF) (s : State) : Host.Outcome State Fault Refusal :=
  .next (s.issue p f.cond (f.resv == 0) .next (erdBody p f))

def ewaitBody (p : Proc) (f : EwaitF) (s : State) : Body :=
  engIdle p (.ewait p f) (if f.all then allEngines else [f.e]) s .ok

def execEwait (p : Proc) (f : EwaitF) (s : State) : Host.Outcome State Fault Refusal :=
  .next (s.issue p f.cond (f.resv == 0 && (!f.all || f.e == 0)) .next (ewaitBody p f))

def edriftBody (p : Proc) (f : EdriftF) (s : State) : Body :=
  engIdle p (.edrift p f) [f.e] s fun s =>
    let k := s.core p
    let g := k.engine f.e
    let v := match f.which.toNat with
      | 0 => g.satc
      | 1 => g.outc
      | 2 => g.clipc
      | _ => g.status
    let g' := if !f.clr then g else match f.which.toNat with
      | 0 => { g with satc := 0 }
      | 1 => { g with outc := 0 }
      | 2 => { g with clipc := 0 }
      | _ => g
    .ok (s.setCore p ((k.setEngine f.e g').setReg f.rd ⟨v, Tag.int⟩))

def execEdrift (p : Proc) (f : EdriftF) (s : State) : Host.Outcome State Fault Refusal :=
  .next (s.issue p f.cond (f.resv == 0) .next (edriftBody p f))

/-! ### Operations (R132–R136, R143, R147–R149, R156) -/

/-- An engine's read of n words; a lost word is POISON, and a word that the core has stored to since the issue is free
(R133, R134). -/
def State.engRead (s : State) (op : EngOp) (k : Nat) : Nat → List TWord × State
  | 0 => ([], s)
  | n + 1 =>
    let r := s.readWord k .engine .stored
    let w := if op.dirty.contains k then ⟨r.2.2.free.extractLsb' 0 32, r.1.tag⟩ else r.1
    let s := if op.dirty.contains k then r.2.2.took else r.2.2
    let q := State.engRead s op (k + 1) n
    (w :: q.1, q.2)

/-- A run in memory: its checked words, then sideband words one by one while the segment and the list go on. A list that leaves
the segment fails in the run's last block (DESIGN CHOICE, log entry 126: R154 does not say which block it names). -/
def State.readRun (s : State) (op : EngOp) (d : Desc) (f : Fmt) (n base off : Nat) (ws : List TWord) :
    Nat → (List TWord × Scan) × State
  | 0 => ((ws, scanRun f n ws), s)
  | fuel + 1 =>
    match scanRun f n ws with
    | .more =>
      let i := ws.length
      if i ≤ f.fixedWords n then
        let r := s.engRead op (base / 4 + i) (f.fixedWords n + 1 - i)
        State.readRun r.2 op d f n base off (ws ++ r.1) fuel
      else if d.lines.toNat * 64 < off + 4 * i + 4 then ((ws, .fail EngCause.range (n - 1)), s)
      else
        let r := s.engRead op (base / 4 + i) 1
        State.readRun r.2 op d f n base off (ws ++ r.1) fuel
    | x => ((ws, x), s)

/-- How an operation ends: the engine's arithmetic state, and what it failed with. -/
structure OpEnd where
  s : State
  g : Engine
  fail : Option (EngCause × Nat)

def endFail (s : State) (g : Engine) (c : EngCause) (b : Nat) : OpEnd := ⟨s, g, some (c, b)⟩

/-- edot (R135). -/
def State.runDot (s : State) (p : Proc) (f : EdotF) (op : EngOp) (g : Engine) : OpEnd :=
  let k := s.core p
  let n := f.n.toNat + 1
  let wf := k.fmt.weights
  let xf := k.fmt.activations
  let w := s.readRun op (k.a.desc f.wseg) wf n op.wbase op.woff [] 18
  match w.1.2 with
  | .done wside =>
    let x := if f.xp then ((op.got, scanRun xf n op.got), w.2)
      else w.2.readRun op (k.a.desc f.xseg) xf n op.xbase op.xoff [] 18
    match x.1.2 with
    | .done xside =>
      ⟨x.2, dotRun k.fmt.stochastic wf xf n (runOf wf n w.1.1 wside) (runOf xf n x.1.1 xside) g, none⟩
    | .fail c b => endFail x.2 g c b
    | .more => endFail x.2 g EngCause.sideband (n - 1)
  | .fail c b => endFail w.2 g c b
  | .more => endFail w.2 g EngCause.sideband (n - 1)

/-- An engine's write of words; a word tagged LOCK is left as it is (R98). -/
def State.engWrite (s : State) (p : Proc) (k : Nat) (ws : List TWord) : State :=
  (ws.zipIdx).foldl (fun s x =>
    if (s.mem.word (k + x.2)).tag = Tag.lock then s
    else (({ s with mem := s.mem.setWord (k + x.2) x.1 }.breakResv ((k + x.2) / 16) (some p)).wakeTally (4 * (k + x.2)))) s

/-- The words of an operation whose destination overlaps its source: their payloads are free (R133). -/
def State.spoil (s : State) : List TWord → List TWord × State
  | [] => ([], s)
  | w :: ws =>
    let r := State.spoil s.took ws
    (⟨s.free.extractLsb' 0 32, w.tag⟩ :: r.1, r.2)

/-- The end of an operation that writes: all its words, or a free part of them where it fails (R156). -/
def State.engStore (s : State) (p : Proc) (op : EngOp) (ws : List TWord) (partial_ : Bool) : State :=
  let o := decide (op.wbase < op.xbase + 4 * op.xlen) && decide (op.xbase < op.wbase + 4 * op.wlen)
  let r := if o then s.spoil ws else (ws, s)
  let n := if partial_ then r.2.free.toNat % (ws.length + 1) else ws.length
  (if partial_ then r.2.took else r.2).engWrite p (op.xbase / 4) (r.1.take n)

/-- The first source word that an operation refuses. -/
def firstBad (bad : TWord → Option EngCause) : Nat → List TWord → Option (EngCause × Nat)
  | _, [] => none
  | i, w :: ws => match bad w with
    | some c => some (c, i)
    | none => firstBad bad (i + 1) ws

def packBad (w : TWord) : Option EngCause :=
  tagScan w fun t => t == Tag.f32 || t == Tag.raw || t == Tag.fx || t == Tag.int

def mxBad (w : TWord) : Option EngCause := tagScan w fun t => t != Tag.lock && t != Tag.token

/-- An engine's state and an operation's operands as numbers: what R159 lets an open element depend on. -/
def openKey (g : Engine) (op : EngOp) (ws : List TWord) : List Nat :=
  [g.acc.toNat, g.aexp.toNat, g.lfsr.toNat, g.satc.toNat, g.outc.toNat, g.clipc.toNat, (if g.pinned then 1 else 0) +
    (if g.sat then 2 else 0) + (if g.nan then 4 else 0), op.param.toNat] ++ ws.flatMap fun w => [w.payload.toNat, w.tag.toNat]

/-- epack (R147). -/
def State.runPack (s : State) (p : Proc) (op : EngOp) (g : Engine) : OpEnd :=
  match packParam op.param with
  | none => ⟨s, g, none⟩
  | some q =>
    let st := (s.core p).fmt.stochastic
    let r := s.engRead op (op.wbase / 4) (32 * q.n)
    let s := r.2
    let vals := r.1.map SrcVal.ofWord
    let neg (b i : Nat) : Bool := (Config.openElement (openKey g op r.1) b i).getLsbD 0
    match firstBad packBad 0 r.1 with
    | none =>
      let o := packRun st q.fmt q.bias q.n vals neg g
      ⟨s.engStore p op o.1 false, o.2, none⟩
    | some (c, i) =>
      let o := packRun st q.fmt q.bias (i / 32) vals neg g
      endFail (s.engStore p op (o.1.take (q.fmt.fixedWords q.n)) true) o.2 c (i / 32)

/-- emx (R148, R149). -/
def State.runMx (s : State) (p : Proc) (f : PackF) (op : EngOp) (g : Engine) : OpEnd :=
  match mxParam op.param with
  | none => ⟨s, g, none⟩
  | some q =>
    let k := s.core p
    let st := k.fmt.stochastic
    if q.out then
      let w := s.readRun op (k.a.desc f.sseg) q.fmt q.n op.wbase op.woff [] 18
      let s := w.2
      match w.1.2 with
      | .done side =>
        let run := runOf q.fmt q.n w.1.1 side
        let r := (List.range q.n).foldl (fun (r : (List Nat × List (List Nat)) × Engine) b =>
          let x := exportBlock st q.fmt run b (fun i => (Config.openElement (openKey g op w.1.1) b i).toNat) r.2
          ((r.1.1 ++ [x.1], r.1.2 ++ [x.2.1]), x.2.2)) (([], []), g)
        ⟨s.engStore p op (mxWords q.mx q.n r.1.1 r.1.2) false, r.2, none⟩
      | .fail c b => endFail s g c b
      | .more => endFail s g EngCause.sideband (q.n - 1)
    else
      let w := s.engRead op (op.wbase / 4) (q.mx.bytes q.n / 4)
      let s := w.2
      match firstBad mxBad 0 w.1 with
      | none =>
        let src := mxOf q.mx q.n w.1
        let r := (List.range q.n).foldl (fun (r : (List Nat × List (List Nat)) × Engine) b =>
          let x := importBlock st q.mx (src.1.getD b 0) (src.2.getD b []) r.2
          ((r.1.1 ++ [x.1], r.1.2 ++ [x.2.1]), x.2.2)) (([], []), g)
        ⟨s.engStore p op (runWords q.fmt q.n r.1.1 r.1.2 []) false, r.2, none⟩
      | some (c, i) =>
        endFail s g c (if i < scaleWords q.n then 4 * i else (i - scaleWords q.n) / q.mx.width)

/-- An operation performed. -/
def State.runOp (s : State) (p : Proc) (op : EngOp) (g : Engine) : OpEnd :=
  match op.instr with
  | .edot _ f => s.runDot p f op g
  | .epack _ _ => s.runPack p op g
  | .emx _ f => s.runMx p f op g
  | .ezero _ f => ⟨s, g.clear f.p f.exp, none⟩
  | _ => ⟨s, g, none⟩

/-- Whether the operation at the head of a queue has what it needs to end. -/
def EngOp.ready (fmt : CoreFmt) (op : EngOp) : Bool := allPorts.all fun q => !op.wants fmt q

/-- An engine after a failed operation: what R156 keeps, the error, and the queue without the operation behind it. -/
def Engine.failed (g g' : Engine) (op : EngOp) (c : EngCause) (b : Nat) : Engine :=
  { g' with acc := g.acc, aexp := g.aexp, sat := g.sat, nan := g.nan, pinned := g.pinned, queue := []
            err := some ⟨c, BitVec.ofNat 3 b, decide (2 ≤ g.queue.length), op.pc⟩ }

/-- The engine's first operation ends. -/
def State.endOp (s : State) (p : Proc) (e : BitVec 2) (op : EngOp) : State :=
  let g := (s.core p).engine e
  let r := s.runOp p op g
  let g' := match r.fail with
    | some (c, b) => g.failed r.g op c b
    | none => { r.g with queue := g.queue.drop 1 }
  let g' := match op.instr with
    | .epack _ _ => { g' with unseen := (op.xbase / 4, op.xlen) :: g'.unseen }
    | .emx _ _ => { g' with unseen := (op.xbase / 4, op.xlen) :: g'.unseen }
    | _ => g'
  let blocks := match op.instr, r.fail with
    | .edot _ f, none => f.n.toNat + 1
    | .edot _ _, some (_, b) => b
    | _, _ => 0
  (r.s.modCore p fun k => (k.setEngine e g').bump PmEv.engineBlocks blocks).drift p e g g'

/-- The engine's first operation ends; the one behind it starts, and takes the words that wait for it. -/
def State.finishOp (s : State) (p : Proc) (e : BitVec 2) (op : EngOp) : State := (s.endOp p e op).pull p

end Sys2Proof.Machine
end

