-- ==== Sys2Proof/Machine/System.lean ====
section
/-!
DEFINITION. Classes 0xD and 0xE, without the firmware operations of `sys` (R92–R95, R114, R116, R117).
-/

namespace Sys2Proof.Machine

/-! ### Block moves (R92, R93) -/

def lineTrap (v : BitVec 4) (seg : BitVec 3) (off : Int) : TrapInfo :=
  { segTrap v seg (off / 64) with line := true }

/-- The check of one end of a move: its flask address. -/
def moveCheck (s : State) (p : Proc) (seg : BitVec 3) (reg : RegNo) (lines : Nat) (need : Need) : Except TrapInfo Nat :=
  let c := s.core p
  let off := segOff (c.reg reg).payload true 0
  match segCheck c.a seg off (64 * lines) need with
  | .error t => .error (lineTrap t.vector seg off)
  | .ok addr =>
    if (List.range lines).all fun i => (translate s (c.a.desc seg).flask (addr + 64 * i)).isSome then .ok addr
    else .error (lineTrap Vec.access seg off)

/-- The slot of the next move, whose number is its issue number 0–3: the lowest that is free (DESIGN CHOICE, log entry 124: R93 does not say how a
move gets its number). -/
def Core.freeSlot (k : Core) : Option (BitVec 2) := allEngines.find? fun i => (k.moves[i.toNat]'i.isLt).isNone

/-- What a move asks of a host whose memory is its source (R296). -/
def State.askMove (s : State) (p : Proc) (slot : BitVec 2) (m : Move) : State :=
  if space m.src.toNat = 5 then
    let e : Ep := BitVec.ofNat 1 (m.src.toNat / 2 ^ 43)
    let x := s.ep e
    let r : OutReq := ⟨s.fab.nextId, .move p (s.core p).gen slot 0, m.sdom, m.src, 64 * m.lines, none⟩
    { s with fab := { s.fab with nextId := s.fab.nextId + 1 } }.setEp e { x with queue := x.queue ++ [r] }
  else s

def bmvBody (p : Proc) (f : BmvF) (s : State) : Body :=
  let c := s.core p
  let n := f.lines.toNat + 1
  match operandTrap [(c.reg f.sreg, offLike), (c.reg f.dreg, offLike)] with
  | some t => .trap s t
  | none => match bothChecks (moveCheck s p f.sseg f.sreg n Need.read) (moveCheck s p f.dseg f.dreg n Need.write) with
    | .error t => .trap s t
    | .ok (src, dst) => match c.freeSlot with
      | none => .wait s (waitFor (.bmv p f))
      | some i =>
        let m : Move := ⟨s.fab.nextId, BitVec.ofNat 48 src, (c.a.desc f.sseg).flask, (c.a.desc f.sseg).deftag,
          BitVec.ofNat 48 dst, (c.a.desc f.dseg).flask, n, none, 0⟩
        .ok (({ s with fab := { s.fab with nextId := s.fab.nextId + 1 } }.modCore p fun k =>
          { k with moves := k.moves.set i.toNat (some m) i.isLt }).askMove p i m)

def execBmv (p : Proc) (f : BmvF) (s : State) : Host.Outcome State Fault Refusal :=
  .next (s.issue p f.cond (f.resv == 0) .next (bmvBody p f))

/-- The body of bwait. Of several failed moves it reports one, the first to have stopped, and the next bwait the next (DESIGN
CHOICE, log entry 124: R93 does not say). -/
def bwaitBody (p : Proc) (f : BwaitF) (s : State) : Body :=
  let k := s.core p
  if !(k.moves.toList.all Option.isNone) || s.movesOut p then .wait s (waitFor (.bwait p f))
  else match k.moveErr with
    | [] => .ok s
    | e :: rest =>
      .trap (s.setCore p { k with moveErr := rest })
        { trapOf Vec.bus with edetail := BitVec.ofNat 32 (e.1.toNat + e.2 * 2 ^ 8) }

def execBwait (p : Proc) (f : BwaitF) (s : State) : Host.Outcome State Fault Refusal :=
  .next (s.issue p f.cond (f.resv == 0) .next (bwaitBody p f))

/-! ### Class 0xE (R94) -/

/-- rd := a word tagged INT. -/
def giveInt (p : Proc) (f : SysF) (s : State) (v : Word) : Body := .ok (s.modCore p fun k => k.setReg f.rd ⟨v, Tag.int⟩)

def execRdref (p : Proc) (f : SysF) (s : State) : Host.Outcome State Fault Refusal :=
  .next (s.issue p f.cond true .next fun s =>
    let v := s.refNow (procDie p)
    giveInt p f ((s.tick (procDie p)).modCore p fun k => { k with a := { k.a with refHi := v.extractLsb' 32 32 } })
      (v.extractLsb' 0 32))

def execRdrefh (p : Proc) (f : SysF) (s : State) : Host.Outcome State Fault Refusal :=
  .next (s.issue p f.cond true .next fun s => giveInt p f s (s.core p).a.refHi)

/-- Events that the model counts; the others count clocks and waits. -/
def countedEvent (e : Nat) : Bool :=
  e == 0 || e == PmEv.retired || e == PmEv.condFalse || e == PmEv.remoteLoads || e == PmEv.sends || e == PmEv.taken ||
    e == PmEv.traps || e == PmEv.engineBlocks

/-- A core's counter: what it has counted, or for a counter of time a free value. -/
def State.readPm (s : State) (p : Proc) (i : BitVec 2) : Word × State :=
  let m := (s.core p).pm[i.toNat]'i.isLt
  if countedEvent m.event.toNat then (m.count, s) else (s.free.extractLsb' 0 32, s.took)

/-- Whether the flask's full mould lets cores read counters (R29, R94). -/
def State.userCounters (s : State) (d : Domain) : Bool :=
  decide (d.toNat < 256) && (match (s.flask (BitVec.ofNat 8 d.toNat)).mould with
    | some m => m.userCounters
    | none => false)

def execRdctr (p : Proc) (f : SysF) (s : State) : Host.Outcome State Fault Refusal :=
  .next (s.issue p f.cond true .next fun s =>
    if !s.userCounters (s.core p).flask then .trap s (trapOf Vec.priv)
    else
      let r := s.readPm p (f.imm.extractLsb' 0 2)
      giveInt p f r.2 r.1)

def sysReg (a : Arch) (imm : BitVec 12) : Option Word :=
  match imm.toNat with
  | 0 => some a.stat.toWord
  | 1 => some a.trap.epc
  | 2 => some a.trap.ecause
  | 3 => some a.trap.eaddr
  | 4 => some a.trap.edetail
  | 5 => some (BitVec.ofNat 32 a.tvec)
  | _ => none

def execRdsys (p : Proc) (f : SysF) (s : State) : Host.Outcome State Fault Refusal :=
  .next (s.issue p f.cond (decide (f.imm.toNat < 6)) .next fun s =>
    giveInt p f s ((sysReg (s.core p).a f.imm).getD 0))

/-- An instruction whose operand ra is INT or RAW. -/
def withInt (p : Proc) (f : SysF) (s : State) (body : Word → Body) : Body :=
  let w := (s.core p).reg f.ra
  match operandTrap [(w, intLike)] with
  | some t => .trap s t
  | none => body w.payload

def execWrsys (p : Proc) (f : SysF) (s : State) : Host.Outcome State Fault Refusal :=
  .next (s.issue p f.cond (decide (f.imm.toNat < 2)) .next fun s =>
    withInt p f s fun v =>
      .ok (s.modCore p fun k =>
        if f.imm = 0 then k.setStat (Stat.ofWord v)
        else { k with a := { k.a with trap := { k.a.trap with epc := BitVec.ofNat 32 (v.toNat % procWords p) } } }))

/-- tmset (R116). -/
def execTmset (p : Proc) (f : SysF) (s : State) : Host.Outcome State Fault Refusal :=
  .next (s.issue p f.cond true .next fun s =>
    withInt p f s fun v =>
      .ok (s.modCore p fun k => { k with a := { k.a with timers :=
        if v = 0 then { k.a.timers with armed := false, count := 0, pending := true }
        else { k.a.timers with armed := true, count := v } } }))

def execTmclr (p : Proc) (f : SysF) (s : State) : Host.Outcome State Fault Refusal :=
  .next (s.issue p f.cond true .next fun s =>
    .ok (s.modCore p fun k => { k with a := { k.a with timers :=
      { k.a.timers with armed := false, count := 0, pending := false } } }))

/-- wdkick (R117). -/
def execWdkick (p : Proc) (f : SysF) (s : State) : Host.Outcome State Fault Refusal :=
  .next (s.issue p f.cond true .next fun s =>
    .ok (s.modCore p fun k => { k with a := { k.a with timers := { k.a.timers with wdCount := k.a.timers.wdPeriod } } }))

/-- trapret (R114). -/
def execTrapret (p : Proc) (f : SysF) (s : State) : Host.Outcome State Fault Refusal :=
  .next (s.issue p f.cond true .transfer fun s =>
    let a := (s.core p).a.trapReturn p
    .jump (s.modCore p fun k => { k with a := a }) a.pc)

/-- ifence (R95). -/
def execIfence (p : Proc) (f : SysF) (s : State) : Host.Outcome State Fault Refusal :=
  .next (s.issue p f.cond true .next fun s => .ok (s.modCore p fun k => { k with ahead := [] }))

def haltBody (p : Proc) (f : SysF) (s : State) : Body :=
  let k := s.core p
  if k.a.timers.pending || allPorts.any fun q => !(k.inport q).isEmpty then .ok s else .wait s (waitFor (.halt p f))

def execHalt (p : Proc) (f : SysF) (s : State) : Host.Outcome State Fault Refusal :=
  .next (s.issue p f.cond true .next (haltBody p f))

/-- The parts of a descriptor (R94, R100). -/
def Desc.part (d : Desc) (i : Nat) : Word :=
  match i with
  | 0 => d.base.extractLsb' 0 32
  | 1 => BitVec.ofNat 32 (d.base.extractLsb' 32 16).toNat
  | 2 => d.lines
  | _ => BitVec.ofNat 32 ((if d.pr then 1 else 0) + (if d.pw then 2 else 0) + (if d.px then 4 else 0) +
      (if d.pa then 8 else 0) + d.deftag.toNat * 2 ^ 4 + d.flask.toNat * 2 ^ 16)

def execRdseg (p : Proc) (f : SysF) (s : State) : Host.Outcome State Fault Refusal :=
  .next (s.issue p f.cond true .next fun s =>
    giveInt p f s (((s.core p).a.desc (f.imm.extractLsb' 0 3)).part (bits f.imm.toNat 5 4)))

/-- raise. -/
def execRaise (p : Proc) (f : SysF) (s : State) : Host.Outcome State Fault Refusal :=
  .next (s.issue p f.cond true .next fun s =>
    .trap s { trapOf Vec.soft with edetail := BitVec.ofNat 32 (bits f.imm.toNat 7 0) })

/-- What rdid reads; on a firmware processor, which is no core of a flask, all but the domain is free. -/
def State.identity (s : State) (p : Proc) (imm : Nat) : Word × State :=
  let k := s.core p
  match p with
  | .core _ =>
    (match imm with
      | 0 => BitVec.ofNat 32 k.idx
      | 1 => BitVec.ofNat 32 (k.idx / 256)
      | 2 => BitVec.ofNat 32 (s.flask (BitVec.ofNat 8 k.flask.toNat)).clusters.length
      | _ => BitVec.ofNat 32 k.flask.toNat, s)
  | _ => if imm = 3 then (0x100, s) else (s.free.extractLsb' 0 32, s.took)

def execRdid (p : Proc) (f : SysF) (s : State) : Host.Outcome State Fault Refusal :=
  .next (s.issue p f.cond (decide (f.imm.toNat < 4)) .next fun s =>
    let r := s.identity p f.imm.toNat
    giveInt p f r.2 r.1)

def execCoreNop (p : Proc) (f : SysF) (s : State) : Host.Outcome State Fault Refusal :=
  .next (s.issue p f.cond true .next fun s => .ok s)

end Sys2Proof.Machine
end

