-- ==== Sys2Proof/Machine/Fabric.lean ====
section
/-!
DEFINITION. What happens to a core's requests, words and waits in the fabric and at the homes (R85, R86, R130, R162, R166,
R168, R172, R174), and the timers of a core (R109, R116, R117, R154).
-/

namespace Sys2Proof.Machine

/-! ### Waiting instructions -/

/-- What a waiting instruction does when what it waits for may have come. -/
def waitBody (p : Proc) (w : Wait) : Option (State → Body) :=
  match w.instr with
  | .recv _ f => some (recvBody p f)
  | .waitany _ f => some (waitanyBody p f)
  | .send _ f => some (sendBody p f)
  | .halt _ f => some (haltBody p f)
  | .fence _ f => some (fenceBody p f)
  | .edot _ f => some (edotBody p f)
  | .epack _ f => some (packBody p w.instr f true)
  | .emx _ f => some (packBody p w.instr f false)
  | .ezero _ f => some (ezeroBody p f)
  | .erd _ f => some (erdBody p f)
  | .ewait _ f => some (ewaitBody p f)
  | .edrift _ f => some (edriftBody p f)
  | .bmv _ f => some (bmvBody p f)
  | .bwait _ f => some (bwaitBody p f)
  | .st _ f => some (storeBody p w.instr f (imm10w f.operand) 4)
  | .stb _ f => some (storeBody p w.instr f f.operand.toInt 1)
  | .sth _ f => some (storeBody p w.instr f f.operand.toInt 2)
  | .tas _ f => if w.issued then none else some (tasBody p f)
  | .scond _ f => if w.issued then none else some (scondBody p f)
  | .call _ f => if w.issued then none else some (callBody p f)
  | .barr _ f => if w.issued then none else some (syncBody p w.instr f .barr)
  | .barw _ f => if w.issued then none else some (syncBody p w.instr f .barw)
  | .unlock _ f => if w.issued then none else some (syncBody p w.instr f .unlock)
  | _ => none

/-- The words of a waiting instruction. -/
def waitLen : Instr → Nat
  | .call .. => 2
  | _ => 1

/-- A waiting instruction is looked at again; that of a core that is stopped or held stays at its boundary (R118). -/
def State.rerun (s : State) (p : Proc) : State :=
  if (s.core p).run ≠ .running then s
  else match (s.core p).wait with
  | none => s
  | some w => match waitBody p w with
    | none => s
    | some b => s.settle p (waitLen w.instr) (b s)

/-- Whether a core is at an instruction boundary: between instructions, or in one of the waits of R116 and R130. -/
def Core.atBoundary (k : Core) : Bool :=
  match k.wait with
  | none => true
  | some w => match w.instr with
    | .recv .. | .send .. | .waitany .. | .halt .. | .twait .. | .lock .. | .bwait .. => true
    | .edot .. | .epack .. | .emx .. | .ezero .. | .erd .. | .ewait .. | .edrift .. => true
    | .barw .. => !w.got.isEmpty
    | _ => false

/-! ### Accesses at their homes (R172, R204, R222) -/

/-- The bytes that an operation may write. -/
def MemOp.writes : MemOp → Bool
  | .load _ => false
  | .lres => false
  | _ => true

/-- The bytes that an operation carries to its home. -/
def MemOp.bytes : MemOp → Nat
  | .load _ => 0
  | .lres => 0
  | .tas => 0
  | .store n _ => n
  | .scond _ => 4

/-- A reply has travelled to its processor (R12). -/
def State.replied (s : State) (p : Proc) (fa : Nat) : State :=
  if space fa = 5 then s else s.travel (faDie fa) (procDie p) 1 4

/-- Whether a request may be performed now: earlier accesses and block-move lines of its issuer on its path come first
(R171); what a move has sent to a host endpoint is still to leave it (R298). -/
def State.memTurn (s : State) (r : MemReq) : Bool :=
  !(s.fab.reqs.any fun q => q.issuer == r.issuer && q.gen == r.gen && decide (q.id < r.id) &&
      pathOf q.addr.toNat == pathOf r.addr.toNat) &&
    (!r.op.writes || !(((s.core r.issuer).moveList.any fun e => decide (e.2.seq < r.id) && moveOnPath s e.2 (pathOf r.addr.toNat)) ||
      (decide (space r.addr.toNat = 5) && (s.ep (BitVec.ofNat 1 (r.addr.toNat / 2 ^ 43))).queue.any fun q => q.data.isSome &&
        match q.who with
        | .move p g .. => p == r.issuer && g == r.gen
        | _ => false)))

/-- An access to a flask's granule waits while key use is suspended (R232, R444). -/
def State.keyHold (s : State) (fa : Nat) : Bool :=
  let o := s.mem.ownerOf (faGranule fa)
  space fa == 2 && decide (o.toNat < 256) && s.keyWaits (BitVec.ofNat 8 o.toNat)

/-- The home performs an access: the reply. A posted store that the word there forbids (R98) answers the error that raises `BUS`
(DESIGN CHOICE, log entry 127: R98 names `TAG`, R86 gives every error response of a posted store but ACCESS_FAULT `BUS`). -/
def State.performMem (s : State) (r : MemReq) (ecc : EccReport) : State × Reply :=
  let fa := r.addr.toNat
  if !faValid fa then (s, .bus)
  else if !homeOk s r.dom fa then (s, .accessFault)
  else
    let x := match r.op with
      | .load _ => s.homeLoad fa .core ecc
      | .store n v => s.homeStore fa n v .core ecc
      | .tas => s.homeTas r.issuer fa .core ecc
      | .lres =>
        let q := s.homeLoad fa .core ecc
        match q.2 with
        | .word _ => (q.1.setResv r.issuer fa, q.2)
        | _ => q
      | .scond v => s.homeScond r.issuer fa v .core ecc
    (x.1, match x.2 with
      | .word w => .data w
      | .tas old z => .flags z (some old)
      | .stored => .done
      | .cond ok => .flags ok none
      | .lost => .bus
      | .tagged t => if t = Tag.poison ∨ r.posted then .bus else .tagFault t)

def MemReq.reply (r : MemReq) (x : Reply) : MemRep := ⟨r.issuer, r.gen, r.addr, r.seg, r.off, r.posted, x⟩

/-- A take ends (R486, R489, R495): its granules thaw, what it reserved returns to the pool with its valid bits cleared (R216), and
its command completes. -/
def State.endTake (s : State) (t : Take) (st : Status) : State :=
  let mine (x : Option Frozen) : Bool := match x with
    | some z => z.flask == t.flask
    | none => false
  let gone := (s.mem.frozen.filter fun e => mine e.2).map Prod.fst
  let m := { (t.image ++ t.shadow).foldl Mem.clearGranule s.mem with
    frozen := s.mem.frozen.filter fun e => !(mine e.2), copying := s.mem.copying.filter fun g => !(gone.contains g) }
  let s := { s with mem := m, ing := { s.ing with takes := s.ing.takes.filter fun x => !(x.flask == t.flask) } }
  let s := (s.setFlask t.flask { s.flask t.flask with ingot := false })
  let n := (t.ingot.map fun (g : IngotHdr) => g.number).getD 0
  let s := s.complete t.ladle t.tag st 0 (leBytes 8 n)
  match t.ingot with
  | none => s
  | some _ =>
    let d := leBytes 4 t.flask.toNat ++ leBytes 8 n ++ leBytes 4 st.toNat
    (s.postOwner 0x0A01 st 0xFFF d).postFlask t.flask 0x0A01 st 0xFFF d

/-- The die of a granule of 64 KiB, by fabric address ÷ 65,536. -/
def granuleDie (g : Nat) : Nat := bits (g * 65536) 41 39

/-- The takes that end because a write to one of the granules finds its die's shadow pool empty (R486). -/
def State.spent (s : State) (gs : List Nat) : List Take :=
  s.ing.takes.filter fun t => gs.any fun g => match Tab.get none s.mem.frozen g with
    | none => false
    | some z =>
      let d := granuleDie g
      let used := s.mem.frozen.countP fun e => decide (granuleDie e.1 = d) && match e.2 with
        | some y => y.flask == t.flask && (y.copied || s.mem.copying.contains e.1)
        | none => false
      z.flask == t.flask && !z.copied && !(s.mem.copying.contains g) &&
        decide (t.shadow.countP (fun x => decide (x / 1192 = d)) * 4096 ≤ used)

/-- The place of a frozen granule in its flask's addresses. -/
def State.streamOrder (s : State) (f : FlaskId) (g : Nat) : Nat :=
  (s.flask f).granules.idxOf (faGranule (g * 65536)) * 4096 + g % 4096

/-- While no breakout holds, the stream of each take goes on: a free number of its granules, in flask-address order, has been
read, and they thaw (R486, R495). -/
def State.streamOn (s : State) : State :=
  if s.breakout then s
  else (s.ing.takes.filter (·.ingot.isSome)).foldl (fun s t =>
    let mine := (s.mem.frozen.filter fun e => match e.2 with
      | some z => z.flask == t.flask
      | none => false).map Prod.fst
    let n := s.free.toNat % (mine.length + 1)
    let gone := mine.filter fun g => decide (mine.countP (fun x => decide (s.streamOrder t.flask x < s.streamOrder t.flask g)) < n)
    { s.took with mem := { s.mem with frozen := s.mem.frozen.filter (fun e => !(gone.contains e.1))
                                      copying := s.mem.copying.filter fun g => !(gone.contains g) } }) s

/-- A write meets granules that wait for their copies: the copies are asked for, or the takes end. -/
def State.askCopies (s : State) (gs : List Nat) : State :=
  let s := s.streamOn
  let s := (s.spent gs).foldl (fun s t => s.endTake t 0x00D1) s
  let gs := gs.filter fun g => s.mem.mustCopy (g * 65536) && !(s.mem.copying.contains g)
  { s with mem := { s.mem with copying := s.mem.copying ++ gs } }

/-- The move whose lines carry an identity, with its processor and issue number. -/
def State.moveOf (s : State) (id : Nat) : Option (Proc × BitVec 2 × Move) :=
  (s.cores.filter fun e => decide (e.1 < 2 ^ 20)).findSome? fun e =>
    ((e.2.moveList).find? fun m => m.2.seq = id).map fun m => (Proc.core (BitVec.ofNat 20 e.1), m.1, m.2)

/-- Whether a move's next lines may be written: its source is at hand, and what the core wrote before it on its paths is done
(R171). -/
def State.moveTurn (s : State) (p : Proc) (m : Move) : Bool :=
  !m.dry &&
    !(s.fab.reqs.any fun q => q.issuer == p && q.gen == (s.core p).gen && q.op.writes && decide (q.id < m.seq) &&
      moveOnPath s m (pathOf q.addr.toNat)) &&
    !((s.core p).moveList.any fun e => decide (e.2.seq < m.seq) && (List.range e.2.lines).any fun i => decide (e.2.next ≤ i) &&
      match translate s e.2.ddom (e.2.dst.toNat + 64 * i) with
      | some fa => moveOnPath s m (pathOf fa)
      | none => false)

/-- The addresses that lines i to i + n − 1 of a move read and write, where a flask has them. -/
def moveAddrs (s : State) (m : Move) (i n : Nat) : List Nat × List Nat :=
  ((List.range n).filterMap fun j => translate s m.sdom (m.src.toNat + 64 * (i + j)),
    (List.range n).filterMap fun j => translate s m.ddom (m.dst.toNat + 64 * (i + j)))

/-- Whether n lines of a move from line i on wait: for the key of a granule they touch, or for the copies of frozen granules that
they write, which are asked for (R22, R232). -/
def State.moveWaits (s : State) (m : Move) (i n : Nat) : Bool × State :=
  let x := moveAddrs s m i n
  let gs := (((x.2.filter fun fa => space fa == 2 && s.mem.mustCopy fa)).map (· / 65536)).eraseDups
  if (x.1 ++ x.2).any s.keyHold then (true, s)
  else if gs.isEmpty then (false, s)
  else
    let s := s.askCopies gs
    (gs.any fun g => s.mem.mustCopy (g * 65536), s)

/-- Lines of a block move reach their homes (R171, R176): one line, the last of a move excepted, or all that are left. -/
def State.moveGoes (s : State) (p : Proc) (slot : BitVec 2) (m : Move) (all : Bool) : State :=
  let n := if all then m.lines - m.next else 1
  if !s.moveTurn p m || (!all && decide (m.lines ≤ m.next + 1)) then s
  else
    let w := s.moveWaits m m.next n
    if w.1 then w.2
    else
      let x := moveAddrs s m m.next n
      let go (s : State) (a b : Nat) : State := if space a = 5 ∨ space b = 5 then s else s.travel (faDie a) (faDie b) 2 64
      let s := (x.1.zip x.2).foldl (fun s y => go s y.1 y.2) w.2
      if all then s.runMove p slot m else s.stepMove p slot m

/-- An access at its home in spaces 0x0 to 0x2. A request of a fenced port is dropped (R195); one that must wait for its turn, for a key, or for a
copy of its granule (R22) stays; one for a host is OUTBOUND_REQUEST's. The next line of a block move is such an access
too. -/
def State.accessHome (s : State) (req : Nat) (ecc : EccReport) : Host.Outcome State Fault Refusal :=
  match s.fab.reqs.find? (·.id = req) with
  | none => match s.moveOf req with
    | none => .next s
    | some (p, slot, m) => .next (s.moveGoes p slot m false)
  | some r =>
    let fa := r.addr.toNat
    let s' := { s with fab := { s.fab with reqs := s.fab.reqs.filter (·.id ≠ req) } }
    if space fa = 5 then .next s
    else if s.stale r.issuer r.gen then .next (s'.fenceDrop r.issuer)
    else if !s.memTurn r || s.keyHold fa then .next s
    else
      let s := if r.op.writes && space fa == 2 && s.mem.mustCopy fa then s.askCopies [fa / 65536] else s
      if r.op.writes && space fa == 2 && s.mem.mustCopy fa then .next s
      else
      let s := s.travel (procDie r.issuer) (faDie fa) 0 r.op.bytes
      let x := ({ s with fab := { s.fab with reqs := s.fab.reqs.filter (·.id ≠ req) } }).performMem r ecc
      .next { x.1 with fab := { x.1.fab with reps := x.1.fab.reps ++ [r.reply x.2] } }

/-! ### Replies (R85, R86, R174) -/

/-- What the waiting instruction makes of a reply. -/
def memEnd (p : Proc) (w : Wait) (r : MemRep) (s : State) : Body :=
  match w.instr, r.reply with
  | .ld _ f, .data x => ldDone p f w.fa x s
  | .ldc _ f, .data x => ldcDone p f w.fa x s
  | .ldsub _ f, .data x => ldsubDone p f w.fa false x s
  | .tas _ f, .flags z (some old) => tasDone p f w.fa old z s
  | .lres _ f, .data x => .ok (s.modCore p fun c => c.setReg f.rd x)
  | .scond _ f, .flags ok none => scondDone p f ok s
  | .call _ f, .done => if w.fa ≤ 1 then callDone p f s else .wait s { w with fa := w.fa - 1 }
  | .ret _ f, .data x => retLoads p f (w.got ++ [retag ((s.core p).a.desc 7) (taggedAt w.fa) x]) s 18
  | _, x => .trap s (replyTrap r.seg r.off.toInt x)

/-- MEMORY_RESPONSE. -/
def execMemoryResponse (p : Proc) (s : State) : Host.Outcome State Fault Refusal :=
  match s.fab.reps.find? fun r => r.issuer == p && !r.posted with
  | none => .next s
  | some r =>
    let s := { s with fab := { s.fab with reps := s.fab.reps.erase r } }.replied p r.fa.toNat
    if s.stale p r.gen then .next s
    else match (s.core p).wait with
    | none => .next s
    | some w =>
      .next (s.settle p (waitLen w.instr) (memEnd p w r s))

def Reply.isDone : Reply → Bool
  | .done => true
  | _ => false

/-- WRITE_ACKNOWLEDGEMENT. -/
def execWriteAcknowledgement (p : Proc) (s : State) : Host.Outcome State Fault Refusal :=
  match s.fab.reps.find? fun r => r.issuer == p && r.posted && r.reply.isDone with
  | none => .next s
  | some r =>
    let s := { s with fab := { s.fab with reps := s.fab.reps.erase r } }.replied p r.fa.toNat
    if s.stale p r.gen then .next s
    else .next ((s.modCore p fun k => { k with unacked := k.unacked - 1 }).rerun p)

/-- A posted store's error at a boundary of a waiting core is taken at once; otherwise at the next boundary. -/
def State.boundaryTraps (s : State) (p : Proc) : State :=
  let k := s.core p
  if k.run ≠ .running ∨ k.wait.isNone ∨ !k.atBoundary then s
  else match k.postErr with
  | e :: rest =>
    (s.setCore p { k with postErr := rest }).takeTrap p
      { trapOf (if e.access then Vec.access else Vec.bus) with seg := e.seg, eaddr := e.off }
  | [] =>
    if k.a.timers.pending && k.a.stat.te then
      (s.setCore p { k with a := { k.a with timers := { k.a.timers with pending := false } } }).takeTrap p (trapOf Vec.timer)
    else s

/-- POSTED_STORE_ERROR. -/
def execPostedStoreError (p : Proc) (s : State) : Host.Outcome State Fault Refusal :=
  match s.fab.reps.find? fun r => r.issuer == p && r.posted && !r.reply.isDone with
  | none => .next s
  | some r =>
    let s := { s with fab := { s.fab with reps := s.fab.reps.erase r } }.replied p r.fa.toNat
    if s.stale p r.gen then .next s
    else
      let e : PostedErr := ⟨decide (r.reply = .accessFault), r.seg, r.off⟩
      .next (((s.modCore p fun k => { k with unacked := k.unacked - 1, postErr := k.postErr ++ [e] }).boundaryTraps p).rerun p)

/-! ### Streams -/

/-- A word enters an input port. -/
def State.arriveAt (s : State) (c : CoreId) (q : Port) (w : PortWord) : State :=
  (((s.clCount (coreCluster c) 3 1).modCore (.core c) fun k => k.setInport q (k.inport q ++ [w])).pull (.core c)).rerun (.core c)

/-- The words of each kind in a port (R161). -/
def Core.portCount (k : Core) (q : Port) (hub : Bool) : Nat := ((k.inport q).filter fun w => w.hub == hub).length

/-- Whether a token may enter its port: it is the oldest that the hub holds for that port, and the port has room (R164). -/
def State.tokenMay (s : State) (t : HeldToken) : Bool :=
  decide ((s.fab.tokens.find? fun u => u.core == t.core && u.port == t.port) = some t) &&
    decide ((s.core (.core t.core)).portCount t.port true < 8)

/-- STREAM_WORD_ARRIVAL. -/
def execStreamWordArrival (a : Arrival) (s : State) : Host.Outcome State Fault Refusal :=
  match a with
  | .word src port => match s.fab.transit.find? fun t => t.src == src && t.port == port with
    | none => .next s
    | some t =>
      let s' := { s with fab := { s.fab with transit := s.fab.transit.erase t } }
      if s.stale (.core src) t.gen then .next (s'.fenceDrop (.core src))
      else if 16 ≤ (s.core (.core t.dst)).portCount t.dport false then .next s
      else .next (((s'.travel (procDie (.core src)) (procDie (.core t.dst)) 3 4).arriveAt t.dst t.dport t.w).rerun (.core src))
  | .token f b => match s.fab.tokens.find? fun t => t.flask == f && t.binding == b && s.tokenMay t with
    | none => .next s
    | some t => .next ({ s with fab := { s.fab with tokens := s.fab.tokens.erase t } }.arriveAt t.core t.port
        ⟨⟨t.w, Tag.token⟩, BitVec.ofNat 9 f.toNat, true⟩)

/-- One credit comes back to its output port (R166, R167, R195). -/
def State.creditBack (s : State) (x : CoreId × Port × Byte × Nat) : State :=
  let s := { s with fab := { s.fab with credits := s.fab.credits.erase x } }
  let p := Proc.core x.1
  let k := s.core p
  let o := k.outport x.2.1
  let fenced := match o.dst with
    | some d => s.stale (.core d.1) x.2.2.1
    | none => false
  if fenced then (match o.dst with
    | some d => s.fenceDrop (.core d.1)
    | none => s)
  else
    let s := match o.dst with
      | some d => s.travel (procDie (.core d.1)) (procDie p) 4 x.2.2.2
      | none => s
    (s.clCount (coreCluster x.1) 8 x.2.2.2).setCore p (k.setOutport x.2.1 { o with credits := min (o.credits + x.2.2.2) o.max, sent := o.sent - x.2.2.2 })

/-- CREDIT_RETURN: up to four credits of one stream. -/
def execCreditReturn (src : CoreId) (port : Port) (n : BitVec 3) (s : State) : Host.Outcome State Fault Refusal :=
  .next ((((s.fab.credits.filter fun x => x.1 == src && x.2.1 == port).take (min n.toNat 4)).foldl State.creditBack s).rerun
    (.core src))

/-! ### Moves and engines -/

/-- BLOCK_MOVE_COMPLETE. -/
def execBlockMoveComplete (p : Proc) (slot : BitVec 2) (s : State) : Host.Outcome State Fault Refusal :=
  match (s.core p).moves[slot.toNat]'slot.isLt with
  | none => .next s
  | some m => if s.moveTurn p m then .next ((s.moveGoes p slot m true).rerun p) else .next s

/-- ENGINE_OP_COMPLETE. -/
def execEngineOpComplete (c : CoreId) (e : BitVec 2) (s : State) : Host.Outcome State Fault Refusal :=
  let p := Proc.core c
  let k := s.core p
  match (k.engine e).queue with
  | [] => .next s
  | op :: _ => if op.ready k.fmt then .next ((s.finishOp p e op).rerun p) else .next s

/-- OPERAND_TIMEOUT: the executing edot still needs a word. -/
def execOperandTimeout (c : CoreId) (e : BitVec 2) (s : State) : Host.Outcome State Fault Refusal :=
  let p := Proc.core c
  let k := s.core p
  let g := k.engine e
  match g.queue with
  | [] => .next s
  | op :: _ =>
    if op.ready k.fmt then .next s
    else match op.instr with
    | .edot _ f =>
      let b := k.fmt.activations.wordBlock (f.n.toNat + 1) op.got.length
      .next (((s.setCore p (k.setEngine e (g.failed g op EngCause.timeout b))).pull p).rerun p)
    | _ => .next s

/-! ### Timers -/

/-- CORE_TIMER_EXPIRY (R116, R312). -/
def execCoreTimerExpiry (p : Proc) (s : State) : Host.Outcome State Fault Refusal :=
  let k := s.core p
  if !k.a.timers.armed ∨ k.run ≠ .running then .next s
  else
    let s := s.setCore p { k with a := { k.a with timers := { k.a.timers with armed := false, count := 0, pending := true } } }
    .next (((s.wakeSys p).boundaryTraps p).rerun p)

/-- Waits in which a watchdog does not expire (R117). -/
def Core.idleWait (k : Core) : Bool :=
  match k.wait with
  | some ⟨.recv .., _, _, _⟩ | some ⟨.waitany .., _, _, _⟩ | some ⟨.halt .., _, _, _⟩ => true
  | _ => false

/-- WATCHDOG_EXPIRY (R117). -/
def execWatchdogExpiry (p : Proc) (s : State) : Host.Outcome State Fault Refusal :=
  let k := s.core p
  if k.run ≠ .running ∨ k.idleWait then .next s
  else .next (s.stopCore p 0xFF St.watchdog)

/-- RESERVATION_TIMEOUT (R109). -/
def execReservationTimeout (p : Proc) (s : State) : Host.Outcome State Fault Refusal :=
  .next (s.modCore p fun k => { k with a := { k.a with resv := ⟨false, k.a.resv.line⟩ } })

/-- The ceiling of an island (R14). -/
def Cluster.ceiling (c : Cluster) : Nat := max 40 (min 160 (min c.ceilOwner c.ceilPower))

/-- A die past 110 °C is clamped to 0.40 GHz (R526); with the power core away for 20 ms the ceiling is 0.60 GHz (R339). -/
def State.ceiling (s : State) (cl : ClusterId) : Nat :=
  if s.bg.trip.getLsbD (cl.toNat / 512) then 40
  else if s.fw.late then min 60 (s.cluster cl).ceiling else (s.cluster cl).ceiling

/-- ISLAND_CLOCK_ADJUST (R168). -/
def execIslandClockAdjust (cl : ClusterId) (sharePct : BitVec 7) (s : State) : Host.Outcome State Fault Refusal :=
  let c := s.cluster cl
  let want := if 60 ≤ sharePct.toNat then c.clock + 5 else if sharePct.toNat ≤ 25 then c.clock - 5 else c.clock
  let v := max 40 (min (s.ceiling cl) want)
  .next ((if v = c.clock then s else s.clCount cl 2 1).setCluster cl { c with clock := v })

end Sys2Proof.Machine
end

