-- ==== Sys2Proof/Machine/Ladle.lean ====
section
/-!
DEFINITION. The owner rule, the doorbells, and what every ladle command shares: how it is read, when it starts, and how it
completes (R287, R318–R330, R338, R341, R435, R440, R444).
-/

namespace Sys2Proof.Machine

/-- What a meaning answers. -/
abbrev Answer := Host.Outcome State Fault Refusal

/-- The module's firmware serves: service, test or recovery mode (R511). -/
def Phase.serves : Phase → Bool
  | .service => true
  | .test => true
  | .recovery => true
  | _ => false

/-! ### The owner rule -/

/-- A half of a register counts one, saturating. -/
def satHalf (v : Word) (half : Nat) : Word :=
  if bits v.toNat (16 * half + 15) (16 * half) = 0xFFFF then v else v + BitVec.ofNat 32 (2 ^ (16 * half))

/-- A write of an observer is counted under its master (R435). -/
def State.observed (s : State) (m : Master) : State :=
  let o := if masterIndex m < 2 then Reg.ownObsWrites0 else Reg.ownObsWrites1
  s.setReg o (satHalf (s.reg o) (masterIndex m % 2))

def State.isOwner (s : State) (m : Master) : Bool := s.own.valid && decide (s.own.master = m)

/-- A host's access reaches the endpoint's BARs (R285, R302, R304). -/
def State.reaches (s : State) (e : Ep) : Bool :=
  let x := s.ep e
  decide (x.speed ≠ 0) && x.memSpace && !x.d3 && !x.flr

/-- A command of a master reaches the module: a host's through its endpoint, behind every request of it that waits (R297). -/
def State.arrives (s : State) : Master → Bool
  | .he0 => s.reaches 0 && (s.ep 0).inq.isEmpty
  | .he1 => s.reaches 1 && (s.ep 1).inq.isEmpty
  | _ => true

/-- A write that takes effect only from the owner (R435); before the module serves, BAR0 writes are ignored (R502, R512). -/
def State.ownerWrite (s : State) (m : Master) (f : State → State) : State :=
  if !s.phase.serves || !s.arrives m then s else if s.isOwner m then f s else s.observed m


/-! ### Doorbells (R323) -/

/-- How far index b lies ahead of index a in a ring. -/
def ahead (size a b : Nat) : Nat := (b + size - a) % size

/-- A write that a flask's page ignores is counted (R267). -/
def State.strayWrite (s : State) (f : FlaskId) : State :=
  s.setFlask f { s.flask f with stray := satInc (s.flask f).stray }

/-- Whether the endpoint reaches the flask's page (R267). -/
def State.pageLive (s : State) (e : Ep) (f : FlaskId) : Bool :=
  decide ((s.flask f).st ≠ .free) && decide ((s.flask f).host.toNat = e.toNat)

/-- A command doorbell: equal is ignored; one that leaves the ring, or falls behind what was rung, leaves the tail at a free place
of the ring: an unchecked error of the ladle's own party (R3, R282, R323). -/
def State.ringSq (s : State) (l : LadleRef) (tail : Nat) : State :=
  let d := s.ladle l
  if tail = d.sqTail then s
  else if tail ≥ d.sqSize ∨ ahead d.sqSize d.sqHead tail < ahead d.sqSize d.sqHead d.sqTail then
    (s.took.setLadle l { d with sqTail := s.free.toNat % d.sqSize }).wakeSys (.hub 2)
  else (s.setLadle l { d with sqTail := tail }).wakeSys (.hub 2)

/-- A completion doorbell: equal is ignored; one that moves back, or passes what is written, leaves the head at a free place of
the ring (R3, R282, R323, R330). -/
def State.ringCq (s : State) (l : LadleRef) (head : Nat) : State :=
  let d := s.ladle l
  if head = d.cqHead then s
  else
    let wrong := decide (head ≥ d.cqSize) || decide (ahead d.cqSize d.cqHead d.cqTail < ahead d.cqSize d.cqHead head)
    let s' := if wrong then s.took else s
    ((s'.setLadle l { d with cqHead := if wrong then s.free.toNat % d.cqSize else head, raised := false }).ladleFreed l).wakeSys
      (.hub 2)

/-- A doorbell of a flask's page. -/
def State.fpDoorbell (s : State) (e : Ep) (f : FlaskId) (n : BitVec 4) (ring : State → LadleRef → State) : State :=
  if !s.phase.serves || !s.reaches e || !(s.ep e).inq.isEmpty then s
  else if !s.pageLive e f || decide (n.toNat ≥ (s.flask f).nladles) || !(s.ladle (.flask f n)).enabled then s.strayWrite f
  else ring s (.flask f n)

/-- FP_SQDB. -/
def execFpSqdb (e : Ep) (f : FlaskId) (n : BitVec 4) (tail : BitVec 16) (s : State) :
    Host.Outcome State Fault Refusal :=
  .next (s.fpDoorbell e f n fun s l => s.ringSq l tail.toNat)

/-- FP_CQDB. -/
def execFpCqdb (e : Ep) (f : FlaskId) (n : BitVec 4) (head : BitVec 16) (s : State) :
    Host.Outcome State Fault Refusal :=
  .next (s.fpDoorbell e f n fun s l => s.ringCq l head.toNat)

/-- An admin doorbell. -/
def State.admDoorbell (s : State) (m : Master) (ring : State → State) : State :=
  if !s.phase.serves || !s.arrives m then s else if s.isOwner m then ring s else s.observed m

/-- ADM_SQDB. -/
def execAdmSqdb (m : Master) (tail : BitVec 10) (s : State) : Host.Outcome State Fault Refusal :=
  .next (s.admDoorbell m fun s => s.ringSq .admin tail.toNat)

/-- ADM_CQDB. -/
def execAdmCqdb (m : Master) (head : BitVec 10) (s : State) : Host.Outcome State Fault Refusal :=
  .next (s.admDoorbell m fun s => s.ringCq .admin head.toNat)

/-! ### Reading and starting a command (R325) -/

/-- The flask of a ladle. -/
def ladleFlask : LadleRef → Option FlaskId
  | .admin => none
  | .flask f _ => some f

/-- The domain on whose behalf a ladle's commands act: its flask, or the firmware domain (R205, R429). -/
def ladleDom : LadleRef → Domain
  | .admin => 0x100
  | .flask f _ => BitVec.ofNat 9 f.toNat

def isAbort : Instr → Bool
  | .abort .. => true
  | _ => false

def isNop : Instr → Bool
  | .nop .. => true
  | _ => false

/-- A command that starts, or completes, while a breakout holds (R338, R444). -/
def inHold : Instr → Bool
  | .abort .. => true
  | .nop .. => true
  | .breakoutClear .. => true
  | .keyUnwrap .. => true
  | .attest .. => true
  | .fwActivate .. => true
  | _ => false

def isDispatch : Instr → Bool
  | .dispatch .. => true
  | _ => false

/-- A take of the flask has been read and has not yet copied its cores: no dispatch starts (R483). -/
def State.taking (s : State) (f : FlaskId) : Bool := s.ing.takes.any fun t => t.flask == f && t.ingot.isNone

def isUnpair : Instr → Bool
  | .twinUnpair .. => true
  | _ => false

/-- The commands that are the security core's own work: unwrapping, attestation, and the verification of an image (R339). A CAST
waits at the verification of its mould. -/
def bySecurity : Instr → Bool
  | .keyUnwrap .. => true
  | .attest .. => true
  | .dukProvision .. => true
  | .dukRotate .. => true
  | .twinPair .. => true
  | .fwStage .. => true
  | _ => false

/-- What keeps a command from starting, whatever its turn (R329, R331, R337, R339, R341, R444, R472, R483). -/
def State.suspended (s : State) (l : LadleRef) (i : Instr) : Bool :=
  (s.fw.act.isSome && !isAbort i) || (decide (s.twin.st = .joining) && !isUnpair i) || (s.breakout && !inHold i) ||
    (s.fw.down.contains .security && bySecurity i) || match l with
    | .admin => false
    | .flask f _ => (s.flask f).paused || (isDispatch i && (s.taking f || decide ((s.flask f).st ≠ .running))) || (decide ((s.flask f).st = .held) && !(isAbort i || isNop i))

/-- The started commands of a flask, on all its ladles, or of the admin ladle (R325). -/
def State.startedCount (s : State) : LadleRef → Nat
  | .admin => s.fw.admin.cmds.countP (·.started)
  | .flask f _ => ((s.flask f).ladles.map fun x => x.2.cmds.countP (·.started)).sum

/-- Whether a command that has been read starts now: its turn in ring order, an abort out of turn; `ORDERED`; the limits
(R321, R325). -/
def State.mayStart (s : State) (h : CmdHdr) (i : Instr) : Bool :=
  let before := (s.ladle h.ladle).cmds.takeWhile fun c => decide (c.tag ≠ h.tag)
  let turn := isAbort i || before.all fun c => c.started || s.suspended h.ladle c.instr
  let ordered := !h.flags.getLsbD 0 || before.isEmpty
  let limit := match h.ladle with
    | .admin => 256
    | .flask _ _ => 4096
  !s.suspended h.ladle i && turn && ordered && decide (s.startedCount h.ladle < limit)

/-- The command's completion with a status alone. -/
def State.done (s : State) (h : CmdHdr) (status : Status) : State := s.complete h.ladle h.tag status 0 []

/-- The commands that a FENCED module starts (R461, R471). -/
def inFence : Instr → Bool
  | .nop .. => true
  | .attest .. => true
  | .twinReadmit .. => true
  | .twinUnpair .. => true
  | _ => false

/-- A command whose flask, ladle or module no longer takes it completes without starting (R225, R275, R277, R440, R471). -/
def State.unstartable (s : State) (l : LadleRef) (i : Instr) : Option Status :=
  if decide (s.twin.st = .fenced) && !inFence i then some St.fenced
  else match l with
  | .admin => if s.own.next.isSome then some St.ownerLost else none
  | .flask f _ => match (s.flask f).st with
    | .resetting => some St.abortedByReset
    | .destroying => some St.abortedByReset
    | .failed => some St.uncorrectable
    | _ => none

def kindFits (l : LadleRef) : LadleKind → Bool
  | .both => true
  | .admin => decide (l = .admin)
  | .flask => decide (l ≠ .admin)

/-- The scheduler core reads the ladle's next entry (R325). -/
def State.readEntry (s : State) (h : CmdHdr) (i : Instr) : State :=
  let d := s.ladle h.ladle
  (s.setLadle h.ladle { d with sqHead := (d.sqHead + 1) % d.sqSize
                               cmds := d.cmds ++ [⟨h.tag, i, false, h.flags.getLsbD 1⟩] }).tap 0 (ladleDom h.ladle)

/-- A detail word that locates nothing (R66). -/
def nowhere : Word := 0xFFFF_FFFF

/-- `CAST_COMPLETE` for the flask that a cast names, and for the owner (R59, R333). -/
def State.castEvent (s : State) (f : Option FlaskId) (st : Status) (rot : Nat) : State :=
  let ev := evData [st.toNat, rot]
  (match f with
    | some f => s.postFlask f 0x0101 st 0xFFF ev
    | none => s).postOwner 0x0101 st 0xFFF ev

/-- The flask that a number names. -/
def flaskOf (n : Nat) : Option FlaskId := if n < 256 then some (BitVec.ofNat 8 n) else none

/-- A command ends with a status and none of its effect; of a cast the event tells, whatever its status, and its detail word
locates nothing (R59, R66). -/
def State.endCommand (s : State) (l : LadleRef) (tag : Word) (i : Instr) (st : Status) : State :=
  match i with
  | .cast _ flask _ => (s.castEvent (flaskOf flask.toNat) st 0).complete l tag st nowhere []
  | _ => s.complete l tag st 0 []

/-- The command with the tag is marked as started (R325). -/
def State.startEntry (s : State) (h : CmdHdr) : State :=
  let d := s.ladle h.ladle
  (s.setLadle h.ladle { d with cmds := d.cmds.map fun c => if c.tag = h.tag then { c with started := true } else c }).tap
    1 (ladleDom h.ladle)

/-- The command starts, or completes with what keeps it from starting. -/
def State.start (s : State) (h : CmdHdr) (i : Instr) (body : State → State) : State :=
  match s.unstartable h.ladle i with
  | some st => s.endCommand h.ladle h.tag i st
  | none =>
    if !s.mayStart h i then s
    else match ladleOp i with
      | some (_, k) => if kindFits h.ladle k then body (s.startEntry h) else (s.startEntry h).done h St.badOpcode
      | none => (s.startEntry h).done h St.badOpcode

/-- A ladle command: the scheduler core reads the next entry, or returns to one that it has read and not started, and
starts it when it may. An entry whose tag is outstanding breaks R321, and is unpredictable within its ladle's party (R3, R282):
it is performed, or is read and has no effect. -/
def State.command (s : State) (h : CmdHdr) (i : Instr) (body : State → State) : Answer :=
  let d := s.ladle h.ladle
  if !s.phase.serves || s.fw.down.contains .scheduler || !d.enabled then .next s
  else match d.cmds.find? fun c => decide (c.tag = h.tag) with
    | some c =>
      if decide (c.instr = i) && !c.started then .next (s.start h i body)
      else if d.sqHead = d.sqTail then .next s
      else
        let s' := s.took.readEntry h i
        .next (if s.free.getLsbD 0 then s'.start h i body else s')
    | none =>
      if d.sqHead = d.sqTail then .next s
      else .next ((s.readEntry h i).start h i body)

/-- NOP (R327). -/
def execNop (h : CmdHdr) (s : State) : Host.Outcome State Fault Refusal :=
  s.command h (.nop h) fun s => s.done h St.success

/-! ### Commands that name a flask -/

/-- An admin command's flask: an ID above 255 is MALFORMED, a FAILED flask is UNCORRECTABLE (R262, R263). -/
def State.onFlask (s : State) (h : CmdHdr) (f : BitVec 16) (body : FlaskId → State → State) : State :=
  if f.toNat > 255 then s.done h St.malformed
  else
    let id : FlaskId := BitVec.ofNat 8 f.toNat
    if (s.flask id).st = .failed then s.done h St.uncorrectable else body id s

/-- A flask that has been cast and works (R262). -/
def FState.isCast : FState → Bool
  | .running => true
  | .held => true
  | _ => false

/-- The ranges of `LADLE_CONFIG` (R7, R319). -/
def ladleLegal (p : LadleP) (fl : Flask) : Bool :=
  decide (p.ladle.toNat < fl.nladles) && (p.vector == 0xFF || decide (p.vector.toNat < fl.vectors)) &&
    decide (4 ≤ p.sqLog2.toNat ∧ p.sqLog2.toNat ≤ 16) && decide (4 ≤ p.cqLog2.toNat ∧ p.cqLog2.toNat ≤ 16) &&
    decide (p.timeoutMs.toNat ≤ 60000) && decide (p.sqBase.toNat % 4096 = 0) && decide (p.cqBase.toNat % 4096 = 0)

/-- A ladle is configured: the completion ring zeroed, the indices 0, the generation raised (R319). -/
def State.setupLadle (s : State) (f : FlaskId) (n : BitVec 4) (p : LadleP) : State :=
  let l := LadleRef.flask f n
  let s := s.writeLp (BitVec.ofNat 9 f.toNat) p.cqBase.toNat (List.replicate (64 * 2 ^ p.cqLog2.toNat) 0)
  let t : Word := if p.timeoutMs = 0 then 10000 else p.timeoutMs
  let s := s.setLadle l { Ladle.off ((s.ladle l).gen + 1) with
    enabled := true, vector := p.vector, sqLog2 := p.sqLog2.toNat, cqLog2 := p.cqLog2.toNat
    sqBase := p.sqBase.extractLsb' 0 48, cqBase := p.cqBase.extractLsb' 0 48, timeoutMs := t }
  if n = 0 then s.ladleFreed l else s

/-- LADLE_CONFIG: the old ladle is torn down, the new completion ring zeroed (R319, R324). -/
def execLadleConfig (h : CmdHdr) (p : LadleP) (s : State) : Host.Outcome State Fault Refusal :=
  s.command h (.ladleConfig h p) fun s => s.onFlask h p.flask fun f s =>
    let fl := s.flask f
    let n : BitVec 4 := BitVec.ofNat 4 p.ladle.toNat
    let l := LadleRef.flask f n
    let d := s.ladle l
    let fits (b : BitVec 64) (k : Nat) := space b.toNat == 2 && decide (b.toNat < 2 ^ 48) &&
      inFlask s (BitVec.ofNat 9 f.toNat) b.toNat (64 * 2 ^ k)
    if !(decide (fl.st = .empty) || fl.st.isCast) then s.done h St.wrongState
    else if p.ladle.toNat ≥ fl.nladles then s.done h St.malformed
    else if !d.cmds.isEmpty || !d.held.isEmpty then s.done h St.wrongState
    else if p.options.getLsbD 0 then (s.setLadle l (Ladle.off (d.gen + 1))).done h St.success
    else if p.options ≠ 0 ∨ !ladleLegal p fl then s.done h St.malformed
    else if !(fits p.sqBase p.sqLog2.toNat && fits p.cqBase p.cqLog2.toNat) then s.done h St.accessFault
    else (s.setupLadle f n p).done h St.success

end Sys2Proof.Machine
end

