-- ==== Sys2Proof/Machine/Hub.lean ====
section
/-!
DEFINITION. What the hub's engines share: core references, feed bindings, tokens, placements that wait, and ingest jobs
(R16, R17, R22, R49, R50, R163, R164, R232, R409).
-/

namespace Sys2Proof.Machine

/-- A free choice of the module, where the spec gives only a bound on when something happens. -/
def State.freeBit (s : State) : Bool := s.free.getLsbD 0

/-- The core that a core reference names (R49). -/
def coreRef (s : State) (f : FlaskId) (ref : Nat) : Option CoreId :=
  if ref < 2 ^ 20 then ((s.flask f).clusters[ref / 256]?).map fun cl => BitVec.ofNat 20 (cl.toNat * 256 + ref % 256)
  else none

def flaskDom (f : FlaskId) : Domain := BitVec.ofNat 9 f.toNat

/-- The binding of a flask for a source of one of the kinds and its selector. -/
def State.feedFor (s : State) (f : FlaskId) (sources : List Nat) (sel : Nat) : Option FeedRec :=
  match (s.flask f).mould with
  | none => none
  | some m => m.feeds.find? fun r => sources.contains r.source.toNat && decide (r.selector.toNat = sel)

/-- A binding by its number. -/
def State.feedNo (s : State) (f : FlaskId) (n : Nat) : Option FeedRec :=
  match (s.flask f).mould with
  | none => none
  | some m => m.feeds.find? fun r => decide (r.binding.toNat = n)

/-- An ingest binding. -/
def State.ingestFeed (s : State) (f : FlaskId) (b : Nat) : Option FeedRec :=
  (s.feedNo f b).filter fun r => decide (4 ≤ r.source.toNat ∧ r.source.toNat ≤ 6)

/-- The ingest binding that a chained binding hands its messages to (R49). -/
def State.nextFeed (s : State) (f : FlaskId) (r : FeedRec) : Option FeedRec :=
  if r.mode.toNat = 2 then s.ingestFeed f r.nextBinding.toNat else none

/-- Tokens of a binding that the hub holds (R164). -/
def State.heldTokens (s : State) (f : FlaskId) (b : BitVec 12) : Nat :=
  s.fab.tokens.countP fun t => t.flask == f && t.binding == b && decide (t.w.toNat / 2 ^ 28 ≠ 3)

/-- A hub token's word (R163). -/
def tokenWord (kind source info : Nat) : Word := BitVec.ofNat 32 (info % 2 ^ 16 + source % 2 ^ 12 * 2 ^ 16 + kind * 2 ^ 28)

/-- The hub issues a token to a core of the flask (R164); it reaches its port by STREAM_WORD_ARRIVAL. -/
def State.issueToken (s : State) (f : FlaskId) (b : BitVec 12) (c : CoreId) (port : Port) (w : Word) : State :=
  { s with fab := { s.fab with tokens := s.fab.tokens ++ [⟨f, b, c, port, w⟩] } }

def FeedRec.no (r : FeedRec) : BitVec 12 := r.binding.extractLsb' 0 12

/-- The token of a completed message of a region-mode binding (R17, R49). -/
def State.feedToken (s : State) (f : FlaskId) (r : FeedRec) (info : Nat) : State :=
  match coreRef s f r.tokenCore.toNat with
  | none => s
  | some c => s.issueToken f r.no c (r.tokenPort.extractLsb' 0 3) (tokenWord 1 r.no.toNat info)

/-- A placement that would leave the flask is refused (R16). -/
def State.refuse (s : State) (f : FlaskId) (r : FeedRec) (msg : Nat) : State :=
  s.postFlask f 0x010A St.accessFault 0xFFF (evData [r.no.toNat, msg])

/-- Whether accesses of a domain to LPDDR wait for its key: key use is suspended, and the key is still loaded (R232, R260). -/
def State.keyHeld (s : State) (dom : Domain) : Bool := decide (dom.toNat < 256) && s.keyWaits (BitVec.ofNat 8 dom.toNat)

/-- Whether a write of the range waits, for the copy of a frozen granule or for a key, and the state with the copies asked
for (R22, R232). -/
def State.writeWaits (s : State) (dom : Domain) (a n : Nat) : Bool × State :=
  if space a ≠ 2 then (false, s)
  else
    let fas := (pieces 65536 (n / 65536 + 2) a n).filterMap fun x => translate s dom x.1
    if s.keyHeld dom then (true, s)
    else
      let gs := (fas.filter fun fa => s.mem.mustCopy fa).map (· / 65536)
      if gs.isEmpty then (false, s)
      else
        let s := s.askCopies gs
        (gs.any fun g => s.mem.mustCopy (g * 65536), s)

/-- Whether a read of the range waits for a key. -/
def State.readWaits (s : State) (dom : Domain) (a : Nat) : Bool :=
  decide (space a = 2) && s.keyHeld dom

/-- A job joins its binding's queue (R409). -/
def State.addJob (s : State) (f : FlaskId) (feed : Option FeedRec) (b : BitVec 12) (src : BitVec 48) (len : Nat) (origin : JobFrom) :
    State :=
  { s with stor := { s.stor with jobs := s.stor.jobs ++ [⟨f, b, src, len, origin, false, 0, feed, .idle, none⟩] } }

/-- A flask that is being reset or destroyed. -/
def FState.leaving : FState → Bool
  | .resetting => true
  | .destroying => true
  | _ => false

/-- Flasks that are not FREE. -/
def State.liveFlasks (s : State) : List FlaskId :=
  (s.flasks.filter fun e => decide (e.2.st ≠ .free)).map fun e => BitVec.ofNat 8 e.1

/-- The twin state FENCED stops every port, drive and transport (R471). -/
def State.fenced (s : State) : Bool := decide (s.twin.st = .fenced)

/-! ### Live masters (R433, R439) -/

/-- Whether a master is live. -/
def State.masterLive (s : State) : Master → Bool
  | .he0 => !s.live0.lapsed && decide (s.he0.speed ≠ 0)
  | .he1 => !s.live1.lapsed && decide (s.he1.speed ≠ 0)
  | .mgmt => s.own.mgmtLive
  | .peer => decide (s.twin.st = .paired) || decide (s.twin.st = .suspect)

/-- An owner that is live again before the hold ends stays (R439); none does where its record is lost (R225). -/
def State.ownerReturns (s : State) : State :=
  if s.own.holding && s.own.valid && s.masterLive s.own.master then { s with own := { s.own with holding := false } } else s

/-! ### Outbound entries (R294–R296) -/

/-- An outbound entry as the active table holds it. -/
structure OutEntry where
  en : Bool
  r : Bool
  w : Bool
  ro : Bool
  ns : Bool
  dis : Bool
  flask : Domain
  log2 : Nat
  host : Nat
  deriving DecidableEq, Repr

def State.outEntry (s : State) (e : Ep) (i : Nat) : OutEntry :=
  let t := (s.ep e).outActive
  let w (k : Nat) : Word := Tab.get 0 t (8 * i + k)
  ⟨(w 0).getLsbD 0, (w 0).getLsbD 1, (w 0).getLsbD 2, (w 0).getLsbD 3, (w 0).getLsbD 4, (w 0).getLsbD 5, (w 0).extractLsb' 8 9,
    bits (w 1).toNat 5 0, (w 2).toNat + (w 3).toNat * 2 ^ 32⟩

/-- Whether n bytes at an address of space 0x5 lie within an enabled entry of the domain; the permission is asked where
the access is known. -/
def State.outCovers (s : State) (dom : Domain) (a n : Nat) : Bool :=
  (pieces (2 ^ 32) (n / 2 ^ 32 + 2) a n).all fun x =>
    let o := s.outEntry (BitVec.ofNat 1 (x.1 / 2 ^ 43)) (bits x.1 42 32)
    o.en && !o.dis && o.flask == dom && decide (x.1 % 2 ^ 32 + x.2 ≤ 2 ^ o.log2)

/-- An outbound request of a hub engine joins the endpoint's queue. -/
def State.askHost (s : State) (who : OutWho) (dom : Domain) (a n : Nat) (data : Option (List Byte)) : State :=
  let e : Ep := BitVec.ofNat 1 (a / 2 ^ 43)
  let r : OutReq := ⟨s.fab.nextId, who, dom, BitVec.ofNat 48 a, n, data⟩
  let s := { s with fab := { s.fab with nextId := s.fab.nextId + 1 } }
  s.setEp e { s.ep e with queue := (s.ep e).queue ++ [r] }

/-- A big-endian number. -/
def beNat (bs : List Byte) : Nat := bs.foldl (fun n b => n * 256 + b.toNat) 0

/-- n bytes of a number, most significant first. -/
def beBytes (n v : Nat) : List Byte := (leBytes n v).reverse

def byteAt (bs : List Byte) (i : Nat) : Byte := bs.getD i 0

end Sys2Proof.Machine
end

