-- ==== Sys2Proof/Machine/Packet.lean ====
section
/-!
DEFINITION. The packet path: acceptance, parsing, classification, classes, fragments, transmission and shapers
(spec/11_packet_path.md, R346–R364).
-/

namespace Sys2Proof.Machine

def State.port (s : State) (p : Port) : NetPort := Tab.get NetPort.reset s.net.ports p.toNat
def State.setPort (s : State) (p : Port) (x : NetPort) : State :=
  { s with net := { s.net with ports := Tab.put NetPort.reset s.net.ports p.toNat x } }
/-- A register of port n (R364). -/
def portReg (base : Nat) (p : Port) : Nat := base + 0x100 * p.toNat
def State.netClass (s : State) (c : Nat) : Option NetClass := Tab.get none s.net.classes c
def State.setNetClass (s : State) (c : Nat) (x : Option NetClass) : State :=
  { s with net := { s.net with classes := Tab.put none s.net.classes c x } }

/-! ### Parsing (R348) -/

/-- What the parser extracts; an absent field is none. -/
structure Parsed where
  vid : Option (BitVec 12)
  etype : Option (BitVec 16)
  v4 : Bool
  v6 : Bool
  proto : Option Byte
  dst : Option Nat              -- 32 or 128 bits, most significant first
  dport : Option (BitVec 16)
  frag : Option (FragKey × Nat × Bool × Nat)   -- key, offset in bytes, more fragments, header length
  deriving DecidableEq, Repr

/-- n bytes at an offset, when the parser sees them all. -/
def field (bs : List Byte) (o n : Nat) : Option Nat :=
  if o + n ≤ 64 ∧ o + n ≤ bs.length then some (beNat ((bs.drop o).take n)) else none

def isVlan (e : Nat) : Bool := e == 0x8100 || e == 0x88A8

/-- Where the EtherType stands, behind up to two tags. -/
def etypeAt (bs : List Byte) : Nat :=
  match field bs 12 2 with
  | none => 12
  | some e => if isVlan e then (match field bs 16 2 with
      | some e2 => if e2 = 0x8100 then 20 else 16
      | none => 16) else 12

def parseV4 (bs : List Byte) (l : Nat) (p : Parsed) : Parsed :=
  let hl := (byteAt bs l).toNat % 16 * 4
  let fr := field bs (l + 6) 2
  let proto := (field bs (l + 9) 1).map (BitVec.ofNat 8)
  let isFrag := match fr with
    | some x => decide (x % 2 ^ 14 ≠ 0)
    | none => false
  let off := (fr.getD 0) % 2 ^ 13 * 8
  let port := if proto = some 17 ∧ off = 0 ∧ fr.isSome then (field bs (l + hl + 2) 2).map (BitVec.ofNat 16) else none
  let frag := if !isFrag then none else match field bs (l + 12) 4, field bs (l + 16) 4, proto, field bs (l + 4) 2 with
    | some sa, some da, some pr, some id =>
      some (⟨false, BitVec.ofNat 128 sa, BitVec.ofNat 128 da, pr, BitVec.ofNat 32 id⟩, off,
        (fr.getD 0) / 2 ^ 13 % 2 == 1, beNat ((bs.drop (l + 2)).take 2) - hl)
    | _, _, _, _ => none
  { p with v4 := true, proto := proto, dst := field bs (l + 16) 4, dport := port, frag := frag }

def parseV6 (bs : List Byte) (l : Nat) (p : Parsed) : Parsed :=
  let nh := field bs (l + 6) 1
  let dst := field bs (l + 24) 16
  match nh with
  | some 17 => { p with v6 := true, proto := some 17, dst := dst, dport := (field bs (l + 42) 2).map (BitVec.ofNat 16) }
  | some 44 =>
    let proto := (field bs (l + 40) 1).map (BitVec.ofNat 8)
    let fr := field bs (l + 42) 2
    let off := (fr.getD 0) / 8 * 8
    let more := (fr.getD 0) % 2 == 1
    let port := if proto = some 17 ∧ fr.isSome ∧ off = 0 then (field bs (l + 50) 2).map (BitVec.ofNat 16) else none
    let frag := if off = 0 ∧ !more then none else match field bs (l + 8) 16, dst, proto, field bs (l + 44) 4 with
      | some sa, some da, some pr, some id =>
        some (⟨true, BitVec.ofNat 128 sa, BitVec.ofNat 128 da, pr, BitVec.ofNat 32 id⟩, off, more,
          beNat ((bs.drop (l + 4)).take 2) - 8)
      | _, _, _, _ => none
    { p with v6 := true, proto := proto, dst := dst, dport := port, frag := frag }
  | _ => { p with v6 := true, dst := dst }

def parse (bs : List Byte) : Parsed :=
  let e := etypeAt bs
  let vid := if e = 12 then none else (field bs 14 2).map fun t => BitVec.ofNat 12 t
  let et := field bs e 2
  let p : Parsed := ⟨vid, et.map (BitVec.ofNat 16), false, false, none, none, none, none⟩
  match et with
  | some 0x0800 => parseV4 bs (e + 2) p
  | some 0x86DD => parseV6 bs (e + 2) p
  | _ => p

/-! ### Classification (R349, R350) -/

def State.ruleWord (s : State) (i w : Nat) : Nat := (Tab.get 0 s.net.rules (16 * i + w)).toNat

/-- Whether a rule matches every field that it tests. -/
def ruleMatches (s : State) (i : Nat) (port : Port) (p : Parsed) : Bool :=
  let w0 := s.ruleWord i 0
  let w1 := s.ruleWord i 1
  let w2 := s.ruleWord i 2
  let l3 := bits w0 10 9
  let plen := bits w1 15 9
  let want := s.ruleWord i 4 * 2 ^ 96 + s.ruleWord i 5 * 2 ^ 64 + s.ruleWord i 6 * 2 ^ 32 + s.ruleWord i 7
  w0.testBit 8 && w0.testBit port.toNat &&
    (match l3 with
      | 1 => p.v4
      | 2 => p.v6
      | 3 => !p.v4 && !p.v6 && decide (p.etype = some (BitVec.ofNat 16 (bits w1 31 16)))
      | _ => true) &&
    (!w0.testBit 11 || decide (p.vid = some (BitVec.ofNat 12 (bits w0 23 12)))) &&
    (!w1.testBit 8 || decide (p.proto = some (BitVec.ofNat 8 w1))) &&
    (decide (plen = 0) || match p.dst with
      | none => false
      | some d =>
        if p.v4 then decide (d / 2 ^ (32 - min plen 32) = want / 2 ^ 96 / 2 ^ (32 - min plen 32))
        else decide (d / 2 ^ (128 - min plen 128) = want / 2 ^ (128 - min plen 128))) &&
    (decide (bits w2 15 0 = 0 ∧ bits w2 31 16 = 65535) || match p.dport with
      | none => false
      | some d => decide (bits w2 15 0 ≤ d.toNat ∧ d.toNat ≤ bits w2 31 16))

/-- The lowest-numbered enabled rule that matches. -/
def State.classify (s : State) (port : Port) (p : Parsed) : Option Nat :=
  ((s.net.rules.filter fun e => e.1 % 16 == 0 && e.2.getLsbD 8).map (·.1 / 16)).find? fun i => ruleMatches s i port p

/-! ### Classes (R351–R354) -/

/-- Frames of a class are dropped: counted, and reported to its flask at most once per millisecond (R363). -/
def State.classDrop (s : State) (cls : Nat) (counter : Nat) : State :=
  let s := s.count counter
  match s.netClass cls with
  | none => s
  | some c =>
    let n := c.drops + 1
    if s.freeBit then
      (s.took.setNetClass cls (some { c with drops := 0 })).postFlask c.flask 0x0502 St.success 0xFFF (evData [cls, n])
    else s.took.setNetClass cls (some { c with drops := n })

/-- A classified frame joins its port's reorder buffer, or is dropped. -/
def State.accept (s : State) (port : Port) (rule action cls : Nat) (frag : Bool) (bs : List Byte) : State :=
  let put (feed : Option (FlaskId × FeedRec)) : State :=
    let x := s.port port
    s.setPort port { x with buf := x.buf ++ [⟨bs, BitVec.ofNat 2 action, BitVec.ofNat 12 cls, BitVec.ofNat 13 rule, frag, feed, .idle, none⟩] }
  if action = 0 then s
  else if action ≠ 3 then put none
  else match s.netClass cls with
    | none => s.classDrop cls Reg.netNoBinding
    | some c =>
      if c.closing.isSome || (s.flask c.flask).st.leaving then s.classDrop cls Reg.netClassClosed
      else match s.feedFor c.flask [7] cls with
        | none => s.classDrop cls Reg.netNoBinding
        | some r =>
          if r.mode ≠ 0 ∨ !r.flags.getLsbD 0 ∨ r.targetBytes.toNat / 2 ^ c.slotLog2 = 0 then s.classDrop cls Reg.netNoBinding
          else put (some (c.flask, r))

/-! ### Fragments (R357, R358) -/

/-- A fragment's bytes are counted in its entry; a complete datagram retires it. -/
def State.seeFrag (s : State) (e : FragEntry) (len : Nat) (total : Option Nat) : State :=
  let e' := { e with seen := e.seen + len, total := if total.isSome then total else e.total }
  let rest := s.net.frags.filter fun x => decide (x.key ≠ e.key)
  { s with net := { s.net with frags := if e'.total = some e'.seen then rest else rest ++ [e'] } }

/-- A frame is classified (R350, R357). -/
def State.sort (s : State) (port : Port) (bs : List Byte) : State :=
  let p := parse bs
  let byRule (s : State) (frag : Bool) : State :=
    match s.classify port p with
    | none => s.count Reg.netNoRule
    | some i => s.accept port i (bits (s.ruleWord i 3) 1 0) (bits (s.ruleWord i 3) 27 16) frag bs
  match p.frag with
  | none => byRule s false
  | some (key, off, more, len) =>
    let total := if more then none else some (off + len)
    if off = 0 then
      match s.classify port p with
      | none => s.count Reg.netNoRule
      | some i =>
        let old := s.net.frags.find? fun x => decide (x.key = key)
        if old.isNone ∧ s.net.frags.length ≥ 4096 then s.count Reg.netFragFull
        else
          let e : FragEntry := ⟨key, BitVec.ofNat 13 i, BitVec.ofNat 2 (bits (s.ruleWord i 3) 1 0),
            BitVec.ofNat 12 (bits (s.ruleWord i 3) 27 16), (old.map (·.seen)).getD 0, (old.bind (·.total))⟩
          byRule (s.seeFrag e len total) true
    else match s.net.frags.find? fun x => decide (x.key = key) with
      | some e => (s.seeFrag e len total).accept port e.rule.toNat e.action.toNat e.cls.toNat true bs
      | none =>
        if s.net.held.length ≥ 256 then s.count Reg.netFragTimeout
        else { s with net := { s.net with held := s.net.held ++ [⟨key, port, bs, len, total⟩] } }

/-- A MAC address as its registers hold it; the first byte on the wire is the lowest. -/
def macAt (bs : List Byte) (o : Nat) : Nat := leNat ((bs.drop o).take 6)
def State.macReg (s : State) (lo hi : Nat) : Nat := (s.reg lo).toNat + (s.reg hi).toNat % 2 ^ 16 * 2 ^ 32

/-- Bytes in a port's reorder buffer. -/
def NetPort.fill (x : NetPort) : Nat := (x.buf.map fun f => f.bytes.length).sum
def reorderBytes : Nat := 4 * 2 ^ 20

/-- Flow control is sent until the buffer is below half (R356). -/
def NetPort.ease (x : NetPort) : NetPort := { x with xoff := x.xoff && decide (reorderBytes ≤ 2 * x.fill) }

/-- FRAME_RECEIVE: the frame from its destination MAC, without its FCS (R347, R355, R356). -/
def execFrameReceive (port : Port) (bytes : List Byte) (fcsOk : Bool) (s : State) :
    Host.Outcome State Fault Refusal :=
  let x := s.port port
  let ctl := s.reg (portReg Reg.netPnCtl port)
  let dm := macAt bytes 0
  if !s.phase.serves || !x.up || !ctl.getLsbD 0 || s.fenced then .next s
  else if !fcsOk || decide (bytes.length + 4 < 64) || decide (9216 < bytes.length + 4) then
    .next (s.count (portReg Reg.netPnRxBad port))
  else if !(decide (dm = s.macReg (portReg Reg.netPnMacLo port) (portReg Reg.netPnMacHi port)) || decide (dm = 2 ^ 48 - 1) ||
      (ctl.getLsbD 2 && (byteAt bytes 0).getLsbD 0) || ctl.getLsbD 3) then
    .next (s.count (portReg Reg.netPnRxDmac port))
  else if field bytes 12 2 = some 0x8808 then .next s
  else
    let s := s.count (portReg Reg.netPnRxOk port)
    let full := decide (x.fill + bytes.length > reorderBytes)
    if ctl.getLsbD 1 && (full || x.xoff) then
      .next ((((s.setPort port { x with xoff := true }).count (portReg Reg.netPnPfcSent port)).emit (.pfc port)).sort port bytes)
    else if full then .next (s.count (portReg Reg.netPnReorderDrop port))
    else .next (s.sort port bytes)

/-- A closing class whose frames have all retired is released (R354). -/
def State.closeClass (s : State) (cls : Nat) : State :=
  match s.netClass cls with
  | none => s
  | some c => match c.closing with
    | none => s
    | some x =>
      if s.net.ports.any fun p => p.2.buf.any fun f => f.action == 3 && decide (f.cls.toNat = cls) then s
      else (s.setNetClass cls none).complete x.1 x.2 St.success 0 []

/-- A frame leaves the reorder buffer. -/
def State.popFrame (s : State) (port : Port) : State :=
  let x := s.port port
  s.setPort port { x with buf := x.buf.drop 1 : NetPort }.ease

def State.modHead (s : State) (port : Port) (g : Frame → Frame) : State :=
  let x := s.port port
  match x.buf with
  | [] => s
  | f :: rest => s.setPort port { x with buf := g f :: rest }

/-- The frame at the head of a port leaves unplaced, and is counted. -/
def State.dropFrame (s : State) (port : Port) (cls : Nat) (counter : Nat) : State :=
  ((((s.landEnd (.frame port)).popFrame port)).classDrop cls counter).closeClass cls

/-- The token of a placed frame; while a flask drains, it is dropped (R276). -/
def State.frameToken (s : State) (port : Port) (cls : Nat) (fl : FlaskId) (r : FeedRec) (n : Nat) : State :=
  let s := (s.landEnd (.frame port)).popFrame port
  (if (s.flask fl).st.leaving then s else s.feedToken fl r n).closeClass cls

/-- The slot that frame number n of a class uses: its address and its bytes (R352). -/
def NetClass.slot (c : NetClass) (r : FeedRec) : Nat × Nat :=
  let size := 2 ^ c.slotLog2
  (r.target.toNat + c.n % (r.targetBytes.toNat / size) * size, size)

/-- A frame as it stands in its slot (R352). -/
def Frame.slotBytes (f : Frame) (port : Port) (n size : Nat) : List Byte :=
  let data := f.bytes.take (size - 16)
  let w0 := data.length + (if size - 16 < f.bytes.length then 2 ^ 14 else 0) + (if f.frag then 2 ^ 15 else 0) +
    port.toNat * 2 ^ 16 + 2 ^ 31
  leBytes 4 w0 ++ leBytes 4 n ++ leBytes 4 f.rule.toNat ++ leBytes 4 0 ++ data

/-- The class's next frame has a number of its own. -/
def State.nextFrame (s : State) (cls : Nat) (c : NetClass) : State := s.setNetClass cls (some { c with n := (c.n + 1) % 2 ^ 32 })

/-- A class frame is placed in its slot, or dropped (R352, R353, R362). Whether its token comes at once or is still to come is a
free choice of the module (R18). -/
def State.placeFrame (s : State) (port : Port) (f : Frame) (fl : FlaskId) (r : FeedRec) (c : NetClass) : State :=
  let cls := f.cls.toNat
  let a := (c.slot r).1
  let q := s.hubRead (flaskDom fl) .hub a 4
  let s := q.2.1
  if decide (q.2.2 ≠ .ok) || (leNat q.1).testBit 31 || decide (64 ≤ s.heldTokens fl r.no) then
    (if q.2.2 = .outside then s.refuse fl r c.n else s).dropFrame port cls Reg.netClassFull
  else
    let bs := f.slotBytes port c.n (c.slot r).2
    let w := (s.land (.frame port) (flaskDom fl) a bs.length).hubWrite (flaskDom fl) .hub a bs
    if w.2 ≠ .ok then (if w.2 = .outside then w.1.refuse fl r c.n else w.1).dropFrame port cls Reg.netClassFull
    else
      let s := w.1.nextFrame cls c
      if s.freeBit then s.took.frameToken port cls fl r c.n
      else s.took.modHead port fun f => { f with landed := some c.n }

/-- A slot in a host's memory: its first word is read, and the frame written, through the flask's outbound entry (R19, R296,
R353). An access that fails, or that another port's frame of the class still makes, drops the frame or holds it. -/
def State.hostFrame (s : State) (port : Port) (f : Frame) (fl : FlaskId) (r : FeedRec) (c : NetClass) : State :=
  let cls := f.cls.toNat
  let a := (c.slot r).1
  let busy := s.net.ports.any fun p => decide (p.1 ≠ port.toNat) && match p.2.buf with
    | g :: _ => g.cls == f.cls && g.action == 3 && decide (g.leg ≠ .idle)
    | [] => false
  let full (s : State) : State := s.dropFrame port cls Reg.netClassFull
  match f.leg with
  | .idle =>
    if busy then s
    else if 64 ≤ s.heldTokens fl r.no then full s
    else (s.askHost (.frame port) (flaskDom fl) a 4 none).modHead port fun f => { f with leg := .reading }
  | .got (some bs) =>
    if (leNat (bs.take 4)).testBit 31 || decide (64 ≤ s.heldTokens fl r.no) then full s
    else
      let out := f.slotBytes port c.n (c.slot r).2
      (s.askHost (.frame port) (flaskDom fl) a out.length (some out)).modHead port fun f => { f with leg := .writing }
  | .got none => full s
  | .done true => (s.nextFrame cls c).frameToken port cls fl r c.n
  | .done false => full s
  | .reading => s
  | .writing => s

/-- An access of the frame at the head of a port to a host has ended. -/
def State.frameLeg (s : State) (port : Port) (leg : HostLeg) : State :=
  s.modHead port fun f => if f.leg = .reading ∨ f.leg = .writing then { f with leg := leg } else f

/-- FRAME_RELEASE: the oldest frame of the port goes to its transport, whose rows carry its packet on, or into its slot; a
placement that waits holds the frames behind it (R22, R355, R356). -/
def execFrameRelease (port : Port) (s : State) : Host.Outcome State Fault Refusal :=
  match (s.port port).buf with
  | [] => .next s
  | f :: _ =>
    match f.feed with
    | none => .next (s.popFrame port)
    | some (fl, r) => match s.netClass f.cls.toNat with
      | none => .next (s.dropFrame port f.cls.toNat Reg.netClassClosed)
      | some c => match f.landed with
        | some n => .next (s.frameToken port f.cls.toNat fl r n)
        | none =>
          if space r.target.toNat = 5 then .next (s.hostFrame port f fl r c)
          else
            let w := s.writeWaits (flaskDom fl) (c.slot r).1 (min (16 + f.bytes.length) (c.slot r).2)
            if w.1 then .next w.2 else .next (s.placeFrame port f fl r c)

/-- FRAGMENT_HOLD_EXPIRY: fragment i of those held (R358). -/
def execFragmentHoldExpiry (i : Nat) (s : State) : Host.Outcome State Fault Refusal :=
  match s.net.held[i]? with
  | none => .next s
  | some h =>
    let s := { s with net := { s.net with held := s.net.held.eraseIdx i } }
    match s.net.frags.find? fun x => decide (x.key = h.key) with
    | none => .next (s.count Reg.netFragTimeout)
    | some e => .next ((s.seeFrag e h.len h.total).accept h.port e.rule.toNat e.action.toNat e.cls.toNat true h.bytes)

/-- FRAGMENT_ENTRY_EXPIRY: entry i of the table (R358). -/
def execFragmentEntryExpiry (i : Nat) (s : State) : Host.Outcome State Fault Refusal :=
  .next { s with net := { s.net with frags := s.net.frags.eraseIdx i } }

/-! ### Rules (R350, R364) -/

/-- A rule's words with a prefix length above an IPv4 address's taken as 32 (R10, R349). -/
def ruleClamp (ws : List Word) : List Word :=
  let w1 := ws.getD 1 0
  if bits (ws.getD 0 0).toNat 10 9 = 1 ∧ 32 < bits w1.toNat 15 9 then ws.set 1 ((w1 &&& 0xFFFF01FF) ||| 0x4000) else ws

/-- NET_RULE_WRITE: all sixteen words at one point. -/
def State.putRule (s : State) (i : Nat) (ws : List Word) : State :=
  let ws := ruleClamp ws
  { s with net := { s.net with rules := (List.range 16).foldl (fun t w => Tab.put 0 t (16 * i + w) (ws.getD w 0)) s.net.rules } }

/-- The bits of a rule that are not reserved (R349). -/
def ruleMask (w : Nat) : Word :=
  if w = 0 then 0x00FFFFFF else if w = 3 then 0x0FFF0003 else if w < 8 then 0xFFFFFFFF else 0

def execNetRuleWrite (m : Master) (index : BitVec 13) (s : State) : Host.Outcome State Fault Refusal :=
  .next (s.ownerWrite m fun s =>
    s.putRule index.toNat ((List.range 16).map fun w => s.reg (Reg.netRuleStage + 4 * w) &&& ruleMask w))

def execNetRuleRead (m : Master) (index : BitVec 13) (s : State) : Host.Outcome State Fault Refusal :=
  .next (s.ownerWrite m fun s =>
    (List.range 16).foldl (fun s w => s.setReg (Reg.netRuleStage + 4 * w) (Tab.get 0 s.net.rules (16 * index.toNat + w))) s)

/-! ### Commands -/

/-- The flask of a flask ladle. -/
def hdrFlask (h : CmdHdr) : FlaskId := (ladleFlask h.ladle).getD 0

/-- NET_CLASS_OPEN (R351). -/
def execNetClassOpen (h : CmdHdr) (cls : BitVec 16) (slotLog2 : Byte) (s : State) : Host.Outcome State Fault Refusal :=
  s.command h (.netClassOpen h cls slotLog2) fun s =>
    if cls.toNat > 4095 ∨ slotLog2.toNat < 8 ∨ 14 < slotLog2.toNat then s.done h St.malformed
    else match s.netClass cls.toNat with
      | some c => s.done h (if c.flask = hdrFlask h then St.wrongState else 0x0082)
      | none => (s.setNetClass cls.toNat (some ⟨hdrFlask h, slotLog2.toNat, 0, none, 0⟩)).done h St.success

/-- NET_CLASS_CLOSE (R354). -/
def execNetClassClose (h : CmdHdr) (cls : BitVec 16) (s : State) : Host.Outcome State Fault Refusal :=
  s.command h (.netClassClose h cls) fun s =>
    match s.netClass cls.toNat with
    | none => s.done h St.notFound
    | some c =>
      if c.flask ≠ hdrFlask h ∨ c.closing.isSome then s.done h St.notFound
      else (s.setNetClass cls.toNat (some { c with closing := some (h.ladle, h.tag) })).closeClass cls.toNat

/-- The module shaper of a flask's shaper number (R361). -/
def State.shaperOf (s : State) (f : FlaskId) (k : Nat) : Option Nat := (s.flask f).shapers[k]?

/-- Whether the owner lets the flask send on a port (R359, R364). -/
def State.mayTx (s : State) (f : FlaskId) (ports : Nat) : Bool :=
  let p := (s.reg (Reg.netFlaskTx + 0x10 * f.toNat)).toNat % 256
  decide (ports &&& p = ports)

def State.shaper (s : State) (i : Nat) : Shaper := Tab.get Shaper.free s.net.shapers i
def State.setShaper (s : State) (i : Nat) (x : Shaper) : State :=
  { s with net := { s.net with shapers := Tab.put Shaper.free s.net.shapers i x } }

/-- A transmit queue's number in the round robin. -/
def queueNo : LadleRef → Nat
  | .admin => 0
  | .flask f n => 16 * f.toNat + n.toNat + 1

/-- Whether a frame at the head of its queue may start (R360, R361). -/
def State.eligible (s : State) (t : TxFrame) : Bool :=
  !(s.port t.port).paused.getLsbD t.pcp.toNat && (match t.shaper with
    | none => true
    | some i => (s.shaper i).used && decide (0 < (s.shaper i).credit))

/-- The frames of a port that would start now: those of each queue before the first that may not start (R360). -/
def State.starters (s : State) (port : Port) : List TxFrame :=
  (s.net.tx.foldl (fun (a : List TxFrame × List LadleRef) t =>
    if !(t.port == port) || a.2.contains t.ladle then a
    else if s.eligible t then (a.1 ++ [t], a.2) else (a.1, a.2 ++ [t.ladle])) ([], [])).1

/-- The frames of a port whose link is down that would start now end with NET_PORT_DOWN (R359). -/
def State.failDown (s : State) (port : Port) : State :=
  if (s.port port).up then s
  else (s.starters port).foldl (fun a t =>
    State.complete { a with net := { a.net with tx := a.net.tx.erase t } } t.ladle t.tag 0x0080 0 []) s

/-- NET_SEND: checked, read and queued (R359). -/
def execNetSend (h : CmdHdr) (p : NetSendP) (s : State) : Host.Outcome State Fault Refusal :=
  s.command h (.netSend h p) fun s =>
    let f := hdrFlask h
    let tx := s.reg (Reg.netFlaskTx + 0x10 * f.toNat)
    let n := p.length.toNat
    if n < 60 ∨ 9212 < n then s.done h 0x0081
    else if p.pcp.toNat > 7 then s.done h St.malformed
    else if p.port.toNat > 7 || !s.mayTx f (2 ^ p.port.toNat) || decide (space p.src.toNat ≠ 2) || decide (2 ^ 48 ≤ p.src.toNat) ||
        !inFlask s (flaskDom f) p.src.toNat n then s.done h St.accessFault
    else if p.shaper ≠ 0xFFFF ∧ (s.shaperOf f p.shaper.toNat).isNone then s.done h 0x0083
    else
      let r := s.hubRead (flaskDom f) .hub p.src.toNat n
      let s := r.2.1
      let port : Port := p.port.extractLsb' 0 3
      if r.2.2 = .uncorrectable then s.done h St.uncorrectable
      else if r.2.2 = .outside then s.done h St.accessFault
      else if tx.getLsbD 8 ∧ macAt r.1 6 ≠ s.macReg (Reg.netFlaskMacLo + 0x10 * f.toNat) (Reg.netFlaskMacHi + 0x10 * f.toNat) then
        s.done h St.accessFault
      else
        let sh := if p.shaper = 0xFFFF then none else s.shaperOf f p.shaper.toNat
        State.failDown { s with net := { s.net with tx := s.net.tx ++ [⟨h.ladle, h.tag, port, p.pcp.extractLsb' 0 3, sh, r.1⟩] } } port

/-- SHAPER_SET (R351, R361). -/
def execShaperSet (h : CmdHdr) (p : ShaperP) (s : State) : Host.Outcome State Fault Refusal :=
  s.command h (.shaperSet h p) fun s =>
    match s.shaperOf (hdrFlask h) p.shaper.toNat with
    | none => s.done h 0x0083
    | some i =>
      if p.overhead.toNat > 63 ∨ p.rateMbps.toNat < 1 ∨ 1600000 < p.rateMbps.toNat ∨ p.burst.toNat < 64 ∨
          16777216 < p.burst.toNat then s.done h St.malformed
      else (s.setShaper i { s.shaper i with staged := some (p.rateMbps.toNat, p.burst.toNat, p.overhead.toNat) }).done h St.success

/-- SHAPER_REFILL (R361): staged values apply, then credit is added, to at most the burst; a shaper's first values give it
its burst. -/
def Shaper.refill (x : Shaper) : Shaper :=
  let y := match x.staged with
    | none => x
    | some (r, b, o) => { x with rate := r, burst := b, ovh := o, staged := none, used := true
                                 credit := if x.used then x.credit else 8 * (b : Int) }
  if y.used then { y with credit := min (y.credit + y.rate) (8 * (y.burst : Int)) } else y

def execShaperRefill (index : BitVec 16) (s : State) : Host.Outcome State Fault Refusal :=
  .next ((List.range 8).foldl (fun s p => s.failDown (BitVec.ofNat 3 p)) (s.setShaper index.toNat (s.shaper index.toNat).refill))

/-- PFC_FRAME_RECEIVE (R346, R360). -/
def execPfcFrameReceive (port : Port) (paused : Byte) (s : State) : Host.Outcome State Fault Refusal :=
  if (s.reg (portReg Reg.netPnCtl port)).getLsbD 1 then .next (s.setPort port { s.port port with paused := paused })
  else .next s

/-- A failed lane of port n, or 8 for the twin link (R508). -/
def State.laneBad (s : State) (n : Nat) : Bool :=
  let w := s.reg (Reg.bistLaneFail + 4 * (if n = 8 then 2 else n / 4))
  decide ((if n = 8 then w.toNat % 2 ^ 16 else w.toNat / 2 ^ (8 * (n % 4)) % 2 ^ 8) ≠ 0)

end Sys2Proof.Machine
end

