-- ==== Sys2Proof/Machine/Transport.lean ====
section
/-!
DEFINITION. Queue pairs, messages, paths and congestion at the sender (spec/12_remote_memory.md, R365–R384, R389, R392,
R393).
-/

namespace Sys2Proof.Machine

def State.qp (s : State) (n : Nat) : Qp := Tab.get Qp.reset s.xport.qps n
def State.setQp (s : State) (n : Nat) (q : Qp) : State :=
  { s with xport := { s.xport with qps := Tab.put Qp.reset s.xport.qps n q } }
def State.modQp (s : State) (n : Nat) (f : Qp → Qp) : State := s.setQp n (f (s.qp n))

namespace XpSt
def retryExceeded : Status := 0x0090
def rnrExceeded : Status := 0x0091
def qpError : Status := 0x0092
def noQp : Status := 0x0093
def noMr : Status := 0x0094
def faultExceeded : Status := 0x0095
def remoteAccess : Status := 0x0096
end XpSt

/-! ### A queue pair's parameters -/

/-- A value of 0 stands for its default (R368). -/
def orDefault (v d : Nat) : Nat := if v = 0 then d else v

def Qp.mtu (q : Qp) : Nat := match q.conn with
  | some c => 2 ^ c.mtuLog2.toNat
  | none => 4096
def Qp.roce (q : Qp) : Bool := match q.conn with
  | some c => c.mode.getLsbD 1
  | none => false
/-- RoCE v2 uses delay mode (R393). -/
def Qp.delay (q : Qp) : Bool := match q.conn with
  | some c => c.mode.getLsbD 0 || c.mode.getLsbD 1
  | none => false
def Qp.window (q : Qp) : Nat := match q.conn with
  | some c => orDefault c.window.toNat 64
  | none => 64
def Qp.retryLimit (q : Qp) : Nat := match q.conn with
  | some c => orDefault c.retryLimit.toNat 7
  | none => 7
def Qp.rnrLimit (q : Qp) : Nat := match q.conn with
  | some c => orDefault c.rnrLimit.toNat 7
  | none => 7

/-- The defaults of R369. -/
def ccDefault : CcP := ⟨65536, 1048576, 12, 128, 8192, 8192, 4194304⟩
def Qp.ccv (q : Qp) : CcP := q.cc.getD ccDefault

/-- The local ports of a queue pair, lowest first; RoCE v2 uses one (R381, R393). -/
def Qp.ports (q : Qp) : List Nat := match q.conn with
  | none => []
  | some c =>
    let ps := (List.range 8).filter fun i => c.ports.getLsbD i
    if q.roce then ps.take 1 else ps

def Qp.entropies (q : Qp) : Nat := match q.conn with
  | none => 1
  | some c => if q.roce then 1 else c.paths.toNat

def Qp.nPaths (q : Qp) : Nat := q.ports.length * q.entropies
/-- The port and the entropy value of a path (R381). -/
def Qp.pathPort (q : Qp) (p : Nat) : Nat := q.ports.getD (p / q.entropies) 0
def Qp.pathEntropy (q : Qp) (p : Nat) : Nat := p % q.entropies

/-- The next path of the round robin that has not failed, from p on. -/
def Qp.findPath (q : Qp) (p : Nat) : Nat → Option Nat
  | 0 => none
  | n + 1 => if q.failed.contains (p % q.nPaths) then Qp.findPath q (p + 1) n else some (p % q.nPaths)

def Qp.nextPath (q : Qp) : Option Nat := if q.nPaths = 0 then none else q.findPath q.path q.nPaths

def psnMod : Nat := 2 ^ 24
/-- How far PSN a lies beyond PSN b. -/
def psnDiff (a b : Nat) : Nat := (a + psnMod - b % psnMod) % psnMod
/-- a is older than b, by serial arithmetic modulo 2^32. -/
def serialOlder (a b : Word) : Bool := a != b && decide (2 ^ 31 ≤ (a - b).toNat)

def XpKind.isRead : XpKind → Bool
  | .read .. => true
  | _ => false

def XpKind.type : XpKind → BitVec 4
  | .send => 1
  | .write .. => 2
  | .read .. => 3

/-- A queue pair's connection ends: what is past its checks is placed, and no longer answered; what is stalled goes, and so does
what it has still to send, answers excepted. -/
def State.disown (s : State) (n : Nat) : State :=
  let mine (k : LandKey) : Bool := match k with
    | .msg q _ => decide (q = n)
    | _ => false
  { s with
    fab := { s.fab with landing := s.fab.landing.filter fun l => !mine l.1 }
    net := { s.net with xq := s.net.xq.filter fun x => decide (x.qpn ≠ n) || decide (x.type = 5) || decide (x.type = 6) }
    xport := { s.xport with
      places := s.xport.places.map fun p => if p.qpn = n then { p with live := false } else p
      stalled := s.xport.stalled.filter fun x => decide (x.p.qpn ≠ n) } }

/-! ### Packets on their way out (R360, R368, R371–R373, R381) -/

/-- R373. -/
def nakByte : NakCode → Byte
  | .seq => 1
  | .rnr => 2
  | .access => 3
  | .revoked => 4
  | .pageFault => 5
  | .fenced => 6
  | .qpError => 7
  | .uncorrectable => 8

/-- The four words of an entry of `XPORT.SRC_IP`. -/
def State.srcIpWords (s : State) (i : Nat) : List Word := (List.range 4).map fun w => s.reg (Reg.xportSrcIp + 16 * i + 4 * w)

/-- Entry i of `XPORT.SRC_IP`, its byte of the lowest offset first (R394). -/
def State.srcIpOf (s : State) (i : Nat) : BitVec 128 :=
  BitVec.ofNat 128 (leNat (((s.srcIpWords i).flatMap fun w => Word.bytes w).reverse))

/-- Where an answer of a queue pair that is not connected goes, is open: no packet names its sender's queue pair. -/
def State.anyPeer (s : State) : ConnectP :=
  let v (k : Nat) : BitVec 64 := Config.freeValue (s.fresh + k)
  ⟨0, (v 0).setWidth 32 &&& 0x3FFFF, v 1 ++ v 2, (v 3).setWidth 48, (v 4).setWidth 16, 0, (v 5).setWidth 8 &&& 15, 0, 1, 0, 12, 0, 0, 0, 0, 0⟩

/-- A packet of queue pair n to the peer that `c` names, from a port and under an entropy value (R368, R371, R381). -/
def State.packetOf (s : State) (n : Nat) (port : Port) (e : Nat) (c : ConnectP) (type : BitVec 4) (hdr : XpHdr) (body : List Byte) :
    XpOut :=
  ⟨n, port, c.vlan.extractLsb' 12 3, c.dmac, c.vlan, s.srcIpOf c.srcIp.toNat, c.peerIp,
    BitVec.ofNat 16 (49152 + (n * 64 + e) % 16384), if (s.qp n).roce then 4791 else (s.reg Reg.xportUdpPort).setWidth 16, type,
    { hdr with destQpn := c.peerQpn.setWidth 18 }, body⟩

/-- A packet of a queue pair joins its transmit queue on a port, under an entropy value (R360, R381). -/
def State.queuePkt (s : State) (n : Nat) (port : Port) (e : Nat) (type : BitVec 4) (hdr : XpHdr) (body : List Byte) : State :=
  let put (s : State) (c : ConnectP) : State :=
    { s with net := { s.net with xq := s.net.xq ++ [s.packetOf n port e c type hdr body] } }
  match (s.qp n).conn with
  | some c => put s c
  | none => put { s with fresh := s.fresh + 6 } s.anyPeer

/-- A packet of a queue pair joins its transmit queue on one of its paths. -/
def State.queueOn (s : State) (n p : Nat) (type : BitVec 4) (hdr : XpHdr) (body : List Byte) : State :=
  let q := s.qp n
  s.queuePkt n (BitVec.ofNat 3 (q.pathPort p)) (q.pathEntropy p) type { hdr with path := BitVec.ofNat 16 p } body

/-- The header of a packet of a message (R371); `EPOCH`, `TS` and `ACK_REQ` are filled in when it leaves. -/
def msgHdr (notify fence : Bool) (psn : Nat) (msn : Word) (len offset : Nat) : XpHdr :=
  ⟨1, true, false, notify, fence, 0, 0, 0, BitVec.ofNat 24 psn, msn, BitVec.ofNat 32 len, BitVec.ofNat 32 offset, 0⟩

/-- SEND, WRITE and READ_REQ (R372). -/
def XpOut.isData (x : XpOut) : Bool := decide (1 ≤ x.type.toNat ∧ x.type.toNat ≤ 3)

/-- ACK and NAK. -/
def XpOut.isAck (x : XpOut) : Bool := decide (x.type = 5) || decide (x.type = 6)

/-- Queued packets that pass a test go. -/
def State.unqueue (s : State) (f : XpOut → Bool) : State := { s with net := { s.net with xq := s.net.xq.filter fun x => !f x } }

/-! ### Messages complete in order; the error state (R366, R378, R380) -/

/-- Completed messages at the front of the queue pair complete their commands; a drained queue pair becomes IDLE. -/
def State.flushMsgs (s : State) (n : Nat) : List XpMsg → State
  | [] =>
    let q := s.qp n
    if q.st = .draining then
      let s := (s.setQp n { q with st := .idle, msgs := [], closing := none }).disown n
      match q.closing with
      | some x => s.complete x.1 x.2 St.success 0 []
      | none => s
    else s.setQp n { q with msgs := [] }
  | m :: rest => match m.done with
    | none => s.setQp n { s.qp n with msgs := m :: rest }
    | some st => State.flushMsgs (s.complete m.ladle m.tag st 0 []) n rest

/-- A message ends with a status: its packets are acknowledged for, and it completes in its turn. -/
def State.endMsg (s : State) (n : Nat) (msn : Word) (st : Status) : State :=
  let q := s.qp n
  let s := (s.unqueue fun x => decide (x.qpn = n) && decide (x.hdr.msn = msn) && x.isData).setQp n { q with
    unacked := q.unacked.filter fun p => decide (p.msn ≠ msn)
    msgs := q.msgs.map fun m => if m.msn = msn ∧ m.done.isNone then { m with done := some st, sent := m.pkts } else m }
  s.flushMsgs n (s.qp n).msgs

/-- The queue pair enters ERROR: its outstanding commands complete, the causing one with the cause (R366). -/
def State.qpFail (s : State) (n : Nat) (cause : Status) (msn : Option Word) : State :=
  let q := s.qp n
  if q.st ≠ .active ∧ q.st ≠ .draining then s
  else
    let s := (s.setQp n { q with st := .error, unacked := [], msgs := [], closing := none }).disown n
    let s := q.msgs.foldl (fun s m =>
      s.complete m.ladle m.tag (match m.done with
        | some st => st
        | none => if msn = some m.msn then cause else XpSt.qpError) 0 []) s
    let s := match q.closing with
      | some x => s.complete x.1 x.2 XpSt.qpError 0 []
      | none => s
    s.postDom q.flask 0x0601 cause 0xFFF (evData [n, cause.toNat])

/-! ### Sending -/

/-- The pair epoch that a queue pair's packets carry (R389, R393). -/
def State.epoch (s : State) (n : Nat) : Word := if (s.qp n).roce then 0 else s.twin.epoch

/-- A packet is queued on the next path of the round robin (R381). -/
def State.sendPkt (s : State) (n : Nat) (m : XpMsg) (psn offset : Nat) (data : List Byte) : Option (State × Nat) :=
  let q := s.qp n
  match q.nextPath with
  | none => none
  | some p =>
    let ext := match m.kind with
      | .send => []
      | .write k r => beBytes 4 k.toNat ++ beBytes 8 r.toNat
      | .read k r => beBytes 4 k.toNat ++ beBytes 8 r.toNat ++ beBytes 4 (m.len - offset)
    some ((s.setQp n { q with path := p + 1 }).queueOn n p m.kind.type (msgHdr m.notify m.fence psn m.msn m.len offset) (ext ++ data), p)

/-- The bytes of a message from an offset, read from the flask's memory. -/
def State.msgBytes (s : State) (n : Nat) (m : XpMsg) (offset len : Nat) : List Byte × State × HubRes :=
  if m.kind.isRead then ([], s, .ok) else s.hubRead (s.qp n).flask .hub (m.local'.toNat + offset) len

/-- Whether the next packet of a message may be sent now: its message may start, the numbers outstanding, and credit or
window (R374, R378, R383, R384). -/
def Qp.maySend (q : Qp) (i : Nat) (m : XpMsg) (len : Nat) : Bool :=
  (decide (0 < m.sent) || (decide (i < q.window) && (!m.fence || decide (i = 0)))) && decide (q.unacked.length < 1024) &&
    (if q.delay then
      decide ((((q.unacked.map fun p => p.len).sum + len : Nat) : Rat) ≤ q.wnd) || decide (len = 0)
    else decide (q.sentBytes + len ≤ q.grant) || decide (len = 0))

/-- Packets are sent while the queue pair may send; the fuel bounds them. -/
def State.pump (s : State) (n : Nat) : Nat → State
  | 0 => s
  | fuel + 1 =>
    let q := s.qp n
    if (q.st ≠ .active ∧ q.st ≠ .draining) ∨ s.fenced then s
    else match (q.msgs.zipIdx).find? fun x => decide (x.1.sent < x.1.pkts) with
      | none => s
      | some (m, i) =>
        let offset := m.sent * q.mtu
        let len := if m.kind.isRead then 0 else min q.mtu (m.len - offset)
        if !q.maySend i m len || s.readWaits q.flask m.local'.toNat then s
        else match s.msgBytes n m offset len with
          | (bs, s, .ok) =>
            let psn := (m.psn + m.sent) % psnMod
            match s.sendPkt n m psn offset bs with
            | none => s
            | some (s, p) =>
              let s := s.modQp n fun q => { q with
                sentBytes := q.sentBytes + len
                unacked := q.unacked ++ [⟨psn, m.msn, offset, len, p, 0, 0, 0, false⟩]
                msgs := q.msgs.map fun x => if x.msn = m.msn then { x with sent := x.sent + 1 } else x }
              State.pump s n fuel
          | (_, s, r) =>
            State.pump (s.endMsg n m.msn (if r = .uncorrectable then St.uncorrectable else St.accessFault)) n fuel

def pumpFuel : Nat := 2048

/-- The ranges of [0, len) that no listed range covers. -/
def missing (len : Nat) (got : List (Nat × Nat)) : List (Nat × Nat) :=
  let s := got.foldl (fun holes r => holes.flatMap fun h =>
    (if h.1 < r.1 then [(h.1, min h.2 r.1)] else []) ++ (if r.2 < h.2 then [(max h.1 r.2, h.2)] else [])) [(0, len)]
  s.filter fun h => decide (h.1 < h.2)

/-- A packet is sent again; a read asks for what is missing (R377). The count of `RESENT` follows. -/
def State.resendPkt (s : State) (n : Nat) (p : XpPkt) : State :=
  match (s.qp n).msgs.find? fun m => decide (m.msn = p.msn) with
  | none => s
  | some m =>
    let put (s : State) (path : Nat) : State := (s.modQp n fun q =>
      { q with unacked := q.unacked.map fun x => if x.psn = p.psn then { x with path := path } else x }).count Reg.xportResent
    match m.kind with
    | .read k r =>
      (missing m.len m.got).foldl (fun s h =>
        let q := s.qp n
        match q.nextPath with
        | none => s
        | some path =>
          let ext := beBytes 4 k.toNat ++ beBytes 8 r.toNat ++ beBytes 4 (h.2 - h.1)
          put ((s.setQp n { q with path := path + 1 }).queueOn n path 3 (msgHdr m.notify m.fence p.psn m.msn m.len h.1) ext) path) s
    | _ => match s.msgBytes n m p.offset p.len with
      | (bs, s, .ok) => match s.sendPkt n m p.psn p.offset bs with
        | none => s
        | some (s, path) => put s path
      | (_, s, r) => s.endMsg n m.msn (if r = .uncorrectable then St.uncorrectable else St.accessFault)

/-- A resend that counts against the limit (R382); a `SACK` resends a packet once between two of its timeouts. -/
def State.retry (s : State) (n : Nat) (p : XpPkt) (fast : Bool) : State :=
  let q := s.qp n
  if q.retryLimit ≤ p.resends then s.qpFail n XpSt.retryExceeded (some p.msn)
  else
    (s.setQp n { q with unacked := q.unacked.map fun x => if x.psn = p.psn then { x with resends := x.resends + 1, fast := fast } else x }
      ).resendPkt n p

/-! ### Commands (R367–R369) -/

/-- The queue pair that a command names, when the issuing flask holds it. -/
def State.heldQp (s : State) (h : CmdHdr) (qpn : Word) : Option Nat :=
  if qpn.toNat < 262144 ∧ (s.qp qpn.toNat).st ≠ .free ∧ (s.qp qpn.toNat).flask = ladleDom h.ladle then some qpn.toNat else none

def State.onQp (s : State) (h : CmdHdr) (qpn : Word) (body : Nat → State → State) : State :=
  match s.heldQp h qpn with
  | none => s.done h St.notFound
  | some n => body n s

/-- The lowest number from lo on that is no key. -/
def lowestFree (lo : Nat) (keys : List Nat) : Nat := keys.foldl (fun n k => if k = n then n + 1 else n) lo

/-- The QPNs that `QP_CREATE` may choose from (R460). -/
def State.qpnRange (s : State) : Nat × Nat :=
  if s.twin.st = .unpaired then (0, 262144) else if s.twin.roleB then (131072, 262144) else (0, 131072)

/-- QP_CREATE. -/
def execQpCreate (h : CmdHdr) (qpn : Word) (s : State) : Host.Outcome State Fault Refusal :=
  s.command h (.qpCreate h qpn) fun s =>
    let f := hdrFlask h
    let used := s.xport.qps.countP fun e => e.2.flask == flaskDom f
    let any := decide (qpn = 0xFFFFFFFF)
    let n := if any then lowestFree s.qpnRange.1 (Tab.keys s.xport.qps) else qpn.toNat
    if !any ∧ 262144 ≤ qpn.toNat then s.done h St.malformed
    else if (s.flask f).qpQuota ≤ used then s.done h XpSt.noQp
    else if any ∧ s.qpnRange.2 ≤ n then s.done h XpSt.noQp
    else if (s.qp n).st ≠ .free then s.done h XpSt.noQp
    else (s.setQp n { Qp.reset with st := .idle, flask := flaskDom f }).complete h.ladle h.tag St.success 0 (leBytes 4 n)

/-- The ranges of `QP_CONNECT` (R368). -/
def connLegal (p : ConnectP) (resv : Nat) : Bool :=
  decide (p.peerQpn.toNat < 2 ^ 18) && decide (p.srcIp.toNat < 16) && decide (1 ≤ p.paths.toNat ∧ p.paths.toNat ≤ 64) &&
    decide (p.mode.toNat < 4) && decide (8 ≤ p.mtuLog2.toNat ∧ p.mtuLog2.toNat ≤ (if p.mode.getLsbD 1 then 12 else 13)) &&
    decide (p.slotLog2.toNat = 0 ∨ (12 ≤ p.slotLog2.toNat ∧ p.slotLog2.toNat ≤ 30)) && decide (p.retryLimit.toNat ≤ 15) &&
    decide (p.rnrLimit.toNat ≤ 15) && decide (p.rtoUs.toNat = 0 ∨ 10 ≤ p.rtoUs.toNat) && decide (p.window.toNat ≤ 256) &&
    decide (resv = 0)

/-- A queue pair freshly connected. -/
def Qp.connect (q : Qp) (p : ConnectP) : Qp :=
  { Qp.reset with st := .active, flask := q.flask, conn := some p, cc := q.cc, ccNext := q.ccNext
                  grant := q.ccv.initCredit.toNat, wnd := (q.ccv.minWnd.toNat : Nat) }

/-- QP_CONNECT. -/
def execQpConnect (h : CmdHdr) (p : ConnectP) (resv : Nat) (s : State) : Host.Outcome State Fault Refusal :=
  s.command h (.qpConnect h p resv) fun s => s.onQp h p.qpn fun n s =>
    if (s.qp n).st ≠ .idle then s.done h St.wrongState
    else if !connLegal p resv then s.done h St.malformed
    else if p.ports = 0 ∨ !s.mayTx (hdrFlask h) p.ports.toNat then s.done h St.accessFault
    else (s.setQp n ((s.qp n).connect p)).done h St.success

/-- QP_CC_SET: staged until the next acknowledgement (R369). -/
def execQpCcSet (h : CmdHdr) (qpn : Word) (p : CcP) (s : State) : Host.Outcome State Fault Refusal :=
  s.command h (.qpCcSet h qpn p) fun s => s.onQp h qpn fun n s =>
    (s.modQp n fun q => { q with ccNext := some p }).done h St.success

/-- QP_CLOSE (R366). -/
def execQpClose (h : CmdHdr) (qpn : Word) (s : State) : Host.Outcome State Fault Refusal :=
  s.command h (.qpClose h qpn) fun s => s.onQp h qpn fun n s =>
    if (s.qp n).st ≠ .active then s.done h St.wrongState
    else
      let s := s.modQp n fun q => { q with st := .draining, closing := some (h.ladle, h.tag) }
      s.flushMsgs n (s.qp n).msgs

/-- QP_RESET (R366). -/
def execQpReset (h : CmdHdr) (qpn : Word) (s : State) : Host.Outcome State Fault Refusal :=
  s.command h (.qpReset h qpn) fun s => s.onQp h qpn fun n s =>
    if (s.qp n).st ≠ .error then s.done h St.wrongState
    else (s.setQp n { Qp.reset with st := .idle, flask := (s.qp n).flask, cc := (s.qp n).cc }).done h St.success

/-- A queue pair is freed; its messages complete with ABORTED (R366). -/
def State.dropQp (s : State) (n : Nat) : State :=
  let q := s.qp n
  let s := (s.setQp n Qp.reset).disown n
  let s := q.msgs.foldl (fun s m => s.complete m.ladle m.tag (m.done.getD St.aborted) 0 []) s
  match q.closing with
  | some x => s.complete x.1 x.2 St.aborted 0 []
  | none => s

/-- QP_DESTROY. -/
def execQpDestroy (h : CmdHdr) (qpn : Word) (s : State) : Host.Outcome State Fault Refusal :=
  s.command h (.qpDestroy h qpn) fun s => s.onQp h qpn fun n s => (s.dropQp n).done h St.success

/-- The packets of a message of len bytes (R374). -/
def msgPkts (len mtu : Nat) : Nat := max 1 ((len + mtu - 1) / mtu)

/-- A message joins its queue pair (R374, R377). -/
def State.startMsg (s : State) (h : CmdHdr) (i : Instr) (p : XpP) (kind : XpKind) : Answer :=
  s.command h i fun s => s.onQp h p.qpn fun n s =>
    let q := s.qp n
    let okSpace := space p.localAddr.toNat < 3 && decide (p.localAddr.toNat < 2 ^ 48)
    if q.st = .error then s.done h XpSt.qpError
    else if q.st ≠ .active then s.done h St.wrongState
    else if p.length.toNat > 2 ^ 30 then s.done h St.malformed
    else if !okSpace || !inFlask s q.flask p.localAddr.toNat p.length.toNat then s.done h St.accessFault
    else
      let pkts := if kind.isRead then 1 else msgPkts p.length.toNat q.mtu
      let m : XpMsg := ⟨q.nextMsn, kind, p.localAddr.extractLsb' 0 48, p.length.toNat, q.nextPsn, pkts, 0, h.flags.getLsbD 8,
        h.flags.getLsbD 9, h.ladle, h.tag, [], none⟩
      (s.setQp n { q with nextMsn := q.nextMsn + 1, nextPsn := (q.nextPsn + pkts) % psnMod, msgs := q.msgs ++ [m] }).pump n
        pumpFuel

def execXpSend (h : CmdHdr) (p : XpP) (s : State) : Host.Outcome State Fault Refusal := s.startMsg h (.xpSend h p) p .send
def execXpWrite (h : CmdHdr) (p : XpP) (s : State) : Host.Outcome State Fault Refusal :=
  s.startMsg h (.xpWrite h p) p (.write p.key p.remote)
def execXpRead (h : CmdHdr) (p : XpP) (s : State) : Host.Outcome State Fault Refusal :=
  s.startMsg h (.xpRead h p) p (.read p.key p.remote)

/-! ### Acknowledgements (R373, R378, R382–R384) -/

/-- R371: a packet with a wrong version or a zero field that is not zero is dropped and counted. -/
def XpHdr_ok (h : XpHdr) : Bool := decide (h.version = 1) && h.zeroOk

/-- The pair-epoch check (R389): none where the packet is older. -/
def State.checkEpoch (s : State) (n : Nat) (epoch : Word) : Option State :=
  let q := s.qp n
  match q.conn with
  | none => some s
  | some c =>
    if q.roce ∨ epoch = c.peerEpoch then some s
    else if serialOlder epoch c.peerEpoch then none
    else some ((s.setQp n { q with conn := some { c with peerEpoch := epoch } }).postDom q.flask 0x0605 St.success 0xFFF
      (evData [n, c.peerEpoch.toNat, epoch.toNat]))

/-- Whether an acknowledgement covers a PSN. -/
def XpAck_covers (a : XpAck) (psn : Nat) : Bool :=
  let d := psnDiff psn a.cumPsn.toNat
  decide (2 ^ 23 ≤ d) || (decide (1 ≤ d ∧ d ≤ 64) && a.sack.getLsbD (d - 1))

/-! ### Answers of the receiver (R373, R383) -/

/-- What the receiver grants ahead of what it has received, by the fill of the port's reorder buffer. -/
def State.grantAhead (s : State) (port : Port) (q : Qp) : Nat :=
  let w := q.ccv.recvWindow.toNat
  let fill := (s.port port).fill
  if 2 * fill < reorderBytes then w else if 4 * fill ≤ 3 * reorderBytes then w / 4 else 0

/-- `SACK` of a receiver. -/
def Qp.sack (q : Qp) : BitVec 64 :=
  q.seen.foldl (fun m p =>
    let d := psnDiff p q.cum
    if 1 ≤ d ∧ d ≤ 64 then m ||| BitVec.ofNat 64 (2 ^ (d - 1)) else m) 0

/-- An ACK, or a NAK, answers a packet, on the port that it came by; it echoes the packet's path, numbers and time. -/
def State.answer (s : State) (port : Option Port) (hdr : XpHdr) (nak : Option NakCode) : State :=
  let n := hdr.destQpn.toNat
  let q := s.qp n
  let g := match port with
    | none => q.granted
    | some x => if q.delay then q.granted else max q.granted (q.rxBytes + s.grantAhead x q)
  let s := if q.st = .free then s else s.setQp n { q with granted := g }
  let s := if nak.isSome then s.count Reg.xportNakSent else s
  let p := q.nextPath.getD 0
  let ext := beBytes 4 q.cum ++ beBytes 8 q.sack.toNat ++ beBytes 8 g ++ beBytes 4 q.msnDone.toNat ++ match nak with
    | none => []
    | some c => [nakByte c, 0, 0, 0]
  if s.fenced then s
  else s.queuePkt n (port.getD (BitVec.ofNat 3 (q.pathPort p))) (q.pathEntropy p) (if nak.isSome then 6 else 5)
    ⟨1, true, false, false, false, hdr.path, 0, 0, hdr.psn, hdr.msn, 0, 0, hdr.ts⟩ ext

/-- A packet of an older epoch is counted and refused (R389). -/
def State.refuseEpoch (s : State) (port : Option Port) (hdr : XpHdr) : State :=
  (s.count Reg.xportRxStaleEpoch).answer port hdr (some .fenced)

/-- The window update of R384; rtt and the target in nanoseconds. -/
def Qp.onDelayAck (q : Qp) (rttNs acked : Nat) (cutDue : Bool) : Qp :=
  let c := q.ccv
  let rtt : Rat := rttNs
  let target : Rat := c.targetUs.toNat * 1000
  let w : Rat :=
    if rtt ≤ target then (if q.wnd = 0 then 0 else q.wnd + c.aiBytes.toNat * acked / q.wnd)
    else if cutDue then q.wnd * (1 - c.beta.toNat / 256 * (rtt - target) / rtt)
    else q.wnd
  { q with wnd := min (max w c.minWnd.toNat) c.maxWnd.toNat, srtt := q.srtt + (rtt - q.srtt) / 8 }

/-- Messages that an acknowledgement completes: a SEND when `MSN_DONE` passes it, a WRITE when all its PSNs are
acknowledged (R376, R377). -/
def Qp.ackMsgs (q : Qp) (a : XpAck) : Qp :=
  { q with msgs := q.msgs.map fun m =>
      if m.done.isSome ∨ m.sent < m.pkts then m
      else match m.kind with
        | .send => if serialOlder m.msn a.msnDone then { m with done := some St.success } else m
        | .write .. => if q.unacked.any fun p => decide (p.msn = m.msn) then m else { m with done := some St.success }
        | .read .. => m }

/-- What every acknowledgement, alone or in a NAK, does. -/
def State.takeAck (s : State) (n : Nat) (hdr : XpHdr) (a : XpAck) : State × Nat :=
  let q := s.qp n
  let q := match q.ccNext with
    | some c => { q with cc := some c, ccNext := none }
    | none => q
  let isRead (msn : Word) : Bool := q.msgs.any fun m => decide (m.msn = msn) && m.kind.isRead && m.done.isNone
  let gone := q.unacked.filter fun p => XpAck_covers a p.psn && !isRead p.msn
  let q := { q with
    unacked := q.unacked.filter fun p => !(XpAck_covers a p.psn && !isRead p.msn)
    lost := q.lost.filter fun x => !(gone.any fun p => decide (p.path = x.1))
    grant := max q.grant a.grant.toNat }
  let restored := q.probed.contains hdr.path.toNat
  let q := if restored then { q with failed := q.failed.filter (· ≠ hdr.path.toNat), probed := q.probed.filter (· ≠ hdr.path.toNat)
                                     lost := q.lost.filter fun x => decide (x.1 ≠ hdr.path.toNat) } else q
  let s := s.setQp n (q.ackMsgs a)
  let s := if restored then s.postDom q.flask 0x0603 St.success 0xFFF
    (evData [n, q.pathPort hdr.path.toNat, q.pathEntropy hdr.path.toNat]) else s
  (s, (gone.map fun p => p.len).sum)

/-- XP_RX_ACK. -/
def execXpRxAck (hdr : XpHdr) (ack : XpAck) (rttNs : Nat) (cutDue : Bool) (s : State) :
    Host.Outcome State Fault Refusal :=
  let n := hdr.destQpn.toNat
  if !s.phase.serves || s.fenced then .next s
  else if !XpHdr_ok hdr then .next (s.count Reg.xportRxMalformed)
  else if (s.qp n).st ≠ .active ∧ (s.qp n).st ≠ .draining then .next s
  else match s.checkEpoch n hdr.epoch with
    | none => .next (s.refuseEpoch none hdr)
    | some s =>
      let x := s.takeAck n hdr ack
      let s := if (x.1.qp n).delay then x.1.modQp n fun q => q.onDelayAck rttNs x.2 cutDue else x.1
      let q := s.qp n
      let higher (p : XpPkt) : Nat := (List.range 64).countP fun i =>
        ack.sack.getLsbD i && decide (psnDiff p.psn ack.cumPsn.toNat < i + 1)
      let s := if q.roce then s
        else (q.unacked.filter fun p => !p.fast && decide (3 ≤ higher p)).foldl (fun s p => s.retry n p true) s
      let s := s.flushMsgs n (s.qp n).msgs
      .next (s.pump n pumpFuel)

/-- XP_RX_NAK (R380). -/
def execXpRxNak (hdr : XpHdr) (ack : XpAck) (code : NakCode) (s : State) : Host.Outcome State Fault Refusal :=
  let n := hdr.destQpn.toNat
  if !s.phase.serves || s.fenced then .next s
  else if !XpHdr_ok hdr then .next (s.count Reg.xportRxMalformed)
  else if (s.qp n).st ≠ .active ∧ (s.qp n).st ≠ .draining then .next s
  else
    let fresh := if code = .fenced then some s else s.checkEpoch n hdr.epoch
    match fresh with
    | none => .next (s.refuseEpoch none hdr)
    | some s =>
      let s := ((s.count Reg.xportNakRecv).takeAck n hdr ack).1
      let s := s.flushMsgs n (s.qp n).msgs
      let q := s.qp n
      let pkt := q.unacked.find? fun p => decide (p.psn = hdr.psn.toNat)
      let upd (f : XpPkt → XpPkt) : State :=
        s.setQp n { q with unacked := q.unacked.map fun p => if p.psn = hdr.psn.toNat then f p else p }
      match code with
      | .seq => .next ((q.unacked.foldl (fun s p => s.resendPkt n p) s).pump n pumpFuel)
      | .rnr => match pkt with
        | none => .next s
        | some p => if q.rnrLimit ≤ p.rnr then .next (s.qpFail n XpSt.rnrExceeded (some p.msn))
          else .next (upd fun p => { p with rnr := p.rnr + 1 })
      | .access => .next (s.qpFail n XpSt.remoteAccess (some hdr.msn))
      | .revoked => .next ((s.endMsg n hdr.msn St.revoked).pump n pumpFuel)
      | .pageFault => match pkt with
        | none => .next s
        | some p => if 64 ≤ p.fault then .next ((s.endMsg n p.msn XpSt.faultExceeded).pump n pumpFuel)
          else .next (upd fun p => { p with fault := p.fault + 1 })
      | .fenced =>
        let old := (q.conn.map fun c => c.peerEpoch.toNat).getD 0
        .next ((s.qpFail n St.fenced (some hdr.msn)).postDom q.flask 0x0605 St.success 0xFFF (evData [n, old, hdr.epoch.toNat]))
      | .qpError => .next (s.qpFail n XpSt.qpError (some hdr.msn))
      | .uncorrectable => .next ((s.endMsg n hdr.msn St.uncorrectable).pump n pumpFuel)

/-! ### Timers of the sender (R380–R383) -/

/-- A path fails (R381). -/
def State.failPath (s : State) (n p : Nat) : State :=
  let q := s.qp n
  if q.failed.contains p then s
  else (s.setQp n { q with failed := q.failed ++ [p] }).postDom q.flask 0x0602 St.success 0xFFF
    (evData [n, q.pathPort p, q.pathEntropy p])

/-- A timeout on a path; the third in a row fails it. -/
def State.lostOn (s : State) (n p : Nat) : State :=
  let q := s.qp n
  let k := ((q.lost.find? fun x => decide (x.1 = p)).map (·.2)).getD 0 + 1
  let s := s.setQp n { q with lost := (q.lost.filter fun x => decide (x.1 ≠ p)) ++ [(p, k)] }
  if 3 ≤ k then s.failPath n p else s

def State.unackedPkt (s : State) (n psn : Nat) : Option XpPkt := (s.qp n).unacked.find? fun p => decide (p.psn = psn)

/-- Whether a packet waits to be sent: its timeout runs from its sending (R382). -/
def State.queued (s : State) (n psn : Nat) : Bool :=
  s.net.xq.any fun x => decide (x.qpn = n) && x.isData && decide (x.hdr.psn.toNat = psn)

/-- XP_RETRANSMIT_TIMEOUT. RoCE v2 goes back to the packet and resends all from it on. -/
def execXpRetransmitTimeout (qpn : BitVec 18) (psn : BitVec 24) (s : State) : Host.Outcome State Fault Refusal :=
  let n := qpn.toNat
  match s.unackedPkt n psn.toNat with
  | none => .next s
  | some p =>
    if s.fenced || s.queued n psn.toNat then .next s
    else
      let s := (s.lostOn n p.path).retry n p false
      let later := if (s.qp n).roce then (s.qp n).unacked.filter fun x => decide (0 < psnDiff x.psn p.psn ∧ psnDiff x.psn p.psn < 2 ^ 23)
        else []
      .next (later.foldl (fun s x => s.resendPkt n x) s)

/-- XP_RNR_RESEND. -/
def execXpRnrResend (qpn : BitVec 18) (psn : BitVec 24) (s : State) : Host.Outcome State Fault Refusal :=
  match s.unackedPkt qpn.toNat psn.toNat with
  | none => .next s
  | some p => if p.rnr = 0 ∨ s.fenced then .next s else .next (s.resendPkt qpn.toNat p)

/-- XP_FAULT_RESEND. -/
def execXpFaultResend (qpn : BitVec 18) (psn : BitVec 24) (s : State) : Host.Outcome State Fault Refusal :=
  match s.unackedPkt qpn.toNat psn.toNat with
  | none => .next s
  | some p => if p.fault = 0 ∨ s.fenced then .next s else .next (s.resendPkt qpn.toNat p)

/-- A PROBE is queued on a path. -/
def State.probe (s : State) (n p : Nat) : State :=
  s.queueOn n p 7 (msgHdr false false (s.qp n).nextPsn (s.qp n).nextMsn 0 0) []

/-- XP_PATH_PROBE (R381). -/
def execXpPathProbe (qpn : BitVec 18) (path : BitVec 16) (s : State) : Host.Outcome State Fault Refusal :=
  let q := s.qp qpn.toNat
  if !q.failed.contains path.toNat || s.fenced then .next s
  else .next ((s.setQp qpn.toNat { q with probed := q.probed ++ [path.toNat] }).probe qpn.toNat path.toNat)

/-- XP_GRANT_PROBE (R383). -/
def execXpGrantProbe (qpn : BitVec 18) (s : State) : Host.Outcome State Fault Refusal :=
  let n := qpn.toNat
  let q := s.qp n
  let waits := (q.msgs.zipIdx).any fun x => decide (x.1.sent < x.1.pkts) && !x.1.kind.isRead &&
    decide (q.grant < q.sentBytes + min q.mtu (x.1.len - x.1.sent * q.mtu))
  if q.delay || !waits || s.fenced || decide (q.st ≠ .active ∧ q.st ≠ .draining) then .next s
  else match q.nextPath with
    | none => .next s
    | some p => .next ((s.setQp n { q with path := p + 1 }).probe n p)

/-- XP_RX_CNP (R393): an rtt above target; whether a cut is due is free. -/
def execXpRxCnp (qpn : BitVec 18) (rttNs : Nat) (s : State) : Host.Outcome State Fault Refusal :=
  let q := s.qp qpn.toNat
  if !q.roce ∨ (q.st ≠ .active ∧ q.st ≠ .draining) then .next s
  else .next (s.took.setQp qpn.toNat (q.onDelayAck (max rttNs (q.ccv.targetUs.toNat * 1000 + 1)) 0 s.freeBit))

/-! ### Ports (R359–R362, R381, R391, R392) -/

/-- A queue pair's number in the round robin, after those of the ladles. -/
def qpQueueNo (n : Nat) : Nat := 4097 + n

/-- The heads of the transmit queues of a port that may start, with their queues' numbers (R360). -/
def State.txHeads (s : State) (port : Port) : List (Nat × (TxFrame ⊕ XpOut)) :=
  let fs := s.net.tx.filter fun t => t.port == port
  let xs := s.net.xq.filter fun x => x.port == port
  ((fs.filter fun t => decide (fs.find? (fun u => u.ladle == t.ladle) = some t) && s.eligible t).map fun t => (queueNo t.ladle, .inl t)) ++
    (xs.filter fun x => decide (xs.find? (fun y => decide (y.qpn = x.qpn)) = some x) && !(s.port port).paused.getLsbD x.pcp.toNat).map
      fun x => (qpQueueNo x.qpn, .inr x)

/-- Of the heads that may start, the one whose turn it is. -/
def State.nextTx (s : State) (port : Port) : Option (Nat × (TxFrame ⊕ XpOut)) :=
  let heads := s.txHeads port
  let after := heads.filter fun t => decide ((s.port port).turn < t.1)
  (if after.isEmpty then heads else after).foldl (fun b t => match b with
    | none => some t
    | some u => if t.1 < u.1 then some t else some u) none

/-- The queue pairs of a port go on sending what they may send now (R392). -/
def State.pumpPort (s : State) (port : Port) : State :=
  (s.xport.qps.filter fun e => e.2.ports.contains port.toNat).foldl (fun s e => s.pump e.1 pumpFuel) s

/-- A packet leaves, stamped with its sender's epoch and time; whether it asks for an acknowledgement is open (R371, R389). -/
def State.leave (s : State) (x : XpOut) : State :=
  (s.took.tick 8).emit (.packet { x with hdr := { x.hdr with
    epoch := s.epoch x.qpn, ackReq := s.freeBit, ts := if x.isAck then x.hdr.ts else (s.took.refNow 8).setWidth 32 } })

/-- FRAME_TRANSMIT_COMPLETE: the frame whose turn it is has left the port (R359–R361). -/
def execFrameTransmitComplete (port : Port) (s : State) : Host.Outcome State Fault Refusal :=
  if !(s.port port).up || s.fenced then .next s
  else
    let s := s.pumpPort port
    let sent (s : State) (no : Nat) : State := (s.setPort port { s.port port with turn := no }).count (portReg Reg.netPnTxOk port)
    match s.nextTx port with
    | none => .next s
    | some (no, .inl t) =>
      let s := match t.shaper with
        | none => s
        | some i =>
          let x := s.shaper i
          s.setShaper i { x with credit := x.credit - 8 * (t.bytes.length + 4 + x.ovh : Nat) }
      let s := { s with net := { s.net with tx := s.net.tx.erase t } }
      .next (((sent s no).emit (.frame port t.bytes)).complete t.ladle t.tag St.success 0 [])
    | some (no, .inr x) => .next ((sent { s with net := { s.net with xq := s.net.xq.erase x } } no).leave x)

/-- A packet queued for a port whose link has gone down is sent on another path (R392). -/
def State.repath (s : State) (x : XpOut) : State :=
  let n := x.qpn
  let q := s.qp n
  match q.nextPath with
  | none => s
  | some p =>
    let s := s.setQp n { q with path := p + 1 }
    let y := { x with port := BitVec.ofNat 3 (q.pathPort p), srcPort := BitVec.ofNat 16 (49152 + (n * 64 + q.pathEntropy p) % 16384)
                      hdr := if x.isAck then x.hdr else { x.hdr with path := BitVec.ofNat 16 p } }
    let s := { s with net := { s.net with xq := s.net.xq ++ [y] } }
    if x.isData then (s.modQp n fun q => { q with unacked := q.unacked.map fun u =>
      if u.psn = x.hdr.psn.toNat then { u with path := p } else u }).count Reg.xportResent
    else s

/-- PORT_LINK_CHANGE; a port with a failed lane does not come up (R508). -/
def execPortLinkChange (port : Port) (up : Bool) (lanes : Byte) (s : State) : Host.Outcome State Fault Refusal :=
  let x := s.port port
  if !s.phase.serves || (up && s.laneBad port.toNat) then .next s
  else
    let s := s.setPort port { x with up := up, lanes := lanes, paused := if up then x.paused else 0 }
    let ev := evData [port.toNat, if up then 1 else 0]
    let s := s.postOwner 0x0501 St.success 0xFFF ev
    let s := (s.liveFlasks.filter fun f => s.mayTx f (2 ^ port.toNat)).foldl (fun s f => s.postFlask f 0x0501 St.success 0xFFF ev) s
    if up then .next s
    else
      let s := s.failDown port
      let users := s.xport.qps.filter fun e => e.2.ports.contains port.toNat
      let s := users.foldl (fun s e =>
        ((List.range e.2.nPaths).filter fun p => decide (e.2.pathPort p = port.toNat)).foldl (fun s p => s.failPath e.1 p) s) s
      let moved := s.net.xq.filter fun x => x.port == port
      let s := moved.foldl (fun s x => s.repath x) (s.unqueue fun x => x.port == port)
      .next ((s.liveFlasks.filter fun f => users.any fun e => e.2.flask == flaskDom f).foldl
        (fun s f => s.postFlask f 0x0606 St.success 0xFFF (evData [port.toNat])) s)

end Sys2Proof.Machine
end

