-- ==== Sys2Proof/Machine/TransportRx.lean ====
section
/-!
DEFINITION. The receiver of the transport: its checks, placements, registrations and paging (spec/12_remote_memory.md,
R370, R375–R379, R385–R389, R392, R393).
-/

namespace Sys2Proof.Machine

/-! ### Registrations (R370, R387) -/

def State.mr (s : State) (i : Nat) : Option Mr := Tab.get none s.xport.mrs i
def State.setMr (s : State) (i : Nat) (m : Option Mr) : State :=
  { s with xport := { s.xport with mrs := Tab.put none s.xport.mrs i m } }
/-- How often an index has been freed; its generation is this modulo 256. -/
def State.mrFreed (s : State) (i : Nat) : Nat := Tab.get 0 s.xport.mrUsed i

/-- The key of a registration (R370). -/
def State.mrKey (s : State) (i : Nat) : Word := BitVec.ofNat 32 (i + s.mrFreed i % 256 * 2 ^ 20)

/-- What a key names. -/
inductive KeyFind where
  | live (i : Nat) (m : Mr)
  | gone
  | never
  deriving DecidableEq, Repr

/-- A key is looked up: one that is revoking or superseded is gone; one that no registration has had was never. -/
def State.findKey (s : State) (key : Word) : KeyFind :=
  let i := key.toNat % 2 ^ 20
  let gen := key.toNat / 2 ^ 20 % 256
  let used := s.mrFreed i
  if 2 ^ 28 ≤ key.toNat then .never
  else match s.mr i with
    | some m =>
      if gen = used % 256 then (if m.revoking then .gone else .live i m)
      else if gen < used then .gone else .never
    | none => if gen < used then .gone else .never

/-- A registration that a flask's command names (R367). -/
def State.heldMr (s : State) (f : FlaskId) (key : Word) : Option (Nat × Mr) :=
  let i := key.toNat % 2 ^ 20
  match s.mr i with
  | some m => if m.flask = f ∧ s.mrKey i = key then some (i, m) else none
  | none => none

/-- A registration being revoked is freed once nothing past the check uses it. -/
def State.finishRevoke (s : State) (i : Nat) : State :=
  match s.mr i with
  | none => s
  | some m =>
    if !m.revoking || s.xport.places.any fun p => decide (p.key = some i) then s
    else
      let s := s.setMr i none
      let s := { s with xport := { s.xport with mrUsed := Tab.put 0 s.xport.mrUsed i (s.mrFreed i + 1) } }
      let s := m.clearing.foldl (fun s c => s.complete c.1 c.2.1 St.revoked 0 []) s
      m.asked.foldl (fun s a => s.complete a.1 a.2 St.success 0 []) s

/-- `MR_PAGES` with `PRESENT` 0 completes once no packet past check 6 uses its pages (R388). -/
def State.finishClears (s : State) (i : Nat) : State :=
  match s.mr i with
  | none => s
  | some m =>
    let busy (c : LadleRef × Word × Nat × Nat) : Bool := s.xport.places.any fun p =>
      decide (p.key = some i) && p.pages.any fun g => decide (c.2.2.1 ≤ g ∧ g < c.2.2.1 + c.2.2.2)
    let s := s.setMr i (some { m with clearing := m.clearing.filter busy })
    (m.clearing.filter fun c => !busy c).foldl (fun s c => s.complete c.1 c.2.1 St.success 0 []) s

/-- Whether bytes at a flask address lie in the flask's maps, or in its outbound entries. -/
def State.reachable (s : State) (dom : Domain) (a n : Nat) : Bool :=
  if space a = 5 then s.outCovers dom a n else inFlask s dom a n

/-- MR_REGISTER. -/
def execMrRegister (h : CmdHdr) (p : MrP) (s : State) : Host.Outcome State Fault Refusal :=
  s.command h (.mrRegister h p) fun s =>
    let f := hdrFlask h
    let a := p.base.toNat
    let n := p.length.toNat
    let legal := decide (a < 2 ^ 48) && [1, 2, 5].contains (space a) && decide (a % 64 = 0) && decide (n % 64 = 0) &&
      decide (64 ≤ n ∧ n ≤ 2 ^ 40) && decide (p.perm.toNat < 16) && decide (p.resv = 0) &&
      decide (p.stallUs.toNat = 0 ∨ (10 ≤ p.stallUs.toNat ∧ p.stallUs.toNat ≤ 10000))
    let i := lowestFree 0 (Tab.keys s.xport.mrs)
    let used := s.xport.mrs.countP fun e => match e.2 with
      | some m => m.flask == f
      | none => false
    if !legal then s.done h St.malformed
    else if p.qpn ≠ 0xFFFFFFFF ∧ (s.heldQp h p.qpn).isNone then s.done h St.notFound
    else if !s.reachable (flaskDom f) a n then s.done h St.accessFault
    else if (s.flask f).mrQuota ≤ used ∨ 1048576 ≤ i then s.done h XpSt.noMr
    else
      let m : Mr := ⟨f, p.base.extractLsb' 0 48, n, if p.qpn = 0xFFFFFFFF then none else some p.qpn.toNat, p.perm.getLsbD 0,
        p.perm.getLsbD 1, p.perm.getLsbD 2, p.perm.getLsbD 3, orDefault p.stallUs.toNat 1000, [], [], false, [], []⟩
      (s.setMr i (some m)).complete h.ladle h.tag St.success 0 (leBytes 4 (s.mrKey i).toNat)

/-- A registration is marked revoking; its stalled packets are refused (R387, R392). -/
def State.revokeMr (s : State) (i : Nat) (asked : List (LadleRef × Word)) : State :=
  match s.mr i with
  | none => s
  | some m =>
    let s := s.setMr i (some { m with revoking := true, asked := m.asked ++ asked })
    let mine := s.xport.stalled.filter fun x => decide (x.p.key = some i)
    let s := { s with xport := { s.xport with stalled := s.xport.stalled.filter fun x => decide (x.p.key ≠ some i) } }
    let s := mine.foldl (fun s x => s.answer (some x.p.port) x.p.hdr (some .revoked)) s
    s.finishRevoke i

/-- MR_REVOKE. -/
def execMrRevoke (h : CmdHdr) (key : Word) (s : State) : Host.Outcome State Fault Refusal :=
  s.command h (.mrRevoke h key) fun s =>
    match s.heldMr (hdrFlask h) key with
    | none => s.done h St.notFound
    | some (i, _) => s.revokeMr i [(h.ladle, h.tag)]

/-! ### What has been received (R373, R375) -/

/-- PSNs of a queue pair past the checks whose placement has not retired. -/
def State.inFlight (s : State) (n : Nat) : List Nat :=
  ((s.xport.places.filter fun p => p.live && decide (p.qpn = n)).map fun p => p.hdr.psn.toNat) ++
    (s.xport.stalled.filter fun x => decide (x.p.qpn = n)).map fun x => x.p.hdr.psn.toNat

/-- The first PSN from p on that is not listed. -/
def firstMissing (xs : List Nat) (p : Nat) : Nat → Nat
  | 0 => p
  | k + 1 => if xs.contains p then firstMissing xs ((p + 1) % psnMod) k else p

/-- PSNs become received: `CUM_PSN` moves to the first that is missing. -/
def Qp.receive (q : Qp) (psns : List Nat) : Qp :=
  let new := psns.filter fun p => decide (psnDiff p q.cum < 2 ^ 23) && !q.seen.contains p
  let seen := q.seen ++ new
  let cum := firstMissing seen q.cum (seen.length + 1)
  { q with cum := cum, seen := seen.filter fun p => decide (psnDiff p cum < 2 ^ 23) }

/-- A message is released: `MSN_DONE` moves on, its slot is free (R376). -/
def Qp.release (q : Qp) (msn : Word) : Qp :=
  let r := if q.released.contains msn then q.released else q.released ++ [msn]
  let d := advance r q.msnDone (r.length + 1)
  { q with released := r.filter fun m => m == d || serialOlder d m, msnDone := d
           slots := q.slots.filter fun x => decide (x.2 ≠ msn) }
where
  /-- The first message from d on that has not been released. -/
  advance (r : List Word) (d : Word) : Nat → Word
    | 0 => d
    | k + 1 => if r.contains d then advance r (d + 1) k else d

/-- The PSNs of the message that a packet belongs to. -/
def Qp.msgPsns (q : Qp) (hdr : XpHdr) (isRead : Bool) : List Nat :=
  if isRead then [hdr.psn.toNat]
  else
    let first := (hdr.psn.toNat + psnMod - hdr.offset.toNat / q.mtu % psnMod) % psnMod
    (List.range (msgPkts hdr.msgLen.toNat q.mtu)).map fun k => (first + k) % psnMod

/-- A message ends at its receiver without a token: its PSNs count as received, and it is released (R380). -/
def State.endRx (s : State) (hdr : XpHdr) (isRead : Bool) : State :=
  let n := hdr.destQpn.toNat
  (s.landEnd (.msg n hdr.msn)).modQp n fun q =>
    let m : RxMsg := ⟨hdr.msn, hdr.msgLen.toNat, 0, false, false, none, none, none, true, []⟩
    let rx := if q.rx.any fun r => decide (r.msn = hdr.msn) then q.rx.map fun r => if r.msn = hdr.msn then { r with ended := true } else r
      else q.rx ++ [m]
    ({ q with rx := rx }.receive (q.msgPsns hdr isRead)).release hdr.msn

/-- A packet is answered with NAK `PAGE_FAULT`; after 64 resends its message has ended (R380). RoCE v2 answers with RNR
(R393). -/
def State.pageNak (s : State) (port : Port) (hdr : XpHdr) (isRead : Bool) : State :=
  let n := hdr.destQpn.toNat
  let q := s.qp n
  if q.roce then s.answer (some port) hdr (some .rnr)
  else
    let p := hdr.psn.toNat
    let m := (q.rx.find? fun r => decide (r.msn = hdr.msn)).getD ⟨hdr.msn, hdr.msgLen.toNat, 0, false, hdr.notify, none, none, none, false, []⟩
    let k := ((m.faults.find? fun x => decide (x.1 = p)).map (·.2)).getD 0 + 1
    let m := { m with faults := (m.faults.filter fun x => decide (x.1 ≠ p)) ++ [(p, k)] }
    let s := s.setQp n { q with rx := (q.rx.filter fun r => decide (r.msn ≠ hdr.msn)) ++ [m] }
    (if 64 < k then s.endRx hdr isRead else s).answer (some port) hdr (some .pageFault)

/-! ### Checks (R379) -/

/-- Check 1: a queue pair that receives; a flask that is leaving takes only messages already begun (R392). -/
def State.receives (s : State) (hdr : XpHdr) : Bool :=
  let q := s.qp hdr.destQpn.toNat
  let fl := s.flask (BitVec.ofNat 8 q.flask.toNat)
  (decide (q.st = .active) || decide (q.st = .draining)) &&
    (!fl.st.leaving || (q.rx.any fun r => decide (r.msn = hdr.msn) && !r.ended))

/-- What a packet asks to be placed, or read. -/
structure Target where
  addr : Nat
  key : Option Nat
  pages : List Nat
  deriving DecidableEq, Repr

/-- Check 4. -/
def State.checkKey (s : State) (n : Nat) (key : Word) (write : Bool) (off len : Nat) : Except NakCode Target :=
  match s.findKey key with
  | .never => .error .access
  | .gone => .error .revoked
  | .live i m =>
    let ok := decide (flaskDom m.flask = (s.qp n).flask) && (m.qpn.isNone || decide (m.qpn = some n)) &&
      (if write then m.write else m.read) && decide (off + len ≤ m.len)
    if !ok then .error .access
    else
      let pages := if m.paged && decide (0 < len) then
          (List.range ((off + len - 1) / 65536 - off / 65536 + 1)).map (· + off / 65536) else []
      .ok ⟨m.base.toNat + off, some i, pages⟩

/-- The binding of a queue pair (R49, R376). -/
def State.qpFeed (s : State) (n : Nat) : Option FeedRec :=
  let q := s.qp n
  s.feedFor (BitVec.ofNat 8 q.flask.toNat) [if q.roce then 2 else 1] n

/-- Check 5: the slot of a SEND, or how it is refused; the message's first packet placed decides the binding (R62, R376). -/
def State.checkSlot (s : State) (hdr : XpHdr) : Except NakCode (Target × FeedRec × Nat) :=
  let n := hdr.destQpn.toNat
  let q := s.qp n
  let m := q.rx.find? fun r => decide (r.msn = hdr.msn) && r.slot.isSome
  let feed := match m with
    | some r => r.feed
    | none => s.qpFeed n
  match feed with
  | none => .error .access
  | some r =>
    let log2 := match q.conn with
      | some c => c.slotLog2.toNat
      | none => 0
    let wrap := r.flags.getLsbD 0 && decide (log2 ≠ 0)
    let size := if wrap then 2 ^ log2 else r.targetBytes.toNat
    let slots := if wrap then r.targetBytes.toNat / size else 1
    if r.mode.toNat = 1 ∨ slots = 0 ∨ (log2 ≠ 0 ∧ r.targetBytes.toNat < 2 ^ log2) ∨ size < hdr.msgLen.toNat then .error .access
    else
      let slot := hdr.msn.toNat % slots
      let busy := q.slots.any fun x => decide (x.1 = slot) && decide (x.2 ≠ hdr.msn)
      if busy || decide (64 ≤ s.heldTokens (BitVec.ofNat 8 q.flask.toNat) r.no) then .error .rnr
      else .ok (⟨r.target.toNat + slot * size + hdr.offset.toNat, none, []⟩, r, slot)

/-- A packet's absent pages are reported: a page's first fault, and later ones at most once per 100 µs (R386). -/
def State.reportFaults (s : State) (n i : Nat) (pages : List Nat) (stall : Bool) : State :=
  pages.foldl (fun s g => match s.mr i with
    | none => s
    | some m =>
      if m.faulted.contains g && !s.freeBit then s.took
      else ((s.took.setMr i (some { m with faulted := if m.faulted.contains g then m.faulted else m.faulted ++ [g] })).postDom
        (s.qp n).flask 0x0604 St.success 0xFFF (evData [(s.mrKey i).toNat, g, n, if stall then 0 else 1]))) s

def faultBufBytes : Nat := 16 * 2 ^ 20
def State.faultBufUsed (s : State) : Nat := (s.xport.stalled.map fun x => x.p.payload.length).sum

/-- Check 6 fails: the packet is stalled, or answered (R386, R393). -/
def State.pageFault (s : State) (p : Placement) (i : Nat) (m : Mr) : State :=
  let isRead := p.readLen.isSome
  let stall := (s.qp p.qpn).roce || !m.resend
  let s := s.reportFaults p.qpn i (p.pages.filter fun g => !m.present.contains g) stall
  if !stall then s.pageNak p.port p.hdr isRead
  else if s.faultBufUsed + p.payload.length > faultBufBytes then
    let s := if s.freeBit then s.took.postOwner 0x0607 St.success 0xFFF [] else s.took
    s.pageNak p.port p.hdr isRead
  else ({ s with xport := { s.xport with stalled := s.xport.stalled ++ [Stalled.mk p] } }).count Reg.xportFaultStall

/-- A read request leaves for the host, for a range in space 0x5. -/
def State.place (s : State) (p : Placement) : State :=
  let a := (p.addr.getD 0).toNat
  if space a = 5 then
    let s := { s with xport := { s.xport with places := s.xport.places ++ [{ p with waits := 1 }] } }
    s.askHost (.place p.qpn p.hdr.psn.toNat) p.dom a (p.readLen.getD p.payload.length) (if p.readLen.isSome then none else some p.payload)
  else { s with xport := { s.xport with places := s.xport.places ++ [p] } }

/-- Checks 6 and 7, then the placement begins. -/
def State.placeChecked (s : State) (p : Placement) (r : Option FeedRec) (slot : Option Nat) : State :=
  let f : FlaskId := BitVec.ofNat 8 p.dom.toNat
  let a := (p.addr.getD 0).toNat
  let n := p.readLen.getD p.payload.length
  let go (s : State) : State :=
    if decide (0 < n) && !s.reachable p.dom a n then
      let b := match r with
        | some r => r.no.toNat
        | none => 0xFFF
      (s.postFlask f 0x010A St.accessFault 0xFFF (evData [b, p.hdr.msn.toNat])).answer (some p.port) p.hdr (some .access)
    else
      let s := s.modQp p.qpn fun q =>
        let busy := match slot with
          | some k => if q.slots.any fun x => decide (x.1 = k) then q.slots else q.slots ++ [(k, p.hdr.msn)]
          | none => q.slots
        let m := (q.rx.find? fun x => decide (x.msn = p.hdr.msn)).getD
          ⟨p.hdr.msn, p.hdr.msgLen.toNat, 0, slot.isSome, p.hdr.notify, none, none, none, false, []⟩
        let m := if slot.isSome ∧ m.slot.isNone then { m with slot := slot, feed := r, next := r.bind (s.nextFeed f), send := true }
          else if !m.send && m.notify && m.feed.isNone then { m with feed := s.qpFeed p.qpn } else m
        { q with slots := busy, rx := if p.readLen.isSome then q.rx else (q.rx.filter fun x => decide (x.msn ≠ p.hdr.msn)) ++ [m] }
      s.place p
  match p.key with
  | none => go s
  | some i => match s.mr i with
    | none => go s
    | some m => if p.pages.all fun g => m.present.contains g then go s else s.pageFault p i m

/-- Checks 1 to 3; the rest goes on with a packet that is new. A READ_REQ whose PSN has been received, and which is no
longer being read, is served again: its requester is missing what it asks for (R377). -/
def State.checkRx (s : State) (port : Port) (hdr : XpHdr) (again : Bool) (body : State → State) : State :=
  let n := hdr.destQpn.toNat
  if !s.phase.serves || s.fenced then s
  else if !XpHdr_ok hdr then s.count Reg.xportRxMalformed
  else if !s.receives hdr then s.answer (some port) hdr (some .qpError)
  else match s.checkEpoch n hdr.epoch with
    | none => s.refuseEpoch (some port) hdr
    | some s =>
      let q := s.qp n
      let psn := hdr.psn.toNat
      let d := psnDiff psn q.cum
      let inFlight := (s.inFlight n).contains psn
      let old := decide (2 ^ 23 ≤ d) || q.seen.contains psn
      if q.rx.any fun r => decide (r.msn = hdr.msn) && r.ended then s.answer (some port) hdr (some .revoked)
      else if inFlight || (old && !again) then (s.count Reg.xportDupDrop).answer (some port) hdr none
      else if !old && decide (1024 < d) then s.answer (some port) hdr (some .seq)
      else if q.roce && !old && decide (firstMissing (q.seen ++ s.inFlight n) q.cum (q.seen.length + s.xport.places.length +
          s.xport.stalled.length + 1) ≠ psn) then s.answer (some port) hdr (some .seq)
      else body s

/-- A READ_RESP: its requester places it in the message that it belongs to (R377). -/
def State.rxReadResp (s : State) (port : Port) (hdr : XpHdr) (payload : List Byte) : State :=
  let n := hdr.destQpn.toNat
  if !s.phase.serves || s.fenced then s
  else if !XpHdr_ok hdr then s.count Reg.xportRxMalformed
  else if (s.qp n).st ≠ .active ∧ (s.qp n).st ≠ .draining then s
  else match s.checkEpoch n hdr.epoch with
    | none => s.refuseEpoch (some port) hdr
    | some s =>
      match (s.qp n).msgs.find? fun m => decide (m.msn = hdr.msn) && m.kind.isRead && m.done.isNone with
      | none => s.count Reg.xportDupDrop
      | some m =>
        let o := hdr.offset.toNat
        let fresh := decide (m.len = 0 ∧ payload = []) ||
          (missing m.len m.got).any fun h => decide (h.1 ≤ o ∧ o + payload.length ≤ h.2)
        let dup := s.xport.places.any fun p => p.live && decide (p.qpn = n) && decide (p.kind = .readResp) &&
          decide (p.hdr.msn = hdr.msn) && decide (p.hdr.offset = hdr.offset)
        if !fresh || dup then s.count Reg.xportDupDrop
        else s.place ⟨port, n, hdr, .readResp, payload, some (m.local' + BitVec.ofNat 48 o), (s.qp n).flask, none, [], none, 0, false, true⟩

/-- An uncorrectable error in a queue pair's state puts it in ERROR, and the owner and the flask hear of it (R365, R391). -/
def State.qpLost (s : State) (n : Nat) : State :=
  let d := (s.qp n).flask
  ((s.qpFail n St.uncorrectable none).postOwner 0x0608 St.uncorrectable 0xFFF (evData [n])).postDom d 0x0608 St.uncorrectable 0xFFF (evData [n])

/-- What the arrival of a packet shows beside its contents: the queue pair's state lost (R365); for RoCE v2, a congestion mark, which
makes one CNP per 50 µs (R393): the first, and later ones as the time allows. -/
def State.arrival (s : State) (port : Port) (n : Nat) (env : RxEnv) : State :=
  let s := if env.qpBad && (decide ((s.qp n).st = .active) || decide ((s.qp n).st = .draining)) then s.qpLost n else s
  let q := s.qp n
  if !env.ce || !q.roce || !s.phase.serves || s.fenced then s
  else if q.cnp && !s.freeBit then s.took
  else ((s.took.setQp n { q with cnp := true }).count Reg.xportCnpSent).emit (.cnp n port)

/-- XP_RX_DATA_PACKET. A packet that reaches beyond its message is malformed. -/
def execXpRxDataPacket (port : Port) (hdr : XpHdr) (kind : XpDataKind) (payload : List Byte) (env : RxEnv) (s : State) :
    Host.Outcome State Fault Refusal :=
  let s := s.arrival port hdr.destQpn.toNat env
  let n := hdr.destQpn.toNat
  let beyond := decide (hdr.msgLen.toNat < hdr.offset.toNat + payload.length) || decide (2 ^ 30 < hdr.msgLen.toNat)
  let dom := (s.qp n).flask
  let put (s : State) (t : Target) (r : Option FeedRec) (slot : Option Nat) : State :=
    s.placeChecked ⟨port, n, hdr, kind, payload, some (BitVec.ofNat 48 t.addr), dom, t.key, t.pages, none, 0, false, true⟩ r slot
  if beyond && s.phase.serves && !s.fenced then .next (s.count Reg.xportRxMalformed)
  else match kind with
    | .readResp => .next (s.rxReadResp port hdr payload)
    | .write key remote => .next (s.checkRx port hdr false fun s =>
      match s.checkKey n key true (remote.toNat + hdr.offset.toNat) payload.length with
      | .error .revoked => (s.endRx hdr false).answer (some port) hdr (some .revoked)
      | .error c => s.answer (some port) hdr (some c)
      | .ok t => put s t none none)
    | .send => .next (s.checkRx port hdr false fun s =>
      match s.checkSlot hdr with
      | .error c => s.answer (some port) hdr (some c)
      | .ok (t, r, slot) => put s t (some r) (some slot))

/-- XP_RX_READ_REQ. -/
def execXpRxReadReq (port : Port) (hdr : XpHdr) (key : Word) (remote : BitVec 64) (length : Word) (env : RxEnv) (s : State) :
    Host.Outcome State Fault Refusal :=
  let s := s.arrival port hdr.destQpn.toNat env
  let n := hdr.destQpn.toNat
  let len := length.toNat
  if hdr.msgLen.toNat < hdr.offset.toNat + len ∧ s.phase.serves ∧ !s.fenced then .next (s.count Reg.xportRxMalformed)
  else .next (s.checkRx port hdr true fun s =>
    match s.checkKey n key false (remote.toNat + hdr.offset.toNat) len with
    | .error .revoked => (s.endRx hdr true).answer (some port) hdr (some .revoked)
    | .error c => s.answer (some port) hdr (some c)
    | .ok t => s.placeChecked ⟨port, n, hdr, .readResp, [], some (BitVec.ofNat 48 t.addr), (s.qp n).flask, t.key, t.pages,
        some len, 0, false, true⟩ none none)

/-- XP_RX_PROBE. -/
def execXpRxProbe (port : Port) (hdr : XpHdr) (s : State) : Host.Outcome State Fault Refusal :=
  if !s.phase.serves || s.fenced then .next s
  else if !XpHdr_ok hdr then .next (s.count Reg.xportRxMalformed)
  else if !s.receives hdr ∧ (s.qp hdr.destQpn.toNat).st ≠ .active ∧ (s.qp hdr.destQpn.toNat).st ≠ .draining then
    .next (s.answer (some port) hdr (some .qpError))
  else match s.checkEpoch hdr.destQpn.toNat hdr.epoch with
    | none => .next (s.refuseEpoch (some port) hdr)
    | some s => .next (s.answer (some port) hdr none)

/-! ### Placements retire -/

/-- A message complete at its receiver: its token or its chained job, and its release (R17, R375–R377). -/
def State.finishRx (s : State) (n : Nat) (m : RxMsg) : State :=
  let q := s.qp n
  let f : FlaskId := BitVec.ofNat 8 q.flask.toNat
  let s := ((s.tap 6 q.flask).landEnd (.msg n m.msn)).modQp n fun q => { q with rx := q.rx.filter fun x => decide (x.msn ≠ m.msn) }
  let quiet := (s.flask f).st.leaving
  let token (r : FeedRec) (s : State) : State := if quiet then s else s.feedToken f r (m.msn.toNat % 65536)
  if !m.send then
    let s := match if m.notify then m.feed else none with
      | some r => token r s
      | none => s
    s.modQp n fun q => q.release m.msn
  else match m.feed with
    | none => s.modQp n fun q => q.release m.msn
    | some r =>
      if r.mode.toNat = 2 ∧ !quiet then
        let a := r.target.toNat + m.slot.getD 0 * (if r.flags.getLsbD 0 then (match q.conn with
          | some c => if c.slotLog2 = 0 then 0 else 2 ^ c.slotLog2.toNat
          | none => 0) else 0)
        s.addJob f m.next (r.nextBinding.extractLsb' 0 12) (BitVec.ofNat 48 a) m.len (.message n m.msn)
      else (token r s).modQp n fun q => q.release m.msn

/-- A chained job has finished with its message (R376): the slot is free, and the sender hears of it. -/
def State.releaseMsg (s : State) (n : Nat) (msn : Word) : State :=
  let q := s.qp n
  if q.st ≠ .active ∧ q.st ≠ .draining then s
  else
    let s := s.setQp n (q.release msn)
    s.answer none { msgHdr false false q.cum msn 0 0 with destQpn := BitVec.ofNat 18 n } none

/-- The bytes of a packet have been placed. -/
def State.placed (s : State) (p : Placement) : State :=
  let s := s.modQp p.qpn fun q => { (q.receive [p.hdr.psn.toNat]) with rxBytes := q.rxBytes + p.payload.length }
  let s := match (s.qp p.qpn).rx.find? fun r : RxMsg => decide (r.msn = p.hdr.msn) with
    | none => s
    | some m =>
      let m := { m with placed := m.placed + p.payload.length : RxMsg }
      if m.ended then s
      else if m.placed = m.len then s.finishRx p.qpn m
      else s.modQp p.qpn fun q => { q with rx := q.rx.map fun r : RxMsg => if r.msn = m.msn then m else r }
  s.answer (some p.port) p.hdr none

/-- A READ_RESP has been placed at its requester. -/
def State.gotRead (s : State) (p : Placement) (ok : Bool) : State :=
  let o := p.hdr.offset.toNat
  if !ok then s.endMsg p.qpn p.hdr.msn St.uncorrectable
  else
    let s := s.modQp p.qpn fun q => { q with msgs := q.msgs.map fun m =>
      if m.msn = p.hdr.msn then { m with got := m.got ++ [(o, o + p.payload.length)] } else m }
    match (s.qp p.qpn).msgs.find? fun m => decide (m.msn = p.hdr.msn) with
    | none => s
    | some m => if (missing m.len m.got).isEmpty then (s.endMsg p.qpn m.msn St.success).pump p.qpn pumpFuel else s

/-- The data of a READ_REQ leave in READ_RESP packets, an empty range in one (R374, R377). -/
def State.respond (s : State) (p : Placement) (data : List Byte) : State :=
  let q := s.qp p.qpn
  (List.range (msgPkts data.length q.mtu)).foldl (fun s k =>
    let q := s.qp p.qpn
    match q.nextPath with
    | none => s
    | some path => (s.setQp p.qpn { q with path := path + 1 }).queueOn p.qpn path 4 (msgHdr false false p.hdr.psn.toNat p.hdr.msn
        p.hdr.msgLen.toNat (p.hdr.offset.toNat + k * q.mtu)) ((data.drop (k * q.mtu)).take q.mtu)) s

/-- The outcome of a placement, or of a reading, is known. -/
def State.settlePlace (s : State) (p : Placement) (r : HubRes) (data : List Byte) : State :=
  if !p.live then s
  else if p.readLen.isSome then
    match r with
    | .ok =>
      let s := s.modQp p.qpn fun q => (q.receive [p.hdr.psn.toNat]).release p.hdr.msn
      (s.respond p data).answer (some p.port) p.hdr none
    | .outside => s.answer (some p.port) p.hdr (some .access)
    | .uncorrectable => (s.endRx p.hdr true).answer (some p.port) p.hdr (some .uncorrectable)
  else if p.kind = .readResp then s.gotRead p (decide (r = .ok))
  else match r with
    | .ok => s.placed p
    | .outside =>
      let b := ((s.qp p.qpn).rx.find? fun m : RxMsg => decide (m.msn = p.hdr.msn)).bind RxMsg.feed
      (s.postDom p.dom 0x010A St.accessFault 0xFFF (evData [(b.map fun r : FeedRec => r.no.toNat).getD 0xFFF, p.hdr.msn.toNat])).answer
        (some p.port) p.hdr (some .access)
    | .uncorrectable => (s.endRx p.hdr false).answer (some p.port) p.hdr (some .uncorrectable)

/-- The paths that a range of flask addresses lies on (R170). -/
def State.pathsOf (s : State) (dom : Domain) (a n : Nat) : List Nat :=
  (pieces 4096 (n / 4096 + 2) a n).filterMap fun x => (translate s dom x.1).map pathOf

def Placement.paths (p : Placement) (s : State) : List Nat :=
  if p.readLen.isSome then [] else s.pathsOf p.dom (p.addr.getD 0).toNat p.payload.length

/-- Whether an earlier placement is still to write on a path of placement i (R171). -/
def State.placeBehind (s : State) (i : Nat) (p : Placement) : Bool :=
  (s.xport.places.take i).any fun q => (q.paths s).any (p.paths s).contains

/-- Whether a message's token follows its placement (R17). -/
def Placement.heralded (p : Placement) : Bool :=
  match p.kind with
  | .send => true
  | .write .. => p.hdr.notify
  | .readResp => false

/-- XP_PLACEMENT_RETIRE: placement i has been performed at its homes. It waits for earlier ones on its paths (R13, R171), for a
copy or a key, and for the host. -/
def execXpPlacementRetire (i : Nat) (s : State) : Host.Outcome State Fault Refusal :=
  match s.xport.places[i]? with
  | none => .next s
  | some p =>
    let a := (p.addr.getD 0).toNat
    if 0 < p.waits || s.placeBehind i p then .next s
    else
      let w := if p.readLen.isSome then (s.readWaits p.dom a, s) else s.writeWaits p.dom a p.payload.length
      if w.1 then .next w.2
      else
        let s := { s with xport := { s.xport with places := s.xport.places.eraseIdx i } }
        let s := if space a = 5 then s.settlePlace p (if p.bad then .uncorrectable else .ok) p.payload
          else match p.readLen with
            | some n =>
              let r := s.hubRead p.dom .hub a n
              r.2.1.settlePlace p r.2.2 r.1
            | none =>
              let open_ := (s.qp p.qpn).rx.any fun m => decide (m.msn = p.hdr.msn) && !m.ended
              let s := if p.live && p.heralded && open_ then s.land (.msg p.qpn p.hdr.msn) p.dom a p.payload.length else s
              let r := s.hubWrite p.dom .hub a p.payload
              r.1.settlePlace p r.2 []
        match p.key with
        | none => .next s
        | some k => .next ((s.finishClears k).finishRevoke k)

/-- An outbound request of a placement has ended: the bytes of a read, or whether it failed. -/
def State.placeOutDone (s : State) (n psn : Nat) (bad : Bool) (data : List Byte) : State :=
  { s with xport := { s.xport with places := s.xport.places.map fun p =>
      if p.qpn = n ∧ p.hdr.psn.toNat = psn ∧ 0 < p.waits then
        { p with waits := p.waits - 1, bad := p.bad || bad, payload := if p.readLen.isSome then data else p.payload }
      else p } }

/-! ### Paging (R385, R386, R388) -/

/-- Stalled packets whose pages are now present go on. -/
def State.unstall (s : State) (i : Nat) (m : Mr) : State :=
  let ready (x : Stalled) : Bool := decide (x.p.key = some i) && x.p.pages.all fun g => m.present.contains g
  let go := s.xport.stalled.filter ready
  let s := { s with xport := { s.xport with stalled := s.xport.stalled.filter fun x => !ready x } }
  go.foldl (fun s x => s.placeChecked x.p none none) s

/-- MR_PAGES. -/
def execMrPages (h : CmdHdr) (key first count : Word) (present : Byte) (s : State) : Host.Outcome State Fault Refusal :=
  s.command h (.mrPages h key first count present) fun s =>
    match s.heldMr (hdrFlask h) key with
    | none => s.done h St.notFound
    | some (i, m) =>
      let pages := (m.len + 65535) / 65536
      let a := first.toNat
      let n := count.toNat
      if 1 < present.toNat ∨ pages < a + n then s.done h St.malformed
      else if !m.paged then s.done h St.wrongState
      else if present = 1 then
        let m := { m with present := m.present ++ ((List.range n).map (· + a)).filter fun g => !m.present.contains g }
        ((s.setMr i (some m)).unstall i m).done h St.success
      else
        let m := { m with present := m.present.filter fun g => !decide (a ≤ g ∧ g < a + n)
                          clearing := m.clearing ++ [(h.ladle, h.tag, a, n)] }
        (s.setMr i (some m)).finishClears i

/-- XP_STALL_LIMIT: `STALL_US` of stalled packet i has passed. -/
def execXpStallLimit (i : Nat) (s : State) : Host.Outcome State Fault Refusal :=
  match s.xport.stalled[i]? with
  | none => .next s
  | some x => .next ({ s with xport := { s.xport with stalled := s.xport.stalled.eraseIdx i } }.pageNak x.p.port x.p.hdr
      x.p.readLen.isSome)

end Sys2Proof.Machine
end

