-- ==== Sys2Proof/Machine/Storage.lean ====
section
/-!
DEFINITION. Volumes, storage commands, drives, slots and ingest jobs (spec/13_storage_and_ingest.md, R395–R415).
-/

namespace Sys2Proof.Machine

namespace StorSt
def noVolume : Status := 0x00A0
def range : Status := 0x00A1
def absent : Status := 0x00A2
def driveError : Status := 0x00A3
def format : Status := 0x00A4
def limit : Status := 0x00A5
def check : Status := 0x00A6
def unsupported : Status := 0x00A7
end StorSt

def State.drive (s : State) (p : Port) : Drive := Tab.get Drive.reset s.stor.drives p.toNat
def State.setDrive (s : State) (p : Port) (d : Drive) : State :=
  { s with stor := { s.stor with drives := Tab.put Drive.reset s.stor.drives p.toNat d } }
def volKey (f : FlaskId) (n : Nat) : Nat := f.toNat * 64 + n
def State.vol (s : State) (k : Nat) : Option Volume := Tab.get none s.stor.vols k
def State.setVol (s : State) (k : Nat) (v : Option Volume) : State :=
  { s with stor := { s.stor with vols := Tab.put none s.stor.vols k v } }
def State.setCmds (s : State) (f : List DrvCmd → List DrvCmd) : State :=
  { s with stor := { s.stor with cmds := f s.stor.cmds } }
def State.drvCmd (s : State) (id : Nat) : Option DrvCmd := s.stor.cmds.find? fun c => decide (c.id = id)

/-- Flasks with a volume on a drive. -/
def State.volFlasks (s : State) (p : Port) : List FlaskId :=
  s.liveFlasks.filter fun f => s.stor.vols.any fun e => match e.2 with
    | some v => v.flask == f && v.port == p
    | none => false

/-- The bytes of a command's window. -/
def DrvCmd.bytes (c : DrvCmd) : Nat := c.blocks * 4096
def DrvCmd.dom (c : DrvCmd) : Domain := ladleDom c.ladle

/-! ### Issuing -/

/-- A command goes to its drive; a `DRIVE_POWER` under way must repeat its steps (R403). -/
def State.issueDrv (s : State) (c : DrvCmd) : State :=
  let d := s.drive c.port
  let s := match d.power with
    | some (tag, ps, _) => if c.op = DrvOp.power then s else s.setDrive c.port { d with power := some (tag, ps, false) }
    | none => s
  s.emit (.drive c.port c.id c.op c.lba c.blocks c.fua)

/-- A drive command takes the next number and is recorded; it is issued now unless its data come from a host first (R400). -/
def State.newPart (s : State) (c : DrvCmd) : State :=
  let id := s.stor.nextId
  let c := { c with id := id }
  let s := { s with stor := { s.stor with cmds := s.stor.cmds ++ [c], nextId := id + 1 } }
  if c.issued then s.issueDrv c else s.askHost (.drive id) c.dom c.addr.toNat c.bytes none

/-- A command goes to its drive, split in LBA order where it is larger than the drive's maximum transfer (R400). -/
def State.newDrv (s : State) (c : DrvCmd) : State :=
  let m := (s.drive c.port).maxBlocks
  let c := { c with group := s.stor.nextId }
  if m = 0 ∨ c.blocks ≤ m ∨ !(c.op == .read || c.op == .write) then s.newPart c
  else (List.range ((c.blocks + m - 1) / m)).foldl (fun s k => s.newPart { c with
    lba := c.lba + k * m, blocks := min m (c.blocks - k * m), addr := c.addr + BitVec.ofNat 48 (k * m * 4096) }) s

/-- The first two steps of `DRIVE_POWER` (R403); a fenced module issues no drive command (R471). -/
def State.stepPower (s : State) (p : Port) : State :=
  let d := s.drive p
  match d.power with
  | some (tag, ps, false) =>
    if s.stor.cmds.any fun c => c.port == p then s
    else if s.fenced then (s.setDrive p { d with power := none }).complete .admin tag St.fenced 0 []
    else (s.setDrive p { d with power := some (tag, ps, true) }).newDrv
      ⟨0, p, .power, .admin, tag, 0, ps.toNat, 0, 0, false, none, none, true, 0, false, none, 0, none⟩
  | _ => s

/-! ### Completion -/

/-- A volume being destroyed goes once no command names it (R396). -/
def State.stepVol (s : State) (k : Nat) : State :=
  match s.vol k with
  | none => s
  | some v => match v.destroying with
    | none => s
    | some tag =>
      if (s.stor.cmds.any fun c => c.op != .power && decide (c.vol = k)) || (s.stor.flushes.any fun f => f.vols.contains k) ||
          (s.stor.jobs.any fun j => match j.origin with
            | .storage .. => j.flask == v.flask
            | _ => false) then s
      else (s.setVol k none).complete .admin tag St.success 0 []

def State.stepVols (s : State) : State := (Tab.keys s.stor.vols).foldl (fun s k => s.stepVol k) s

/-- A flush whose writes have ended issues its NVMe Flushes, unless the module is fenced (R471); one whose Flushes have ended
completes (R402). -/
def State.stepFlush (s : State) (f : Flush) : State :=
  if !f.waits.isEmpty || !f.parts.isEmpty then s
  else
    let rest (s : State) : State := { s with stor := { s.stor with flushes := s.stor.flushes.filter fun g =>
      !(decide (g.ladle = f.ladle) && decide (g.tag = f.tag)) } }
    let vs := f.vols.filterMap s.vol
    let ports := (vs.map (·.port)).eraseDups.filter fun p => (s.drive p).vwc
    if f.issued then (rest s).complete f.ladle f.tag f.status f.detail []
    else if vs.any fun v => v.offline || !(s.drive v.port).ready then (rest s).complete f.ladle f.tag StorSt.absent 0 []
    else if ports.isEmpty then (rest s).complete f.ladle f.tag St.success 0 []
    else if s.fenced then (rest s).complete f.ladle f.tag St.fenced 0 []
    else
      let ids := (List.range ports.length).map (· + s.stor.nextId)
      let s := ports.foldl (fun s p => s.newDrv ⟨0, p, .flush, f.ladle, f.tag, f.vols.headD 0, 0, 0, 0, false, none, none, true, 0, false, none, 0, none⟩) s
      let s := rest s
      { s with stor := { s.stor with flushes := s.stor.flushes ++ [{ f with issued := true, parts := ids }] } }

/-- A flush hears that a drive command of it has ended. -/
def Flush.hear (f : Flush) (id : Nat) (st : Status) (detail : Word) : Flush :=
  let part := f.parts.contains id
  { f with waits := f.waits.filter (· ≠ id), parts := f.parts.filter (· ≠ id)
           status := if part ∧ f.status = St.success then st else f.status
           detail := if part ∧ f.status = St.success then detail else f.detail }

/-- The drive commands that one command was split into, in LBA order. -/
def State.partsOf (s : State) (c : DrvCmd) : List DrvCmd := s.stor.cmds.filter fun x => decide (x.group = c.group)

/-- The binding of a command with `TOKEN`, taken when its first byte comes (R62). -/
def DrvCmd.bind (c : DrvCmd) (s : State) : DrvCmd :=
  let f : FlaskId := BitVec.ofNat 8 c.dom.toNat
  { c with feed := c.token.bind fun k => match (c :: s.partsOf c).findSome? DrvCmd.feed with
    | some b => some b
    | none => (s.feedFor f [3] k.toNat).map fun r => (r, s.nextFeed f r) }

def State.setCmd (s : State) (c : DrvCmd) : State := s.setCmds fun cs => cs.map fun x => if x.id = c.id then c else x

/-- The status of a command whose parts have all ended: that of the first part that failed (R400). -/
def partsEnd (parts : List DrvCmd) : Status × Word :=
  ((parts.filterMap DrvCmd.res).find? fun x => decide (x.1 ≠ St.success)).getD (St.success, 0)

/-- A command has ended, with all its parts: its window is closed, and its ladle hears of it (R399–R403). -/
def State.endDrvAll (s : State) (c : DrvCmd) (bytes : Nat) (st : Status) (detail : Word) : State :=
  let f : FlaskId := BitVec.ofNat 8 c.dom.toNat
  match c.op with
  | .flush => s
  | .power =>
    let d := s.drive c.port
    match d.power with
    | some (tag, _, true) =>
      if c.tag = tag then (s.setDrive c.port { d with power := none }).complete .admin tag st detail [] else s
    | _ => s
  | _ =>
    if c.token.isSome && decide (st = St.success) then
      match c.feed with
      | none => s.complete c.ladle c.tag st detail []
      | some (r, next) =>
        if r.mode.toNat = 2 then s.addJob f next (r.nextBinding.extractLsb' 0 12) c.addr bytes (.storage c.ladle c.tag)
        else
          let s := if (s.flask f).st.leaving then s else s.feedToken f r (c.tag.toNat % 65536)
          s.complete c.ladle c.tag st detail []
    else s.complete c.ladle c.tag st detail []

/-- A drive command has ended, and what waits for it goes on; the last part of a command ends the command. -/
def State.endDrv (s : State) (c : DrvCmd) (st : Status) (detail : Word) : State :=
  let c := { c.bind s with ended := true, res := some (st, detail) }
  let s := s.setCmd c
  let parts := s.partsOf c
  let s : State :=
    if parts.any fun x => x.res.isNone then s
    else
      let s := (s.setCmds fun cs => cs.filter fun x => decide (x.group ≠ c.group)).landEnd (.drive c.group)
      let e := partsEnd parts
      s.endDrvAll { c with addr := (parts.headD c).addr } (parts.map DrvCmd.bytes).sum e.1 e.2
  let s := { s with stor := { s.stor with flushes := s.stor.flushes.map fun x : Flush => x.hear c.id st detail } }
  let s := s.stor.flushes.foldl (fun (s : State) (x : Flush) => s.stepFlush x) s
  (s.stepVols).stepPower c.port

/-- An outbound request of a drive command has ended. -/
def State.driveOutDone (s : State) (id : Nat) (bad : Option Status) (data : List Byte) : State :=
  match s.drvCmd id with
  | none => s
  | some c =>
    let c' := { c with out := c.out - 1, failed := if c.failed.isNone then bad else c.failed }
    let s := s.setCmds fun cs => cs.map fun x => if x.id = id then c' else x
    if !c.issued then
      match bad with
      | some st => s.endDrv c' st 0
      | none =>
        if s.fenced then s.endDrv c' St.fenced 0 else
        let c' := { c' with issued := true }
        (s.setCmds fun cs => cs.map fun x => if x.id = id then c' else x).issueDrv c'
    else
      let s := if c.op = .write then s.emit (.driveCpl c.port (if bad.isSome then none else some data)) else s
      if c'.ended && decide (c'.out = 0) then s.endDrv c' (c'.failed.getD St.success) 0 else s

/-! ### Commands of the owner -/

/-- Whether two block ranges overlap. -/
def overlap (a n b m : Nat) : Bool := decide (a < b + m ∧ b < a + n ∧ 0 < n ∧ 0 < m)

/-- A range that overlaps a volume or an ingot area of the drive (R395, R478). -/
def State.rangeTaken (s : State) (p : Port) (a n : Nat) : Bool :=
  (s.stor.vols.any fun e => match e.2 with
    | some v => v.port == p && overlap a n v.start v.blocks
    | none => false) ||
  s.ing.areas.any fun e => match e.2 with
    | some v => v.port == p && overlap a n v.start v.blocks
    | none => false

/-- VOL_CREATE. -/
def execVolCreate (h : CmdHdr) (flask : BitVec 16) (volume port : Byte) (start blocks : BitVec 64) (s : State) :
    Host.Outcome State Fault Refusal :=
  s.command h (.volCreate h flask volume port start blocks) fun s => s.onFlask h flask fun f s =>
    let p : Port := port.extractLsb' 0 3
    let d := s.drive p
    let k := volKey f volume.toNat
    if 63 < volume.toNat ∨ 7 < port.toNat then s.done h St.malformed
    else if !(decide ((s.flask f).st = .empty) || (s.flask f).st.isCast) || (s.vol k).isSome then s.done h St.wrongState
    else if d.unsupported then s.done h StorSt.unsupported
    else if !d.ready then s.done h StorSt.absent
    else if blocks = 0 ∨ d.blocks < start.toNat + blocks.toNat ∨ s.rangeTaken p start.toNat blocks.toNat then
      s.done h StorSt.range
    else (s.setVol k (some ⟨f, volume.toNat, p, start.toNat, blocks.toNat, d.serial, false, none⟩)).done h St.success

/-- VOL_DESTROY (R396). -/
def execVolDestroy (h : CmdHdr) (flask : BitVec 16) (volume : Byte) (s : State) : Host.Outcome State Fault Refusal :=
  s.command h (.volDestroy h flask volume) fun s => s.onFlask h flask fun f s =>
    let k := volKey f volume.toNat
    if 63 < volume.toNat then s.done h St.malformed
    else match s.vol k with
      | none => s.done h St.notFound
      | some v =>
        if v.destroying.isSome then s.done h St.notFound
        else (s.setVol k (some { v with destroying := some h.tag })).stepVol k

/-- DRIVE_POWER (R403). -/
def execDrivePower (h : CmdHdr) (port ps : Byte) (s : State) : Host.Outcome State Fault Refusal :=
  s.command h (.drivePower h port ps) fun s =>
    let p : Port := port.extractLsb' 0 3
    let d := s.drive p
    if 7 < port.toNat ∨ 31 < ps.toNat then s.done h St.malformed
    else if !d.ready then s.done h StorSt.absent
    else if d.power.isSome then s.done h St.wrongState
    else (s.setDrive p { d with power := some (h.tag, ps.extractLsb' 0 5, false) }).stepPower p

/-! ### Commands of a flask (R398, R401, R402) -/

/-- The volume that a command names. -/
def State.heldVol (s : State) (f : FlaskId) (n : Nat) : Option Volume :=
  if 63 < n then none
  else match s.vol (volKey f n) with
    | some v => if v.destroying.isSome then none else some v
    | none => none

/-- Whether a volume's drive takes commands. -/
def State.volUp (s : State) (v : Volume) : Bool := !v.offline && (s.drive v.port).ready

/-- The checks that the commands on blocks share. -/
def State.onBlocks (s : State) (h : CmdHdr) (p : StorP) (legal : Bool) (isLocal : Bool) (body : Volume → State → State) : State :=
  let f := hdrFlask h
  match s.heldVol f p.volume.toNat with
  | none => s.done h StorSt.noVolume
  | some v =>
    if p.blocks.toNat < 1 ∨ 65536 < p.blocks.toNat ∨ !legal then s.done h St.malformed
    else if v.blocks < p.lba.toNat + p.blocks.toNat then s.done h StorSt.range
    else if isLocal && !s.reachable (flaskDom f) p.localAddr.toNat (p.blocks.toNat * 4096) then s.done h St.accessFault
    else if !s.volUp v then s.done h StorSt.absent
    else body v s

def localLegal (p : StorP) : Bool :=
  decide (p.localAddr.toNat < 2 ^ 48) && [1, 2, 5].contains (space p.localAddr.toNat) && decide (p.localAddr.toNat % 64 = 0)

/-- The drive command of a storage command. -/
def storDrv (h : CmdHdr) (p : StorP) (v : Volume) (op : DrvOp) (token : Option (BitVec 4)) (issued : Bool) : DrvCmd :=
  ⟨0, v.port, op, h.ladle, h.tag, volKey v.flask v.num, v.start + p.lba.toNat, p.blocks.toNat, p.localAddr.extractLsb' 0 48,
    decide (op = .write) && h.flags.getLsbD 8, token, none, issued, if issued then 0 else 1, false, none, 0, none⟩

/-- Whether a range lies within a binding's region. -/
def inRegion (r : FeedRec) (a n : Nat) : Bool :=
  decide (r.target.toNat ≤ a ∧ a + n ≤ r.target.toNat + r.targetBytes.toNat)

/-- STOR_READ. -/
def execStorRead (h : CmdHdr) (p : StorP) (s : State) : Host.Outcome State Fault Refusal :=
  s.command h (.storRead h p) fun s =>
    s.onBlocks h p (localLegal p && decide (p.cls.toNat ≤ 15)) true fun v s =>
      let tok := h.flags.getLsbD 9
      let c : BitVec 4 := p.cls.extractLsb' 0 4
      let fits := match s.feedFor (hdrFlask h) [3] c.toNat with
        | none => false
        | some r => inRegion r p.localAddr.toNat (p.blocks.toNat * 4096)
      if tok && !fits then s.done h St.accessFault
      else s.newDrv (storDrv h p v .read (if tok then some c else none) true)

/-- STOR_WRITE: its data are read first, and poison ends it (R400). -/
def execStorWrite (h : CmdHdr) (p : StorP) (s : State) : Host.Outcome State Fault Refusal :=
  s.command h (.storWrite h p) fun s => s.onBlocks h p (localLegal p) true fun v s =>
    let a := p.localAddr.toNat
    if space a = 5 then s.newDrv (storDrv h p v .write none false)
    else
      let r := s.hubRead (ladleDom h.ladle) .hub a (p.blocks.toNat * 4096)
      match r.2.2 with
      | .ok => r.2.1.newDrv (storDrv h p v .write none true)
      | .outside => r.2.1.done h St.accessFault
      | .uncorrectable => r.2.1.done h St.uncorrectable

/-- STOR_TRIM. -/
def execStorTrim (h : CmdHdr) (p : StorP) (s : State) : Host.Outcome State Fault Refusal :=
  s.command h (.storTrim h p) fun s => s.onBlocks h p true false fun v s => s.newDrv (storDrv h p v .trim none true)

/-- STOR_FLUSH (R402). -/
def execStorFlush (h : CmdHdr) (volume : Byte) (s : State) : Host.Outcome State Fault Refusal :=
  s.command h (.storFlush h volume) fun s =>
    let f := hdrFlask h
    let vols := if volume = 0xFF then ((List.range 64).filter fun n => (s.heldVol f n).isSome).map (volKey f) else [volKey f volume.toNat]
    if volume ≠ 0xFF ∧ (s.heldVol f volume.toNat).isNone then s.done h StorSt.noVolume
    else if (vols.filterMap s.vol).any fun v => !s.volUp v then s.done h StorSt.absent
    else
      let waits := (s.stor.cmds.filter fun c => c.op == .write && decide (c.ladle = h.ladle) && vols.contains c.vol).map (·.id)
      let x : Flush := ⟨h.ladle, h.tag, vols, waits, [], false, St.success, 0⟩
      ({ s with stor := { s.stor with flushes := s.stor.flushes ++ [x] } }).stepFlush x

/-! ### What drives do -/

/-- A write of a drive's data at its place: words of a read whose token is to come are kept (R18); a write outside the flask is
refused and reported (R16). -/
def State.driveWrite (s : State) (c : DrvCmd) (a : Nat) (bs : List Byte) : State × HubRes :=
  let c := c.bind s
  let s := s.setCmd c
  let s := if c.feed.isSome then s.land (.drive c.group) c.dom a bs.length else s
  let r := s.hubWrite c.dom .hub a bs
  if r.2 = .outside then
    ((r.1.setCmd { c with failed := if c.failed.isNone then some St.accessFault else c.failed }).postDom c.dom 0x010A St.accessFault
      0xFFF (evData [(c.feed.map fun b => b.1.no.toNat).getD 0xFFF, c.tag.toNat % 65536]), r.2)
  else r

/-- DRIVE_COMPLETION: command `id` of the port, or a deallocation of freed blocks (R523). -/
def execDriveCompletion (port : Port) (id : Nat) (r : DriveResult) (s : State) : Host.Outcome State Fault Refusal :=
  match s.drvCmd id with
  | none => .next { s with bg := { s.bg with trimBusy := s.bg.trimBusy.filter (· ≠ (port, id)) } }
  | some c =>
    let fl : FlaskId := BitVec.ofNat 8 c.dom.toNat
    let held : Bool := match (c.bind s).feed with
      | none => false
      | some b => decide (64 ≤ s.heldTokens fl b.1.no)
    if c.port ≠ port ∨ !c.issued ∨ c.ended ∨ held then .next s
    else match r with
      | .mediaError => .next ((s.count (portReg Reg.storPnErrors port)).endDrv c St.mediaError 0)
      | .nvmeError sf => .next ((s.count (portReg Reg.storPnErrors port)).endDrv c StorSt.driveError
          (BitVec.ofNat 32 (sf.toNat + port.toNat * 2 ^ 16)))
      | .ok data =>
        match c.op with
        | .read =>
          let bs := data.take c.bytes
          if space c.addr.toNat = 5 then
            let c' := { c.bind s with ended := true, out := c.out + 1 }
            .next ((s.setCmd c').askHost (.drive id) c.dom c.addr.toNat bs.length (some bs))
          else
            let w := s.writeWaits c.dom c.addr.toNat bs.length
            if w.1 then .next w.2
            else
              let q := s.driveWrite c c.addr.toNat bs
              .next (q.1.endDrv (c.bind s) (match q.2 with
                | .ok => c.failed.getD St.success
                | .outside => St.accessFault
                | .uncorrectable => St.uncorrectable) 0)
        | .power =>
          .next ((s.setDrive port { s.drive port with ps := BitVec.ofNat 5 c.lba }).endDrv c St.success 0)
        | _ =>
          if 0 < c.out then .next (s.setCmd { c with ended := true })
          else .next (s.endDrv c (c.failed.getD St.success) 0)

/-- DRIVE_MEMORY_REQUEST: a request within an open window of the flask reaches its home; any other is a stray (R399). -/
def execDriveMemoryRequest (port : Port) (f : FlaskId) (addr : BitVec 48) (len : BitVec 13) (write : Option (List Byte))
    (s : State) : Host.Outcome State Fault Refusal :=
  let dir : DrvOp := if write.isSome then .read else .write
  let n := match write with
    | some bs => bs.length
    | none => len.toNat
  let stray (s : State) : State := (s.count (portReg Reg.storPnStray port)).emit (.driveCpl port none)
  let win := s.stor.cmds.find? fun c => c.port == port && c.issued && !c.ended && c.op == dir && c.dom == flaskDom f &&
    decide (c.addr.toNat ≤ addr.toNat ∧ addr.toNat + n ≤ c.addr.toNat + c.bytes)
  match win with
  | none => .next (stray s)
  | some c =>
    if space addr.toNat = 5 then
      let c := if write.isSome then c.bind s else c
      .next ((s.setCmd { c with out := c.out + 1 }).askHost (.drive c.id) c.dom addr.toNat n write)
    else match write with
      | some bs =>
        let w := s.writeWaits c.dom addr.toNat n
        if w.1 then .next w.2
        else
          let r := s.driveWrite c addr.toNat bs
          .next (if r.2 = .outside then r.1.emit (.driveCpl port none) else r.1)
      | none =>
        if s.readWaits c.dom addr.toNat then .next s
        else
          let r := s.hubRead c.dom .hub addr.toNat n
          .next (match r.2.2 with
            | .ok => r.2.1.emit (.driveCpl port (some r.1))
            | .outside => r.2.1.emit (.driveCpl port none)
            | .uncorrectable => (r.2.1.setCmd { c with failed := some St.uncorrectable }).emit (.driveCpl port none))

/-- DRIVE_ASYNC_EVENT (R405). -/
def execDriveAsyncEvent (port : Port) (logData : BitVec 128) (s : State) : Host.Outcome State Fault Refusal :=
  let ev := leBytes 4 port.toNat ++ leBytes 16 logData.toNat
  .next ((s.volFlasks port).foldl (fun s f => s.postFlask f 0x0705 St.success 0xFFF ev) (s.postOwner 0x0705 St.success 0xFFF ev))

/-! ### Slots (R406–R408) -/

/-- DRIVE_PRESENCE_DETECT. -/
def execDrivePresenceDetect (port : Port) (s : State) : Host.Outcome State Fault Refusal :=
  if (s.drive port).present then .next s
  else .next ((s.setDrive port { s.drive port with present := true }).postOwner 0x0701 St.success 0xFFF (evData [port.toNat]))

/-- Every command to a drive ends, as absent; the drive takes no further one. -/
def State.dropDrive (s : State) (port : Port) : State :=
  let d := s.drive port
  let s := State.setDrive { s with bg := { s.bg with trimBusy := s.bg.trimBusy.filter fun t => !(t.1 == port) } } port
    { d with power := none, ready := false }
  let s := match d.power with
    | some (tag, _, _) => s.complete .admin tag StorSt.absent 0 []
    | none => s
  let s := (s.stor.cmds.filter fun c => c.port == port).foldl (fun s c =>
    match s.drvCmd c.id with
    | some c => if c.res.isSome then s else s.endDrv c StorSt.absent 0
    | none => s) s
  (s.setCmds fun cs => cs.filter fun c => !(c.port == port)).setDrive port { s.drive port with
    powerGood := false, link := false, ready := false, unsupported := false, vwc := false, ps := 0, speed := 0 }

/-- STOR_POWER_EN: clearing it is an orderly removal, and what is still outstanding ends as absent (R406, R407). -/
def execStorPowerEn (m : Master) (port : Port) (on : Bool) (s : State) : Host.Outcome State Fault Refusal :=
  .next (s.ownerWrite m fun s =>
    let o := portReg Reg.storPnCtl port
    let s := s.setReg o ((s.reg o &&& 0xFFFFFFFE) ||| (if on then 1 else 0))
    if on then s else s.dropDrive port)

/-- SLOT_POWER_GOOD. -/
def execSlotPowerGood (port : Port) (good : Bool) (s : State) : Host.Outcome State Fault Refusal :=
  let d := s.drive port
  if !(s.reg (portReg Reg.storPnCtl port)).getLsbD 0 then .next s
  else if good then .next (s.setDrive port { d with powerGood := true })
  else .next ((s.dropDrive port).setDrive port { (s.dropDrive port).drive port with powerFault := true })

/-- DRIVE_READY: the link has trained and the drive is identified; its volumes return if it is the drive that they were
made on (R397, R406, R408). -/
def execDriveReady (port : Port) (ident : DriveIdent) (s : State) : Host.Outcome State Fault Refusal :=
  let d := s.drive port
  if !d.present || !d.powerGood || s.fenced then .next s
  else
    let s := s.setDrive port { d with link := true, speed := ident.speed, serial := ident.serial, blocks := ident.blocks.toNat
                                      vwc := ident.vwc, maxBlocks := ident.maxBlocks.toNat, ready := ident.supported, unsupported := !ident.supported, ps := 0 }
    if !ident.supported then .next s
    else
      let s := (Tab.keys s.stor.vols).foldl (fun s k => match s.vol k with
        | some v => if v.port = port then s.setVol k (some { v with offline := decide (v.serial ≠ ident.serial) }) else s
        | none => s) s
      .next (s.postOwner 0x0702 St.success 0xFFF (evData [port.toNat]))

/-- SLOT_ATTENTION_PRESS: closures within 1 s of a counted press are not counted (R308, R406, R407). -/
def execSlotAttentionPress (port : Port) (sinceLastMs : Nat) (s : State) : Host.Outcome State Fault Refusal :=
  let d := s.drive port
  if sinceLastMs < 1000 then .next s
  else .next ((s.setDrive port { d with pressed := true, presses := d.presses + 1 }).postOwner 0x0704 St.success 0xFFF
    (evData [port.toNat]))

/-- DRIVE_SURPRISE_REMOVAL (R408). -/
def execDriveSurpriseRemoval (port : Port) (s : State) : Host.Outcome State Fault Refusal :=
  if !(s.drive port).present then .next s
  else
    let o := portReg Reg.storPnCtl port
    let s := s.setDrive port { s.drive port with present := false, ready := false }
    let s := (s.dropDrive port).count (portReg Reg.storPnRemovals port)
    let s := s.setReg o (s.reg o &&& 0xFFFFFFFE)
    let s := (Tab.keys s.stor.vols).foldl (fun s k => match s.vol k with
      | some v => if v.port = port then s.setVol k (some { v with offline := true }) else s
      | none => s) s
    let ev := evData [port.toNat]
    .next ((s.volFlasks port).foldl (fun s f => s.postFlask f 0x0703 St.success 0xFFF ev) (s.postOwner 0x0703 St.success 0xFFF ev))

/-! ### Ingest (R409–R413) -/

/-- INGEST. -/
def execIngest (h : CmdHdr) (binding : BitVec 16) (src : BitVec 64) (length : Word) (s : State) :
    Host.Outcome State Fault Refusal :=
  s.command h (.ingest h binding src length) fun s =>
    let f := hdrFlask h
    if length.toNat < 1 ∨ 2 ^ 30 < length.toNat then s.done h St.malformed
    else if (s.ingestFeed f binding.toNat).isNone then s.done h St.notFound
    else if decide (2 ^ 48 ≤ src.toNat) || !inFlask s (flaskDom f) src.toNat length.toNat then s.done h St.accessFault
    else s.addJob f (s.ingestFeed f binding.toNat) (binding.extractLsb' 0 12) (src.extractLsb' 0 48) length.toNat (.ingest h.ladle h.tag (h.flags.extractLsb' 9 2))

/-- Whether every token of a binding has been taken from its port: none is held, and none stands in a port (R409). -/
def State.tokensTaken (s : State) (f : FlaskId) (b : BitVec 12) : Bool :=
  !(s.fab.tokens.any fun t => t.flask == f && t.binding == b && decide (t.w.toNat / 2 ^ 28 ≠ 3)) &&
    !s.cores.any fun e => e.2.flask == flaskDom f && e.2.inp.toList.any fun q => q.any fun w =>
      w.hub && decide (w.w.payload.toNat / 2 ^ 16 % 2 ^ 12 = b.toNat) &&
        (decide (w.w.payload.toNat / 2 ^ 28 = 1) || decide (w.w.payload.toNat / 2 ^ 28 = 2))

/-- Jobs of JPEG bindings, or of the others, that run. -/
def State.enginesBusy (s : State) (jpeg : Bool) : Nat := s.stor.jobs.countP fun j =>
  j.running && decide ((j.feed.map fun r => decide (r.source = 6)) = some jpeg)

def State.setJob (s : State) (j j' : Job) : State :=
  { s with stor := { s.stor with jobs := s.stor.jobs.map fun x => if x = j then j' else x } }

/-- INGEST_JOB_START: the first job of the binding, under the binding that it arrived under (R62, R409). -/
def execIngestJobStart (f : FlaskId) (binding : BitVec 12) (s : State) : Host.Outcome State Fault Refusal :=
  match s.stor.jobs.find? (fun j => j.flask == f && j.binding == binding) with
  | none => .next s
  | some j => match j.feed with
    | none => .next s
    | some r =>
      let jpeg := decide (r.source = 6)
      if j.running || !s.tokensTaken f binding || decide ((if jpeg then 4 else 8) ≤ s.enginesBusy jpeg) ||
          (s.flask f).st.leaving || s.fenced then .next s
      else
        let k := f.toNat * 4096 + binding.toNat
        let n := Tab.get 0 s.stor.jobNo k
        .next ({ s with stor := { s.stor with jobNo := Tab.put 0 s.stor.jobNo k (n + 1) } }.setJob j { j with running := true, num := n })

/-- A job is gone; its command completes, or its failure is posted and its message is released (R401, R413). -/
def State.endJob (s : State) (j : Job) (st : Status) : State :=
  let s := { s with stor := { s.stor with jobs := s.stor.jobs.erase j } }.landEnd (.job j.flask j.binding)
  let s := s.count (if st = St.success then Reg.storIngestJobs else Reg.storIngestFails)
  let failed (s : State) : State := if st = St.success then s
    else s.postFlask j.flask 0x0706 st 0xFFF (evData [j.binding.toNat, j.num, st.toNat])
  match j.origin with
  | .ingest l tag _ => s.complete l tag st 0 []
  | .message n msn => (failed s).releaseMsg n msn
  | .storage l tag => ((failed s).complete l tag St.success 0 []).stepVols

/-- How a decoder ends (R413). -/
def ingestCode (n : Nat) : Status :=
  if n = 0 then St.success else if n = 2 then StorSt.check else if n = 3 then StorSt.limit else StorSt.format

/-- The header check of RFC 1950. -/
def zlibHeader (a b : Byte) : Bool :=
  decide (a.toNat % 16 = 8) && decide (a.toNat / 16 ≤ 7) && decide ((a.toNat * 256 + b.toNat) % 31 = 0)

/-- The format of a `SOURCE` 4 job: as the command states, or by its first two bytes (R410). -/
def inflateFormat (stated : BitVec 2) (bs : List Byte) : Nat :=
  match bs with
  | a :: b :: _ =>
    if stated ≠ 0 then stated.toNat else if a = 0x1F ∧ b = 0x8B then 3 else if zlibHeader a b then 2 else 1
  | _ => if stated ≠ 0 then stated.toNat else 1

/-- A sample narrowed to 8 bits. -/
def clamp8 (n : Int) : Byte := BitVec.ofInt 8 (max 0 (min 255 n))

/-- Y, Cb, Cr as red, green and blue by T.871, to the nearest. -/
def jfif (x : BitVec 24) : List Byte :=
  let y : Int := (x.extractLsb' 0 8).toNat
  let cb : Int := (x.extractLsb' 8 8).toNat - 128
  let cr : Int := (x.extractLsb' 16 8).toNat - 128
  [clamp8 ((1000 * y + 1402 * cr + 500) / 1000), clamp8 ((587000 * y - 202008 * cb - 419198 * cr + 293500) / 587000),
    clamp8 ((1000 * y + 1772 * cb + 500) / 1000)]

/-- A pixel as the binding wants it: a greyscale image fills all three channels (R412). -/
def jpegPixel (g : Jpeg) (rgb : Bool) (x : BitVec 24) : List Byte :=
  let y : Byte := x.extractLsb' 0 8
  if !rgb then [y] else if g.grey then [y, y, y] else jfif x

/-- Tiles to a row, and tiles in all, of edge e. -/
def jpegCols (g : Jpeg) (e : Nat) : Nat := (g.width + e - 1) / e
def jpegTiles (g : Jpeg) (e : Nat) : Nat := jpegCols g e * ((g.height + e - 1) / e)

/-- Tile t; samples past the image's edge are zero. -/
def jpegTile (g : Jpeg) (e : Nat) (rgb : Bool) (t : Nat) : List Byte :=
  let x0 := t % jpegCols g e * e
  let y0 := t / jpegCols g e * e
  (List.range (e * e)).flatMap fun k =>
    let x := x0 + k % e
    let y := y0 + k / e
    if x < g.width ∧ y < g.height then jpegPixel g rgb (g.samples.getD (y * g.width + x) 0) else if rgb then [0, 0, 0] else [0]

/-- Whether all of tile t within the image is decoded. -/
def jpegWhole (g : Jpeg) (e t : Nat) : Bool :=
  decide (g.code = 0) || decide ((min g.height (t / jpegCols g e * e + e) - 1) * g.width + min g.width (t % jpegCols g e * e + e) ≤ g.samples.length)

/-- What a job makes of its input: what is to be placed, in the order of placing; how many tiles the image has; how the job ends
(R410–R413). -/
def decodeJob (r : FeedRec) (j : Job) (bs : List Byte) : List (List Byte) × Nat × Status :=
  let stated : BitVec 2 := match j.origin with
    | .ingest _ _ fmt => fmt
    | _ => 0
  if r.source = 6 then
    let g := Config.jpeg bs
    let e := 2 ^ r.tileEdge.toNat
    if 16384 < g.width ∨ 16384 < g.height then ([], 0, StorSt.format)
    else (((List.range (jpegTiles g e)).takeWhile (jpegWhole g e)).map (jpegTile g e (decide (r.tileFmt = 1))), jpegTiles g e, ingestCode g.code)
  else
    let fmt := if r.source = 5 then 4 else inflateFormat stated bs
    let preset := decide (fmt = 2) && (bs.getD 1 0).getLsbD 5
    let d := Config.inflate fmt bs
    if preset then ([], 0, StorSt.format) else ([d.1], 1, ingestCode d.2)

/-- What is to be placed of a job's output, and how the job will end; a job whose tiles would run past the flask's last core
places nothing (R410, R412, R413). -/
def JobOut.start (cores : Nat) (r : FeedRec) (d : List (List Byte) × Nat × Status) : JobOut :=
  if r.mode.toNat = 1 then
    let base := r.target.toNat / 2 ^ 24 % 2 ^ 20
    if cores < base + d.2.1 then ⟨[], none, StorSt.limit⟩
    else ⟨d.1.zipIdx.map fun x => ((base + x.2) * 2 ^ 24 + r.target.toNat % 2 ^ 24, x.1, some x.2), none, d.2.2⟩
  else
    let out := d.1.flatten
    let n := r.targetBytes.toNat
    let bs := out.take n
    let parts := if space r.target.toNat = 5 then [(r.target.toNat, bs)] else split 65536 (n / 65536 + 2) r.target.toNat bs
    ⟨parts.map fun x => (x.1, x.2, none), none, if n < out.length then StorSt.limit else d.2.2⟩

/-- The token of a tile goes to the tile's core (R412). -/
def State.tileToken (s : State) (j : Job) (r : FeedRec) (k : Nat) : State :=
  match coreRef s j.flask (r.target.toNat / 2 ^ 24 % 2 ^ 20 + k) with
  | none => s
  | some c => if (s.flask j.flask).st.leaving then s
    else s.issueToken j.flask r.no c (r.tokenPort.extractLsb' 0 3) (tokenWord 2 r.no.toNat (k % 65536))

/-- Parts of a region are written, those that wait for a copy or a key excepted (R22): what is left. -/
def State.putParts (s : State) (j : Job) : List (Nat × List Byte × Option Nat) → State × List (Nat × List Byte × Option Nat) × HubRes
  | [] => (s, [], .ok)
  | x :: xs =>
    let w := s.writeWaits (flaskDom j.flask) x.1 x.2.1.length
    if w.1 then
      let r := State.putParts w.2 j xs
      (r.1, x :: r.2.1, r.2.2)
    else
      let w := (s.land (.job j.flask j.binding) (flaskDom j.flask) x.1 x.2.1.length).hubWrite (flaskDom j.flask) .hub x.1 x.2.1
      if w.2 ≠ .ok then (w.1, [], w.2) else State.putParts w.1 j xs

/-- Tiles are written one after another, each with its token, while fewer than 64 tokens of the binding are held (R164); whether
the last one's token comes at once is a free choice (R18). -/
def State.putTiles (s : State) (j : Job) (r : FeedRec) : List (Nat × List Byte × Option Nat) →
    State × List (Nat × List Byte × Option Nat) × Option Nat × HubRes
  | [] => (s, [], none, .ok)
  | x :: xs =>
    if 64 ≤ s.heldTokens j.flask r.no then (s, x :: xs, none, .ok)
    else
      let w := (s.land (.job j.flask j.binding) (flaskDom j.flask) x.1 x.2.1.length).hubWrite (flaskDom j.flask) .hub x.1 x.2.1
      if w.2 ≠ .ok then (w.1, [], none, w.2)
      else if w.1.freeBit then
        State.putTiles (((w.1.took.landEnd (.job j.flask j.binding))).tileToken j r (x.2.2.getD 0)) j r xs
      else (w.1.took, xs, x.2.2, .ok)

/-- The output of a job has all been placed. -/
def State.finishJobOut (s : State) (j : Job) (r : FeedRec) (code : Status) : State :=
  if r.mode.toNat ≠ 1 ∧ code = St.success ∧ !(s.flask j.flask).st.leaving then (s.feedToken j.flask r (j.num % 65536)).endJob j code
  else s.endJob j code

/-- Placing a job's output goes on; `first` where it has only just been decoded. -/
def State.placeJob (s : State) (j : Job) (r : FeedRec) (o : JobOut) (first : Bool) : State :=
  let refused (s : State) : State := (s.refuse j.flask r j.num).endJob j St.accessFault
  if r.mode.toNat = 1 then
    let s := match o.tile with
      | none => s
      | some k => (s.landEnd (.job j.flask j.binding)).tileToken j r k
    let w := s.putTiles j r o.parts
    if w.2.2.2 ≠ .ok then refused w.1
    else if w.2.1.isEmpty ∧ w.2.2.1.isNone then w.1.finishJobOut j r o.code
    else w.1.setJob j { j with out := some ⟨w.2.1, w.2.2.1, o.code⟩ }
  else if space r.target.toNat = 5 then
    match j.leg, o.parts with
    | .done true, _ => s.finishJobOut j r o.code
    | .done false, _ => s.endJob j St.hostFault
    | .writing, _ => s
    | _, x :: _ => (s.setJob j { j with out := some o, leg := .writing }).askHost (.job j.flask j.binding) (flaskDom j.flask) x.1
        x.2.1.length (some x.2.1)
    | _, [] => s.finishJobOut j r o.code
  else
    let w := s.putParts j o.parts
    if w.2.2 ≠ .ok then refused w.1
    else if w.2.1.isEmpty ∧ (!first ∨ w.1.freeBit) then w.1.took.finishJobOut j r o.code
    else w.1.took.setJob j { j with out := some ⟨w.2.1, none, o.code⟩ }

/-- An access of a job to a host has ended. -/
def State.jobLeg (s : State) (f : FlaskId) (b : BitVec 12) (leg : HostLeg) : State :=
  { s with stor := { s.stor with jobs := s.stor.jobs.map fun j =>
      if j.flask = f ∧ j.binding = b ∧ (j.leg = .reading ∨ j.leg = .writing) then { j with leg := leg } else j } }

/-- INGEST_JOB_END: the input has been read, and what the decoder makes of it is placed; a job whose output is being placed goes on
with it. -/
def execIngestJobEnd (f : FlaskId) (binding : BitVec 12) (s : State) : Host.Outcome State Fault Refusal :=
  match s.stor.jobs.find? (fun j => j.flask == f && j.binding == binding && j.running) with
  | none => .next s
  | some j => match j.feed, j.out with
    | none, _ => .next s
    | some b, some o => .next (s.placeJob j b o false)
    | some b, none =>
      let go (s : State) (bs : List Byte) : State :=
        s.placeJob j b (JobOut.start ((s.flask f).clusters.length * 256) b (decodeJob b j bs)) true
      if 64 ≤ s.heldTokens f binding then .next s
      else if space j.src.toNat = 5 then
        match j.leg with
        | .got (some bs) => .next (go s bs)
        | .got none => .next (s.endJob j St.hostFault)
        | .idle => .next ((s.setJob j { j with leg := .reading }).askHost (.job f binding) (flaskDom f) j.src.toNat j.len none)
        | _ => .next s
      else if s.readWaits (flaskDom f) j.src.toNat then .next s
      else
        let q := s.hubRead (flaskDom f) .hub j.src.toNat j.len
        match q.2.2 with
        | .uncorrectable => .next (q.2.1.endJob j St.uncorrectable)
        | .outside => .next (q.2.1.endJob j St.accessFault)
        | .ok => .next (go q.2.1 q.1)

end Sys2Proof.Machine
end

