-- ==== Sys2Proof/Machine/Endpoint.lean ====
section
/-!
DEFINITION. Host endpoints: configuration, windows, outbound requests, interrupts, resets of the function and of the link,
host liveness, and the attention button (spec/09_host_endpoint.md, R283–R309; R340–R342).
-/

namespace Sys2Proof.Machine

def State.modEp (s : State) (e : Ep) (f : Endpoint → Endpoint) : State := s.setEp e (f (s.ep e))
/-- A `PCI.HE0_` register of endpoint e (R309). -/
def epReg (off : Nat) (e : Ep) : Nat := off + 0x100 * e.toNat
/-- Flasks bound to an endpoint. -/
def State.bound (s : State) (e : Ep) : List FlaskId := s.liveFlasks.filter fun f => decide ((s.flask f).host.toNat = e.toNat)

/-- An event for the owner and the flasks bound to an endpoint. -/
def State.postBound (s : State) (e : Ep) (code : BitVec 16) (data : List Byte) : State :=
  (s.bound e).foldl (fun s f => s.postFlask f code St.success 0xFFF data) (s.postOwner code St.success 0xFFF data)

/-- What was held pending leaves where it now may (R300, R301, R303). -/
def State.flushNotes (s : State) (e : Ep) : State :=
  let s := s.flushMsix e
  let x := s.ep e
  if x.noteHeld && x.noteEn && x.noteArmed && x.bme && !x.d3 && !x.flr && decide (x.speed ≠ 0) &&
      decide (s.ownerEp = some e) && !s.outPending e 0x100 then s.sendNote e
  else s

/-! ### How outbound requests end (R296, R302, R304) -/

/-- An answer on its way back to a core. -/
def State.answerProc (s : State) (p : Proc) (gen : Byte) (fa : BitVec 48) (seg : BitVec 3) (off : Word) (posted : Bool) (r : Reply) : State :=
  { s with fab := { s.fab with reps := s.fab.reps ++ [⟨p, gen, fa, seg, off, posted, r⟩] } }

/-- A move whose source or destination in a host fails ends there (R93). -/
def State.moveFail (s : State) (p : Proc) (gen : Byte) (slot : BitVec 2) : State :=
  if (s.core p).gen ≠ gen then s
  else (s.modCore p fun k => { k with moves := k.moves.set slot.toNat none slot.isLt
                                      moveErr := k.moveErr ++ [(slot, 0)] }).rerun p

/-- An outbound request ends with the error of the status. -/
def State.outFailed (s : State) (r : OutReq) (st : Status) : State :=
  match r.who with
  | .proc p gen seg off => s.answerProc p gen r.addr seg off false .bus
  | .move p gen slot line =>
    if r.data.isNone then s.moveFail p gen slot
    else if (s.core p).gen ≠ gen then s
    else (s.modCore p fun k => { k with moveErr := k.moveErr ++ [(slot, line)] }).rerun p
  | .drive id => s.driveOutDone id (some st) []
  | .place n psn => s.placeOutDone n psn true []
  | .frame port => s.frameLeg port (if r.data.isSome then .done false else .got none)
  | .job f b => s.jobLeg f b (if r.data.isSome then .done false else .got none)

/-- An outbound write has been transmitted, or is dropped without an error to its issuer. -/
def State.outWritten (s : State) (r : OutReq) : State :=
  match r.who with
  | .proc .. => s
  | .move p .. => s.rerun p
  | .drive id => s.driveOutDone id none []
  | .place n psn => s.placeOutDone n psn false []
  | .frame port => s.frameLeg port (.done true)
  | .job f b => s.jobLeg f b (.done true)

/-- The data of an outbound read have come. -/
def State.outData (s : State) (r : OutReq) (bytes : List Byte) : State :=
  match r.who with
  | .proc p gen seg off => s.answerProc p gen r.addr seg off false (.data ⟨BitVec.ofNat 32 (leNat (bytes.take r.len)), Tag.raw⟩)
  | .move p gen slot _ =>
    if (s.core p).gen ≠ gen then s
    else s.modCore p fun k => { k with moves := match k.moves[slot.toNat]'slot.isLt with
      | some m => k.moves.set slot.toNat (some { m with data := some bytes }) slot.isLt
      | none => k.moves }
  | .drive id => s.driveOutDone id none bytes
  | .place n psn => s.placeOutDone n psn false bytes
  | .frame port => s.frameLeg port (.got (some bytes))
  | .job f b => s.jobLeg f b (.got (some bytes))

/-- A core's request for a host as an outbound request; whether it is posted. -/
def memOut (r : MemReq) : OutReq × Bool :=
  let (len, data) := match r.op with
    | .load n => (n, none)
    | .store n v => (n, some ((Word.bytes v.payload).take n))
    | _ => (4, none)
  (⟨r.id, .proc r.issuer r.gen r.seg r.off, r.dom, r.addr, len, data⟩, r.posted)

/-- The domain's entry for a request (R296). -/
def State.outFit (s : State) (r : OutReq) : Bool :=
  let a := r.addr.toNat
  let o := s.outEntry (BitVec.ofNat 1 (a / 2 ^ 43)) (bits a 42 32)
  o.en && !o.dis && o.flask == r.dom && decide (a % 2 ^ 32 + r.len ≤ 2 ^ o.log2) && (if r.data.isSome then o.w else o.r)

/-- The writes of a flask that is HELD wait, and after `HOST.HOLD` are dropped; its reads likewise (R341). -/
def State.outHeld (s : State) (e : Ep) (dom : Domain) : Bool :=
  decide (dom.toNat < 256) && (s.live e).lapsed && decide ((s.flask (BitVec.ofNat 8 dom.toNat)).st = .held)

/-- What becomes of a request when it is looked at. -/
inductive OutAct where
  | wait | drop | deny | fail | send
  deriving DecidableEq, Repr

/-- R296, R302, R303, R304, R341: while the function is being reset, only writes are still sent. -/
def State.outAct (s : State) (e : Ep) (r : OutReq) : OutAct :=
  let x := s.ep e
  let write := r.data.isSome
  if s.outHeld e r.dom then
    (if (s.live e).holdOver then (if write then .drop else .fail) else .wait)
  else if !s.outFit r || decide (x.speed = 0) then (if write then .deny else .fail)
  else if x.d3 || (!x.bme && !x.flr) then .wait
  else if !write && (x.flr || decide (1024 ≤ x.reads.length)) then .wait
  else .send

/-- Whether a request of the endpoint that was held with this one, and came before it, is still to leave (R303, R342). -/
def State.heldBefore (s : State) (e : Ep) (id : Nat) : Bool :=
  let go (r : OutReq) : Bool := decide (r.id < id) && decide (s.outAct e r ≠ .wait)
  decide (id < (s.ep e).heldTo) && (((s.ep e).queue.any go) || s.fab.reqs.any fun m =>
    decide (space m.addr.toNat = 5) && decide (m.addr.toNat / 2 ^ 43 % 2 = e.toNat) && !s.stale m.issuer m.gen && go (memOut m).1)

/-- A request has left the queues: it is sent, or ends; what waited behind a write goes on (R299). -/
def State.outGo (s : State) (e : Ep) (r : OutReq) (posted : Bool) (act : OutAct) : State :=
  let o := s.outEntry e (bits r.addr.toNat 42 32)
  let a := BitVec.ofNat 64 (o.host + r.addr.toNat % 2 ^ 32)
  let ack (s : State) : State := match r.who with
    | .proc p gen seg off => s.answerProc p gen r.addr seg off posted .done
    | _ => s.outWritten r
  match act, r.data with
  | .wait, _ => s
  | .drop, _ => (ack (s.count Reg.hostDropped)).flushNotes e
  | .deny, _ =>
    (ack (s.postDom r.dom 0x0303 St.accessFault 0xFFF (evData [e.toNat * 2048 + bits r.addr.toNat 42 32]))).flushNotes e
  | .fail, _ => s.outFailed r St.hostFault
  | .send, some bs => (ack (s.emit (.hostWrite e a bs (o.ro && (s.ep e).devRo) (o.ns && (s.ep e).devNs)))).flushNotes e
  | .send, none =>
    let s := s.modEp e fun x => { x with reads := x.reads ++ [r] }
    s.emit (.hostRead e a r.len r.id (o.ns && (s.ep e).devNs))

/-- Requests of one issuer leave in order (R298). -/
def sameIssuer (a b : OutReq) : Bool :=
  match a.who, b.who with
  | .proc p .., .proc q .. => p == q
  | .move p .., .move q .. => p == q
  | .drive i, .drive j => i == j
  | .place n _, .place m _ => n == m
  | _, _ => false

/-- OUTBOUND_REQUEST: the request's turn comes at its endpoint. -/
def execOutboundRequest (req : Nat) (s : State) : Host.Outcome State Fault Refusal :=
  match s.fab.reqs.find? fun r => decide (r.id = req) && decide (space r.addr.toNat = 5) with
  | some m =>
    let s' := { s with fab := { s.fab with reqs := s.fab.reqs.filter fun r => decide (r.id ≠ req) } }
    let e : Ep := BitVec.ofNat 1 (m.addr.toNat / 2 ^ 43)
    if s.stale m.issuer m.gen then .next (s'.fenceDrop m.issuer)
    else if !s.memTurn m then .next s
    else
      let r := memOut m
      let act := s.outAct e r.1
      if act = .wait || s.heldBefore e req then .next s else .next (s'.outGo e r.1 r.2 act)
  | none =>
    match (([0, 1] : List Ep).flatMap fun e => (s.ep e).queue.map fun r => (e, r)).find? fun x => decide (x.2.id = req) with
    | none => .next s
    | some (e, r) =>
      let act := s.outAct e r
      let first := ((s.ep e).queue.takeWhile fun q => decide (q.id ≠ req)).all fun q => !sameIssuer q r
      if !first || act = .wait || s.heldBefore e req then .next s
      else .next ((s.modEp e fun x => { x with queue := x.queue.filter fun q => decide (q.id ≠ req) }).outGo e r false act)

/-- OUTBOUND_READ_COMPLETION: one that nothing waits for is unexpected (R304). -/
def execOutboundReadCompletion (ep : Ep) (req : Nat) (cpl : HostCpl) (s : State) : Host.Outcome State Fault Refusal :=
  match (s.ep ep).reads.find? fun r => decide (r.id = req) with
  | none => .next (s.count (epReg Reg.pciHe0Unexp ep))
  | some r =>
    let s := s.modEp ep fun x => { x with reads := x.reads.filter fun q => decide (q.id ≠ req) }
    match cpl with
    | .data bs => .next (s.outData r bs)
    | _ => .next (s.outFailed r St.hostFault)

/-- COMPLETION_TIMEOUT. -/
def execCompletionTimeout (ep : Ep) (req : Nat) (s : State) : Host.Outcome State Fault Refusal :=
  match (s.ep ep).reads.find? fun r => decide (r.id = req) with
  | none => .next s
  | some r => .next ((s.modEp ep fun x => { x with reads := x.reads.filter fun q => decide (q.id ≠ req) }).outFailed r St.hostFault)

/-! ### Function reset and link loss (R302, R304–R306) -/

/-- Outstanding reads are abandoned (R304, step 2). -/
def State.abandonReads (s : State) (e : Ep) : State :=
  (s.ep e).reads.foldl (fun s r => s.outFailed r St.abortedByReset) (s.modEp e fun x => { x with reads := [] })

/-- What domains that pass the test have not transmitted is squashed (R304, step 3; R307). -/
def State.squashOut (s : State) (e : Ep) (dom : Domain → Bool) : State :=
  let mine (r : MemReq) : Bool := decide (space r.addr.toNat = 5) && decide (r.addr.toNat / 2 ^ 43 % 2 = e.toNat) && dom r.dom
  let rs := s.fab.reqs.filter mine
  let q := (s.ep e).queue.filter fun r => dom r.dom
  let s := { s with fab := { s.fab with reqs := s.fab.reqs.filter fun r => !mine r } }
  let s := s.modEp e fun x => { x with queue := x.queue.filter fun r => !dom r.dom }
  let s := rs.foldl (fun s r => s.answerProc r.issuer r.gen r.addr r.seg r.off r.posted .bus) s
  (q.foldl (fun s r => s.outFailed r St.abortedByReset) s).flushNotes e

/-- The function's registers take their reset values (R304, step 5). -/
def Endpoint.resetFn (x : Endpoint) : Endpoint :=
  { x with bme := false, memSpace := false, devRo := true, devNs := true, cfg := [], d3 := false, flr := false, msix := []
           fnMask := false, msixEn := false, noteEn := false, noteHeld := false }

/-- Completions of reads that wait are discarded (R302, R304). -/
def State.dropCpls (s : State) (e : Ep) : State := s.modEp e fun x => { x with inq := x.inq.filter fun h => h.data.isSome }

/-- A flask whose reset or destruction drains. -/
def State.draining (s : State) (d : Domain) : Bool :=
  decide (d.toNat < 256) && (s.flask (BitVec.ofNat 8 d.toNat)).st.leaving

/-- INITIATE_FLR: steps 1 and 2; the host-bound writes of a flask that drains are squashed at once (R307). -/
def State.startFlr (s : State) (e : Ep) : State :=
  if (s.ep e).speed = 0 ∨ (s.ep e).flr then s
  else (((s.modEp e fun x => { x with flr := true }).dropCpls e).abandonReads e).squashOut e s.draining

def execInitiateFlr (ep : Ep) (s : State) : Host.Outcome State Fault Refusal := .next (s.startFlr ep)

/-- FLR_READY: steps 3 to 6. -/
def execFlrReady (ep : Ep) (s : State) : Host.Outcome State Fault Refusal :=
  if !(s.ep ep).flr then .next s
  else .next ((s.squashOut ep fun _ => true).modEp ep Endpoint.resetFn)

/-- The link is lost (R306). -/
def State.loseLink (s : State) (e : Ep) : State :=
  if (s.ep e).speed = 0 then s
  else
    let s := s.modEp e fun x => { x with speed := 0, width := 0, flit := false, downs := if x.downs = 0xFFFF then x.downs else x.downs + 1 }
    let s := (((s.dropCpls e).abandonReads e).squashOut e fun _ => true).modEp e Endpoint.resetFn
    s.postBound e 0x0304 (evData [e.toNat])

/-- LINK_DOWN. -/
def execLinkDown (ep : Ep) (s : State) : Host.Outcome State Fault Refusal := .next (s.loseLink ep)

/-- HOST_PERST: resets only the endpoint, as link loss does (R497). -/
def execHostPerst (ep : Ep) (s : State) : Host.Outcome State Fault Refusal := .next (s.loseLink ep)

/-- ENDPOINT_LINK_UP: at one of the rates and widths, 64.0 GT/s in FLIT mode only; in the cold-shut state only HE0, at x4 and 16.0 GT/s at most (R283, R285). -/
def execEndpointLinkUp (ep : Ep) (speed : BitVec 3) (width : BitVec 5) (flit : Bool) (s : State) :
    Host.Outcome State Fault Refusal :=
  let legal := decide (1 ≤ speed.toNat ∧ speed.toNat ≤ 6) && [1, 2, 4, 8, 16].contains width.toNat && (decide (speed ≠ 6) || flit)
  if s.phase = .off || (decide (s.phase = .coldShut) && (decide (ep ≠ 0) || decide (4 < speed.toNat ∨ 4 < width.toNat))) || !legal then
    .next s
  else .next (s.modEp ep fun x => { x with speed := speed, width := width, flit := flit }).ownerReturns

/-- Bus Master Enable is written; setting it releases what was held (R303). -/
def State.setBme (s : State) (e : Ep) (on : Bool) : State :=
  let s := s.modEp e fun x => { x with bme := on, heldTo := if on && !x.bme then s.fab.nextId else x.heldTo }
  if on then s.flushNotes e else s

/-- BUS_MASTER_ENABLE_CHANGE (R303). -/
def execBusMasterEnableChange (ep : Ep) (on : Bool) (s : State) : Host.Outcome State Fault Refusal :=
  if (s.ep ep).speed = 0 ∨ (s.ep ep).flr then .next s else .next (s.setBme ep on)

/-- The power state is written. -/
def State.setD3 (s : State) (e : Ep) (d3 : Bool) : State :=
  let s := s.modEp e fun x => { x with d3 := d3, heldTo := if !d3 && x.d3 then s.fab.nextId else x.heldTo }
  if d3 then s else s.flushNotes e

/-- POWER_STATE_CHANGE (R285). -/
def execPowerStateChange (ep : Ep) (d3 : Bool) (s : State) : Host.Outcome State Fault Refusal :=
  if (s.ep ep).speed = 0 ∨ (s.ep ep).flr then .next s else .next (s.setD3 ep d3)

/-! ### Configuration (R284) -/

/-- The VSEC dword (R284). -/
def State.vsec (s : State) (e : Ep) : Word :=
  BitVec.ofNat 32 (e.toNat + (if s.ownerEp = some e then 2 else 0) + (if s.phase = .coldShut then 4 else 0) + 0xA1 * 2 ^ 8)

/-- The read-only words of configuration space: identities, capability headers and what the capabilities say (R283, R284). The
places of the items within the standard capabilities, and the headers' identities, are the PCIe family's (PRESUMED, log entry 75). -/
def cfgRom : Nat → Option Nat
  | 0x00 => some 0x0A101F3C
  | 0x08 => some 0x120000A1
  | 0x28 | 0x30 | 0x38 => some 0
  | 0x2C => some 0x00011F3C
  | 0x34 => some 0x40
  | 0x40 => some 0x00035001       -- power management: D0 and D3hot, no PME
  | 0x50 => some 0x0002B010       -- Device/Port Type 0000
  | 0x54 => some 0x10008022       -- payload to 512 bytes, extended tags, function-level reset
  | 0x5C => some 0x00400906       -- to 64.0 GT/s and x16, ASPM L1
  | 0x74 => some 0x0003081F       -- completion timeout ranges A to D and disable, LTR, 10-bit tags
  | 0x7C => some 0x0000007E       -- all six rates
  | 0xB4 => some 0x00180000
  | 0xB8 => some 0x00188000
  | 0x100 => some 0x14820001
  | 0x148 => some 0x15810003
  | 0x158 => some 0x18810019
  | 0x188 => some 0x1B810026
  | 0x1B8 => some 0x1E01002A
  | 0x1E0 => some 0x20010031
  | 0x200 => some 0x22010032
  | 0x220 => some 0x23010018
  | 0x230 => some 0x24010025
  | 0x240 => some 0x2501002F
  | 0x244 => some 0x0000000E      -- 14-bit tag completer and requester, L0p
  | 0x250 => some 0x0001000B
  | 0x254 => some 0x01010001
  | _ => none

/-- The bits of a configuration word that a write sets, and that read back: those of the Command register, of the BARs by their
sizes (R286), of the control registers of the capabilities, and of AER's masks and severities. -/
def cfgMask : Nat → Word
  | 0x04 => 0x00000546
  | 0x0C => 0x000000FF
  | 0x10 => 0xFC000000
  | 0x14 => 0xFFFFFFFF
  | 0x1C => 0xFFFFFFF0
  | 0x20 => 0xFF000000
  | 0x24 => 0xFFFFFFFF
  | 0x3C => 0x000000FF
  | 0x58 => 0x00007FFF
  | 0x60 => 0x000000CF
  | 0x78 => 0x0000141F
  | 0x80 => 0x0000000F
  | 0x108 => 0x07FFF030
  | 0x10C => 0x07FFF030
  | 0x114 => 0x0000F1C1
  | 0x118 => 0x00000140
  | 0x15C => 0x0000FE03
  | 0x224 => 0x1FFF1FFF
  | 0x248 => 0x00000004
  | _ => 0

/-- What the writable bits hold after reset: Device Control lets Relaxed Ordering and No Snoop through, with reads of 512 bytes;
the target rate is the highest; AER's defaults. -/
def cfgInit : Nat → Word
  | 0x58 => 0x00002810
  | 0x80 => 0x00000006
  | 0x10C => 0x00462030
  | 0x114 => 0x00002000
  | _ => 0

/-- The bits that read the same whatever is written: the BARs' types (R286), AER's ECRC, and what the family fixes. -/
def cfgBase : Nat → Word
  | 0x04 => 0x00100000
  | 0x10 => 0x4
  | 0x18 => 0xC
  | 0x20 => 0x4
  | 0x118 => 0x000000A0
  | _ => 0

/-- Registers within the capabilities whose content the spec does not give, and that are not written. -/
def cfgOpen (off : Nat) : Bool :=
  decide ((0x160 ≤ off ∧ off < 0x188) ∨ (0x18C ≤ off ∧ off < 0x1B8) ∨ (0x1BC ≤ off ∧ off < 0x1E0) ∨ (0x1E4 ≤ off ∧ off < 0x200) ∨
    (0x204 ≤ off ∧ off < 0x220) ∨ (0x234 ≤ off ∧ off < 0x240) ∨ off = 0x24C)

/-- The writable bits of a configuration word: the table holds where they differ from their reset value. -/
def Endpoint.cfgKept (x : Endpoint) (off : Nat) : Word := Tab.get 0 x.cfg off ^^^ cfgInit off

/-- The writable bits of a configuration word are written. -/
def Endpoint.cfgSet (x : Endpoint) (off : Nat) (w : Word) : Endpoint :=
  { x with cfg := Tab.put 0 x.cfg off ((w &&& cfgMask off) ^^^ cfgInit off) }

/-- What a configuration read returns (R284); the rest of the space reads zero. -/
def State.cfgRead (s : State) (e : Ep) (off : Nat) : Word × State :=
  let x := s.ep e
  let bit (b : Bool) (n : Nat) : Word := if b then BitVec.ofNat 32 (2 ^ n) else 0
  match cfgRom off with
  | some v => (BitVec.ofNat 32 v, s)
  | none =>
    let kept := cfgBase off ||| x.cfgKept off
    match off with
    | 0x04 => (kept ||| bit x.memSpace 1 ||| bit x.bme 2, s)
    | 0x44 => (8 ||| (if x.d3 then 3 else 0), s)
    | 0x58 => ((kept &&& 0xFFFFF7EF) ||| bit x.devRo 4 ||| bit x.devNs 11, s)
    | 0x60 => (kept ||| BitVec.ofNat 32 (x.speed.toNat * 2 ^ 16 + x.width.toNat * 2 ^ 20), s)
    | 0xB0 => (BitVec.ofNat 32 (0x11 + 2047 * 2 ^ 16) ||| bit x.fnMask 30 ||| bit x.msixEn 31, s)
    | 0x14C => (s.identWord 0, s)
    | 0x150 => (s.identWord 1, s)
    | 0x258 => (s.vsec e, s)
    | _ => if cfgOpen off then (s.free.extractLsb' 0 32, s.took) else (kept, s)

/-- What a configuration write does; the power states D1 and D2 are not taken (R283). -/
def State.cfgWrite (s : State) (e : Ep) (off : Nat) (w : Word) : State :=
  let keep (s : State) : State :=
    if cfgMask off = 0 then s else s.modEp e fun x => x.cfgSet off w
  match off with
  | 0x04 =>
    let s := s.modEp e fun x => { x.cfgSet off (w &&& 0xFFFFFFF9) with memSpace := w.getLsbD 1 }
    s.setBme e (w.getLsbD 2)
  | 0x44 => if w.toNat % 4 = 3 then s.setD3 e true else if w.toNat % 4 = 0 then s.setD3 e false else s
  | 0x58 =>
    let s := (keep s).modEp e fun x => { x with devRo := w.getLsbD 4, devNs := w.getLsbD 11 }
    if w.getLsbD 15 then s.startFlr e else s
  | 0xB0 => (s.modEp e fun x => { x with fnMask := w.getLsbD 30, msixEn := w.getLsbD 31 }).flushNotes e
  | _ => keep s

/-- CONFIG_REQUEST: during a function reset it is answered with Request Retry Status (R304). -/
def execConfigRequest (ep : Ep) (offset : BitVec 12) (write : Option Word) (s : State) : Host.Outcome State Fault Refusal :=
  let off := offset.toNat / 4 * 4
  if (s.ep ep).speed = 0 then .next s
  else if (s.ep ep).flr then .next (s.emit (.completion ep .retry [] false))
  else match write with
    | some w => .next ((s.cfgWrite ep off w).emit (.completion ep .success [] false))
    | none =>
      let r := s.cfgRead ep off
      .next (r.2.emit (.completion ep .success (Word.bytes r.1) false))

/-! ### Windows (R288–R293) -/

/-- An inbound entry as the active table holds it. -/
structure InEntry where
  en : Bool
  r : Bool
  w : Bool
  roOk : Bool
  kind : Nat
  dis : Bool
  flask : FlaskId
  log2 : Nat
  base : Nat
  target : Nat
  deriving DecidableEq, Repr

def State.inEntry (s : State) (e : Ep) (i : Nat) : InEntry :=
  let w (k : Nat) : Word := Tab.get 0 (s.ep e).inActive (8 * i + k)
  ⟨(w 0).getLsbD 0, (w 0).getLsbD 1, (w 0).getLsbD 2, (w 0).getLsbD 3, bits (w 0).toNat 5 4, (w 0).getLsbD 6, (w 0).extractLsb' 8 8,
    bits (w 1).toNat 5 0, (w 2).toNat + (w 3).toNat * 2 ^ 32, (w 4).toNat + (w 5).toNat * 2 ^ 32⟩

/-- The enabled entries whose range holds an offset. -/
def State.inHits (s : State) (e : Ep) (o : Nat) : List InEntry :=
  (((s.ep e).inActive.filter fun x => x.1 % 8 == 0 && x.2.getLsbD 0).map fun x => s.inEntry e (x.1 / 8)).filter fun x =>
    x.en && !x.dis && decide (x.base ≤ o ∧ o < x.base + 2 ^ x.log2)

/-- Where a TLP goes: its domain and its address; none where it is turned away (R289, R275). -/
def State.inTarget (s : State) (x : InEntry) (o n : Nat) (write : Bool) : Option (Domain × Nat) :=
  let a := x.target + (o - x.base)
  if !(if write then x.w else x.r) || decide (x.base + 2 ^ x.log2 < o + n) then none
  else if x.kind = 0 then
    let fl := s.flask x.flask
    let d := flaskDom x.flask
    let ok := decide (space a < 3 ∧ a < 2 ^ 48) && inFlask s d a n && !fl.st.leaving &&
      (pieces (if space a = 2 then 2 ^ 28 else 4) n a n).all fun q => match translate s d q.1 with
        | some fa => faValid fa && homeOk s d fa
        | none => false
    if ok then some (d, a) else none
  else if x.kind = 1 then
    if x.target + 2 ^ x.log2 ≤ 2 ^ 28 then some (0x100, stagingBase + a) else none
  else none

/-! ### Inbound requests in their order (R297) -/

/-- Whether a looked-up request waits, for a key or a copy (R22, R232). -/
def State.inWaits (s : State) (h : InHeld) : Bool × State :=
  match h.data with
  | some bs => s.writeWaits h.dom h.addr.toNat bs.length
  | none => (s.readWaits h.dom h.addr.toNat, s)

/-- A looked-up request is performed (R289). -/
def State.inPerform (s : State) (ep : Ep) (h : InHeld) : State :=
  match h.data with
  | some bs => (s.hubWrite h.dom .host h.addr.toNat bs).1
  | none =>
    let r := s.hubRead h.dom .host h.addr.toNat h.len
    match r.2.2 with
    | .ok => r.2.1.emit (.completion ep .success r.1 h.ro)
    | .uncorrectable => r.2.1.emit (.completion ep .poisoned r.1 h.ro)
    | .outside => (s.count (epReg Reg.pciHe0Ur ep)).emit (.completion ep .unsupported [] h.ro)

/-- Whether an earlier request that waits comes first: for any but a write that may be overtaken, or one on its paths. -/
def State.inBehind (s : State) (ep : Ep) (h : InHeld) (free : Bool) : Bool :=
  let mine := s.pathsOf h.dom h.addr.toNat (h.data.getD []).length
  (s.ep ep).inq.any fun q => !free || q.data.isNone || (s.pathsOf q.dom q.addr.toNat (q.data.getD []).length).any mine.contains

/-- A request that has been looked up is performed, or waits with those before it. -/
def State.inArrive (s : State) (ep : Ep) (h : InHeld) (free : Bool) : State :=
  let hold (s : State) : State := s.modEp ep fun x => { x with inq := x.inq ++ [h] }
  if s.inBehind ep h free then hold s
  else
    let w := s.inWaits h
    if w.1 then hold w.2 else s.inPerform ep h

/-- Requests that waited are performed in their order, as far as they may be; the fuel is their number. -/
def State.inDrain (s : State) (ep : Ep) : Nat → State
  | 0 => s
  | n + 1 => match (s.ep ep).inq with
    | [] => s
    | h :: rest =>
      let w := s.inWaits h
      if w.1 then w.2
      else State.inDrain ((s.modEp ep fun x => { x with inq := rest }).inPerform ep h) ep n

/-- What the endpoints' requests waited for may have come. -/
def State.inResume (s : State) : State :=
  ([0, 1] : List Ep).foldl (fun s e => s.inDrain e (s.ep e).inq.length) s

/-- COW_COPY_COMPLETE (R22): a granule of 64 KiB, by fabric address ÷ 65,536. -/
def execCowCopyComplete (granule : BitVec 32) (s : State) : Host.Outcome State Fault Refusal :=
  let s := if s.mem.copying.contains granule.toNat then s.hubCount 0x06 (granuleDie granule.toNat) 1 else s
  .next { s with mem := s.mem.copyGranule granule.toNat }.inResume

/-- INBOUND_WRITE_TLP. -/
def execInboundWriteTlp (ep : Ep) (offset : BitVec 36) (bytes : List Byte) (ro : Bool) (s : State) :
    Host.Outcome State Fault Refusal :=
  let o := offset.toNat
  if !s.phase.serves || !s.reaches ep || bytes.isEmpty then .next s
  else match s.inHits ep o with
    | [] => .next (s.count (epReg Reg.pciHe0Drop ep))
    | [x] => match s.inTarget x o bytes.length true with
      | none => .next (s.count (epReg Reg.pciHe0Drop ep))
      | some (d, a) => .next (s.inArrive ep ⟨d, BitVec.ofNat 48 a, some bytes, bytes.length, ro⟩ (ro && x.roOk))
    | _ => .fault .windowOverlap

/-- INBOUND_READ_TLP: performed after every earlier posted write of the endpoint (R297). -/
def execInboundReadTlp (ep : Ep) (offset : BitVec 36) (len : BitVec 13) (ro : Bool) (s : State) :
    Host.Outcome State Fault Refusal :=
  let o := offset.toNat
  let ur (s : State) : State := (s.count (epReg Reg.pciHe0Ur ep)).emit (.completion ep .unsupported [] ro)
  if !s.phase.serves || !s.reaches ep then .next s
  else match s.inHits ep o with
    | [] => .next (ur s)
    | [x] => match s.inTarget x o len.toNat false with
      | none => .next (ur s)
      | some (d, a) => .next (s.inArrive ep ⟨d, BitVec.ofNat 48 a, none, len.toNat, ro⟩ false)
    | _ => .fault .windowOverlap

/-- INBOUND_ATOMICOP (R283). -/
def execInboundAtomicop (ep : Ep) (_offset : BitVec 36) (ro : Bool) (s : State) : Host.Outcome State Fault Refusal :=
  if !s.reaches ep then .next s else .next (s.emit (.completion ep .unsupported [] ro))

/-- A commit is in progress (R292). -/
def Endpoint.busy (x : Endpoint) : Bool := x.commitIn || x.commitOut

/-- A commit write: one in the interval is ignored (R291, R292). -/
def State.commit (s : State) (e : Ep) (i o : Bool) : State :=
  s.modEp e fun x => if x.busy then { x with collide := true } else { x with commitIn := i, commitOut := o }

/-- WIN_COMMIT_IN. -/
def execWinCommitIn (m : Master) (ep : Ep) (s : State) : Host.Outcome State Fault Refusal :=
  .next (s.ownerWrite m fun s => s.commit ep true false)

/-- WIN_COMMIT_OUT. -/
def execWinCommitOut (m : Master) (ep : Ep) (s : State) : Host.Outcome State Fault Refusal :=
  .next (s.ownerWrite m fun s => s.commit ep false true)

/-- COMMIT_POINT. -/
def execCommitPoint (ep : Ep) (s : State) : Host.Outcome State Fault Refusal :=
  let x := s.ep ep
  if !x.busy then .next s
  else
    let g := x.winGen + 1
    let s := s.setEp ep { x with
      inActive := if x.commitIn then x.inShadow else x.inActive
      outActive := if x.commitOut then x.outShadow else x.outActive
      commitIn := false, commitOut := false, winGen := g }
    .next (s.postOwner 0x0301 St.success 0xFFF (evData [ep.toNat, g.toNat]))

/-- The writable bits of a word of an entry (R288, R295). -/
def winMask (outbound : Bool) (w : Nat) : Word :=
  if outbound then (match w with
    | 0 => 0x0001FF1F
    | 1 => 0x3F
    | 2 => 0xFFFFF000
    | 3 => 0xFFFFFFFF
    | _ => 0)
  else match w with
    | 0 => 0x0000FF3F
    | 1 => 0x3F
    | 2 => 0xFFFFFFFF
    | 3 => 0xF
    | 4 => 0xFFFFFFFF
    | 5 => 0xFFFF
    | _ => 0

/-- The word that a write leaves: its writable bits, with `LOG2SIZE` within its range (R10). -/
def winValue (outbound : Bool) (w : Nat) (value : Word) : Word :=
  let v := value &&& winMask outbound w
  if w = 1 then BitVec.ofNat 32 (max 12 (min (if outbound then 32 else 36) v.toNat)) else v

/-- A shadow write of the owner (R291–R293). -/
def State.winWrite (s : State) (e : Ep) (outbound : Bool) (i w : Nat) (value : Word) : State :=
  let v := winValue outbound w value
  let direct := (s.reg (epReg Reg.winHe0Ctl e)).getLsbD 0
  s.modEp e fun x =>
    if x.busy then { x with late := true }
    else if outbound then { x with outShadow := Tab.put 0 x.outShadow (8 * i + w) v
                                   outActive := if direct then Tab.put 0 x.outActive (8 * i + w) v else x.outActive }
    else if i < 1024 then { x with inShadow := Tab.put 0 x.inShadow (8 * i + w) v
                                   inActive := if direct then Tab.put 0 x.inActive (8 * i + w) v else x.inActive }
    else x

/-- WIN_SHADOW_WRITE. -/
def execWinShadowWrite (m : Master) (ep : Ep) (outbound : Bool) (entry : BitVec 11) (word : BitVec 3) (value : Word)
    (s : State) : Host.Outcome State Fault Refusal :=
  .next (s.ownerWrite m fun s => s.winWrite ep outbound entry.toNat word.toNat value)

/-- The module disables an entry: `DIS` in the active copy, `EN` clear in the shadow, one commit point; the owner hears of
it (R273, R292). -/
def State.disableWin (s : State) (e : Ep) (outbound : Bool) (i : Nat) : State :=
  let dis : Word := if outbound then 0x20 else 0x40
  let off (t : Tab Word) : Tab Word := Tab.put 0 t (8 * i) (Tab.get 0 t (8 * i) &&& 0xFFFFFFFE)
  let on (t : Tab Word) : Tab Word := Tab.put 0 t (8 * i) (Tab.get 0 t (8 * i) ||| dis)
  let s := s.modEp e fun x => if outbound then { x with outShadow := off x.outShadow, outActive := on x.outActive, winGen := x.winGen + 1 }
    else { x with inShadow := off x.inShadow, inActive := on x.inActive, winGen := x.winGen + 1 }
  s.postOwner 0x0302 St.success 0xFFF (evData [e.toNat, i])

/-! ### Interrupts and notification (R300, R301) -/

/-- MSIX_VECTOR_CONTROL_WRITE: words 0 to 2 hold address and data, bit 0 of word 3 masks. -/
def execMsixVectorControlWrite (ep : Ep) (entry : BitVec 11) (word : BitVec 2) (value : Word) (s : State) :
    Host.Outcome State Fault Refusal :=
  if !s.phase.serves || !s.reaches ep || !(s.ep ep).inq.isEmpty then .next s
  else
    let x := s.ep ep
    let m := Tab.get MsixEntry.reset x.msix entry.toNat
    let a := m.addr.toNat
    let m := match word.toNat with
      | 0 => { m with addr := BitVec.ofNat 64 (a / 2 ^ 32 * 2 ^ 32 + value.toNat) }
      | 1 => { m with addr := BitVec.ofNat 64 (a % 2 ^ 32 + value.toNat * 2 ^ 32) }
      | 2 => { m with data := value }
      | _ => { m with masked := value.getLsbD 0 }
    .next ((s.setEp ep { x with msix := Tab.put MsixEntry.reset x.msix entry.toNat m }).flushMsix ep)

/-- Whether a write to an endpoint's notification registers takes effect (R287, R435). -/
def State.ownNote (s : State) (m : Master) (e : Ep) : Bool := decide (masterIndex m = e.toNat) || s.isOwner m

/-- The notification is rearmed. -/
def State.rearm (s : State) (e : Ep) : State := (s.modEp e fun x => { x with noteArmed := true }).flushNotes e

/-- ONOTE_ACK. -/
def execOnoteAck (m : Master) (ep : Ep) (s : State) : Host.Outcome State Fault Refusal :=
  if !s.phase.serves || !s.arrives m then .next s
  else if s.ownNote m ep then .next (s.rearm ep)
  else .next (s.observed m)

/-! ### Host liveness (R340–R342) -/

/-- HOST_BEAT. -/
def execHostBeat (m : Master) (n : Ep) (s : State) : Host.Outcome State Fault Refusal :=
  let l := s.live n
  if !s.phase.serves || !s.arrives m || decide (masterIndex m ≠ n.toNat) || !l.lapsed then .next s
  else
    let s := (s.setLive n { l with lapsed := false, holdOver := false }).modEp n fun x => { x with heldTo := s.fab.nextId }
    let s := (s.bound n).foldl (fun s f => if (s.flask f).st = .held then s.setFlask f { s.flask f with st := .running } else s) s
    .next (((s.flushNotes n).postBound n 0x0207 (evData [n.toNat])).ownerReturns)

/-- HOST_LIVENESS_LAPSE. -/
def execHostLivenessLapse (ep : Ep) (s : State) : Host.Outcome State Fault Refusal :=
  let l := s.live ep
  if !s.phase.serves || l.lapsed then .next s
  else
    let s := s.setLive ep { l with lapsed := true, holdOver := false, lapses := if l.lapses = 255 then 255 else l.lapses + 1 }
    let s := (s.bound ep).foldl (fun s f => if (s.flask f).st = .running then s.setFlask f { s.flask f with st := .held } else s) s
    .next (s.postBound ep 0x0206 (evData [ep.toNat]))

/-- HOST_HOLD_EXPIRY: what is held is dropped, and each flask is told how much. -/
def execHostHoldExpiry (ep : Ep) (s : State) : Host.Outcome State Fault Refusal :=
  let l := s.live ep
  if !l.lapsed || l.holdOver then .next s
  else
    let s := s.setLive ep { l with holdOver := true }
    let here (a : BitVec 48) (d : Domain) : Bool :=
      decide (space a.toNat = 5) && decide (a.toNat / 2 ^ 43 % 2 = ep.toNat) && s.outHeld ep d
    let rs := s.fab.reqs.filter fun r => here r.addr r.dom
    let q := (s.ep ep).queue.filter fun r => here r.addr r.dom
    let all := (rs.map memOut) ++ q.map fun r => (r, false)
    let fs := (s.bound ep).filter fun f => (s.flask f).st = .held
    let s := { s with fab := { s.fab with reqs := s.fab.reqs.filter fun r => !rs.contains r } }
    let s := s.modEp ep fun x => { x with queue := x.queue.filter fun r => !q.contains r }
    let s := all.foldl (fun s x => s.outGo ep x.1 x.2 (if x.1.data.isSome then .drop else .fail)) s
    .next (fs.foldl (fun s f =>
      let n := all.countP fun x => x.1.dom == flaskDom f && x.1.data.isSome
      if n = 0 then s else s.postFlask f 0x0208 St.success 0xFFF (evData [ep.toNat, n])) s)

/-! ### The attention button (R308) -/

/-- ATTENTION_BUTTON_PRESS. -/
def execAttentionButtonPress (sinceLastMs : Nat) (s : State) : Host.Outcome State Fault Refusal :=
  if sinceLastMs < 1000 then .next s
  else
    let v := s.reg Reg.pciAttn
    let n := (v.toNat / 2 ^ 16 + 1) % 2 ^ 16
    let s := s.setReg Reg.pciAttn (BitVec.ofNat 32 (n * 2 ^ 16 + v.toNat % 2 ^ 16 ||| 1))
    .next (s.postOwner 0x0305 St.success 0xFFF (evData [n]))

end Sys2Proof.Machine
end

