-- ==== Sys2Proof/Machine/Scorer.lean ====
section
/-!
DEFINITION. The block scorers: summaries, requests, scans and their results (spec/07_long_sequences.md, R238–R260).
-/

namespace Sys2Proof.Machine

/-! ### Exact arithmetic (R243, R250) -/

/-- The magnitude of a binary32 code in units of 2^−149. -/
def f32Mag (c : Nat) : Nat :=
  let e := c / 2 ^ 23
  let m := c % 2 ^ 23
  if e = 0 then m else (2 ^ 23 + m) * 2 ^ (e - 1)

/-- The least code whose magnitude is num ÷ den or more, of codes up to `top`; top + 1 where there is none. -/
def ceilCode (mag : Nat → Nat) (top num den k : Nat) : Nat :=
  let c := floorCode mag top num den k 0
  if mag c * den = num then c else c + 1

/-- m × 2^e rounded toward +∞ to binary32. -/
def ru32 (m e : Int) : Word :=
  let q := scaled m e 149
  if m < 0 then BitVec.ofNat 32 (2 ^ 31 + floorCode f32Mag 0x7F7FFFFF q.1 q.2 31 0)
  else BitVec.ofNat 32 (ceilCode f32Mag 0x7F7FFFFF q.1 q.2 31)

/-- √(n × 2^−254) rounded toward +∞ to binary32. -/
def ruSqrt (n : Nat) : Word := BitVec.ofNat 32 (ceilCode (fun c => f32Mag c ^ 2) 0x7F7FFFFF (n * 2 ^ 44) 1 31)

def posInf : Word := 0x7F800000
def negInf : Word := 0xFF800000

/-- A binary32 value that is not infinite, in units of 2^−149. -/
def f32Int (w : Word) : Int := withSign (w.getLsbD 31) (f32Mag (w.toNat % 2 ^ 31))

/-- a < b, of values that are not NaN. -/
def f32Lt (a b : Word) : Bool := decide (f32Int a < f32Int b)

def f32Max (a b : Word) : Word := if f32Lt a b then b else a

/-- `ru32(a + b)`. -/
def ruAdd (a b : Word) : Word := if a = posInf ∨ b = posInf then posInf else ru32 (f32Int a + f32Int b) (-149)

/-! ### Where things lie (R238, R240) -/

/-- Bytes of a summary record. -/
def ScorRec.recBytes (r : ScorRec) : Nat := r.d / 2 + r.d / 32 + 2
/-- Bytes of a head's array. -/
def ScorRec.arrayBytes (r : ScorRec) : Nat := (r.maxBlocks.toNat * r.recBytes + 4095) / 4096 * 4096
/-- The address of the record of a block. -/
def ScorRec.recAt (r : ScorRec) (h b : Nat) : Nat := r.sumBase.toNat + 4096 + h * r.arrayBytes + b * r.recBytes
/-- The address of a block area. -/
def ScorRec.areaAt (r : ScorRec) (h b : Nat) : Nat := r.kvBase.toNat + (b * r.heads.toNat + h) * (272 * r.d)

/-- The local channel that an address of LPDDR lies in. -/
def chanOf (s : State) (dom : Domain) (a : Nat) : Option Nat := (translate s dom a).map fun fa => (pathOf fa - 2 ^ 50) % 16
/-- The die that an address of LPDDR lies on. -/
def dieOf (s : State) (dom : Domain) (a : Nat) : Option Nat := (translate s dom a).map fun fa => bits fa 41 39

/-- A B4 element of packed elements. -/
def b4At (bs : List Byte) (i : Nat) : Int := signExt ((byteAt bs (i / 2)).toNat / 16 ^ (i % 2) % 16) 4

/-! ### Summaries (R241–R244) -/

/-- Element i of key t, in units of 2^−127. -/
def keyAt (d : Nat) (ks scales : List Byte) (t i : Nat) : Int :=
  b4At (ks.drop (t * (d / 2))) i * 2 ^ (byteAt scales (t * (d / 32) + i / 32)).toNat

/-- A summary record: centroid, scales and radius. -/
def recordBytes (codes scales : List Nat) (radius : Nat) : List Byte :=
  (chunks 2 codes.length codes).map (fun c => BitVec.ofNat 8 (c.getD 0 0 + 16 * c.getD 1 0)) ++
    scales.map (BitVec.ofNat 8) ++ leBytes 2 radius

/-- The centroid of a block's keys: its codes and scales. -/
def centroid (d : Nat) (ks scales : List Byte) : List (Nat × List Nat) :=
  (List.range (d / 32)).map fun j =>
    let v := (List.range 32).map fun i =>
      SrcVal.num (((List.range 256).map fun t => keyAt d ks scales t (32 * j + i)).foldl (· + ·) 0) (-135)
    let p := packBlock false .b4 0 v (fun _ => false) Engine.reset
    (p.scale, p.codes)

/-- The summary of a block (R243). -/
def summary (d : Nat) (ks scales : List Byte) : List Byte :=
  let c := centroid d ks scales
  let chat (i : Nat) : Int := let b := c.getD (i / 32) (0, []); signExt (b.2.getD (i % 32) 0) 4 * 2 ^ b.1
  let dist (t : Nat) : Nat := ((List.range d).map fun i => ((keyAt d ks scales t i - chat i) ^ 2).toNat).sum
  let r2 := ((List.range 256).map dist).foldl max 0
  let radius := if r2 = 0 then 1 else ceilCode (fun x => f16Mag x ^ 2) 0x7BFF r2 (2 ^ 206) 15
  recordBytes (c.flatMap (·.2)) (c.map (·.1)) radius

/-- The record of a block whose keys are lost (R244). -/
def failedRecord (d : Nat) : List Byte := recordBytes (List.replicate d 0) (List.replicate (d / 32) 127) 0x7C00

/-- The fill of a block: its keys are read, its record is written. -/
def State.fill (s : State) (f : FlaskId) (r : ScorRec) (h b : Nat) : State × HubRes :=
  let dom := flaskDom f
  let a := r.areaAt h b
  let k := s.hubRead dom .hub a (128 * r.d)
  let c := k.2.1.hubRead dom .hub (a + 256 * r.d) (8 * r.d)
  let s := c.2.1
  let res := k.2.2.and c.2.2
  if res = .outside then (s, .outside)
  else
    let bad := decide (res = .uncorrectable) || c.1.contains 0xFF
    let w := s.hubWrite dom .hub (r.recAt h b) (if bad then failedRecord r.d else summary r.d k.1 c.1)
    (if bad then w.1.postFlask f 0x0108 St.uncorrectable 0xFFF (evData [r.region.toNat, h, b]) else w.1, w.2)

/-- The record of a region that is in force. -/
def State.scorRec (s : State) (f : FlaskId) (region : BitVec 16) : Option ScorRec :=
  match (s.flask f).mould with
  | none => none
  | some m => m.scors.find? fun r => r.region == region

/-- What reached a channel of a die before a place in the order of R255, and is not over: requests with their list still to come,
requests still to be checked, and fills. -/
def State.chanBusy (s : State) (die ch : Option Nat) (seq : Nat) : Bool :=
  (s.scor.any fun q => decide (q.seq < seq) && decide (dieOf s (flaskDom q.flask) q.scor.sumBase.toNat = die) &&
    q.left.any fun c => decide (some c = ch)) ||
  (s.asks.any fun q => decide (q.seq < seq) && decide (dieOf s (flaskDom q.flask) q.scor.sumBase.toNat = die)) ||
  s.fills.any fun q => decide (q.seq < seq) && decide (dieOf s (flaskDom q.flask) q.scor.sumBase.toNat = die) &&
    decide (chanOf s (flaskDom q.flask) (q.scor.recAt q.head q.block) = ch)

/-- SUMMARY_FILL: the fill that a write has asked for, in its turn (R242, R255); it waits for a key, and for the copy of a frozen
granule (R22, R260). -/
def execSummaryFill (f : FlaskId) (region : BitVec 16) (head : BitVec 6) (block : BitVec 16) (s : State) :
    Host.Outcome State Fault Refusal :=
  match s.fills.find? fun q => q.flask == f && q.scor.region == region && decide (q.head = head.toNat ∧ q.block = block.toNat) with
  | none => .next s
  | some q =>
    let dom := flaskDom f
    let a := q.scor.recAt q.head q.block
    if s.chanBusy (dieOf s dom q.scor.sumBase.toNat) (chanOf s dom a) q.seq || s.readWaits dom a then .next s
    else
      let w := s.writeWaits dom a q.scor.recBytes
      if w.1 then .next w.2
      else .next ({ s with fills := s.fills.erase q }.fill f q.scor q.head q.block).1

/-! ### Requests (R246–R249) -/

/-- A request record (R247). -/
structure ScoreRec where
  op : Nat
  head : Nat
  group : Nat
  k : Nat
  blocks : Nat
  core : Nat
  port : Nat
  query : Nat
  result : Nat
  resv : Bool
  deriving DecidableEq, Repr

def scoreRec (bs : List Byte) : ScoreRec :=
  let n (o k : Nat) : Nat := leNat ((bs.drop o).take k)
  ⟨n 0 1, n 1 1, n 2 1, n 4 2, n 8 4, n 0xC 4, n 0x10 1, n 0x18 8, n 0x20 8,
    decide (n 3 1 + n 6 2 + n 0x11 7 + n 0x28 24 = 0)⟩

/-- The two maintenance ops (R254). -/
def ScoreRec.upkeep (q : ScoreRec) : Bool := decide (q.op = 1 ∨ q.op = 2)

/-- The blocks asked for; the bytes from one list to the next (R252). A maintenance op's `K` is ignored, and taken as 0
(DESIGN CHOICE, log entry 145: R254 gives its lists no other length). -/
def ScoreRec.want (q : ScoreRec) (r : ScorRec) : Nat := if q.k = 0 ∨ q.upkeep then orDefault r.topK.toNat 64 else q.k
def ScoreRec.stride (q : ScoreRec) (r : ScorRec) : Nat := 64 + (8 * q.want r + 63) / 64 * 64
/-- The bytes of a query vector (R248). -/
def vecBytes (d : Nat) : Nat := 4 * ((33 * d + 127) / 128)

/-- Whether the 16 lists lie wholly inside one core store or one cluster store of the flask. -/
def listsFit (s : State) (dom : Domain) (q : ScoreRec) (r : ScorRec) : Bool :=
  let n := 16 * q.stride r
  let size := if space q.result = 0 then 2 ^ 13 else 2 ^ 18
  decide (space q.result < 2 ∧ q.result < 2 ^ 48 ∧ q.result % 64 = 0 ∧ q.result % size + n ≤ size) && inFlask s dom q.result n

/-- Fields out of range, and reserved fields not zero; a maintenance op ignores the query's fields (R249, R254). -/
def ScoreRec.legal (q : ScoreRec) (r : ScorRec) : Bool :=
  decide (q.op ≤ 2) && decide (q.blocks ≤ r.maxBlocks.toNat) && q.resv && decide (q.port ≤ 7) &&
    (q.upkeep || (decide (q.head < r.heads.toNat) && decide (1 ≤ q.group ∧ q.group ≤ 8) && decide (q.k ≤ 1024) &&
      decide (q.query % 4 = 0)))

/-- The query of a request, or the status that its lists carry. -/
def State.readQuery (s : State) (dom : Domain) (q : ScoreRec) (r : ScorRec) : State × Status × List Byte :=
  let n := q.group * vecBytes r.d
  if q.upkeep then (s, St.success, [])
  else if decide (3 ≤ space q.query ∨ 2 ^ 48 ≤ q.query) || !inFlask s dom q.query n then (s, St.accessFault, [])
  else
    let x := s.hubRead dom .hub q.query n
    match x.2.2 with
    | .outside => (x.2.1, St.accessFault, [])
    | .uncorrectable => (x.2.1, St.uncorrectable, [])
    | .ok =>
      let bad := (List.range q.group).any fun g => ((x.1.drop (g * vecBytes r.d)).take (r.d / 32)).contains 0xFF
      (x.2.1, if bad then St.malformed else St.success, x.1)

/-- The control channel checks a request (R249). -/
def State.checkScore (s : State) (a : ScoreAsk) : State :=
  let f := a.flask
  let r := a.scor
  let dom := flaskDom f
  let q := scoreRec a.line
  if (coreRef s f q.core).isNone then s.postFlask f 0x0109 St.accessFault 0xFFF (evData [r.region.toNat, a.slot.toNat])
  else
    let fit := listsFit s dom q r
    let x : State × Status × List Byte :=
      if !fit then (s, St.accessFault, [])
      else if r.mode ≠ 0 then (s, St.denseRegion, [])
      else if !q.legal r then (s, St.malformed, [])
      else s.readQuery dom q r
    { x.1 with scor := x.1.scor ++ [⟨f, r.region, a.slot, r, a.line, x.2.2, fit, x.2.1, List.range 16, a.seq⟩] }

/-- A request that a write has asked for is checked at the control channel; `ops` are those of the row. -/
def State.submit (s : State) (f : FlaskId) (region : BitVec 16) (slot : BitVec 6) (ops : Nat → Bool) : Answer :=
  match s.asks.find? fun a => a.flask == f && a.scor.region == region && a.slot == slot with
  | none => .next s
  | some a =>
    if s.readWaits (flaskDom f) a.scor.sumBase.toNat || !ops (scoreRec a.line).op then .next s
    else .next ((State.tap { s with asks := s.asks.erase a } 7 (flaskDom f)).checkScore a)

/-- SCORER_SCORE: every op but the two of maintenance. -/
def execScorerScore (f : FlaskId) (region : BitVec 16) (slot : BitVec 6) (s : State) : Host.Outcome State Fault Refusal :=
  s.submit f region slot fun op => decide (op ≠ 1 ∧ op ≠ 2)

/-- SCORER_RESET. -/
def execScorerReset (f : FlaskId) (region : BitVec 16) (slot : BitVec 6) (s : State) : Host.Outcome State Fault Refusal :=
  s.submit f region slot fun op => decide (op = 1)

/-- SCORER_REBUILD. -/
def execScorerRebuild (f : FlaskId) (region : BitVec 16) (slot : BitVec 6) (s : State) : Host.Outcome State Fault Refusal :=
  s.submit f region slot fun op => decide (op = 2)

/-! ### Scans (R250–R255) -/

/-- The bound of a record; a radius that no scorer writes gives a free bound (R241, R250). -/
def boundOf (d : Nat) (query rec : List Byte) (group : Nat) (open_ : Word) : Word :=
  let radius := leNat ((rec.drop (d / 2 + d / 32)).take 2)
  let c (i : Nat) : Int := b4At rec i * 2 ^ (byteAt rec (d / 2 + i / 32)).toNat
  if 0x7C00 < radius then open_
  else (List.range group).foldl (fun best g =>
    let v := query.drop (g * vecBytes d)
    let q (i : Nat) : Int := signExt (byteAt v (d / 32 + i)).toNat 8 * 2 ^ (byteAt v (i / 32)).toNat
    let dot := ru32 (((List.range d).map fun i => q i * c i).foldl (· + ·) 0) (-254)
    let nq := ruSqrt (((List.range d).map fun i => (q i ^ 2).toNat).sum)
    let term := if nq = 0 then 0 else if nq = posInf ∨ radius = 0x7C00 then posInf
      else ru32 (f32Int nq * f16Mag radius) (-173)
    f32Max best (ruAdd dot term)) negInf

/-- What a channel has found: bounds and blocks, empty records, and how its reading went. -/
structure ScanRes where
  found : List (Word × Nat)
  empty : Nat
  done : Nat
  res : HubRes
  deriving DecidableEq, Repr

/-- An entry put in the order of R251. -/
def insertBound (x : Word × Nat) : List (Word × Nat) → List (Word × Nat)
  | [] => [x]
  | y :: r => if f32Lt y.1 x.1 then x :: y :: r else y :: insertBound x r

/-- One record of a scan. -/
def State.scanRec (s : State) (q : ScoreReq) (c : ScoreRec) (x : ScanRes) (b : Nat) : State × ScanRes :=
  let d := q.scor.d
  let r := s.hubRead (flaskDom q.flask) .hub (q.scor.recAt c.head b) q.scor.recBytes
  if r.2.2 ≠ .ok then (r.2.1, { x with res := x.res.and r.2.2 })
  else if leNat ((r.1.drop (d / 2 + d / 32)).take 2) = 0 then (r.2.1, { x with empty := x.empty + 1 })
  else
    let s := r.2.1
    (s.took, { x with found := insertBound (boundOf d q.query r.1 c.group (s.free.extractLsb' 0 32), b) x.found, done := x.done + 1 })

/-- The blocks of a head whose records a channel owns. -/
def ownedBlocks (s : State) (f : FlaskId) (r : ScorRec) (ch h lo hi : Nat) : List Nat :=
  (List.range hi).filter fun b => decide (lo ≤ b) && decide (chanOf s (flaskDom f) (r.recAt h b) = some ch)

/-- A channel's part of a request. -/
def State.scan (s : State) (q : ScoreReq) (ch : Nat) : State × ScanRes :=
  let c := scoreRec q.line
  let f := q.flask
  let r := q.scor
  let none' : ScanRes := ⟨[], 0, 0, .ok⟩
  let heads := List.range r.heads.toNat
  if c.op = 1 then
    let todo := heads.flatMap fun h => (ownedBlocks s f r ch h c.blocks r.maxBlocks.toNat).map fun b => (h, b)
    todo.foldl (fun x y =>
      let w := x.1.hubWrite (flaskDom f) .hub (r.recAt y.1 y.2 + r.d / 2 + r.d / 32) [0, 0]
      (w.1, { x.2 with done := x.2.done + 1, res := x.2.res.and w.2 })) (s, none')
  else if c.op = 2 then
    let todo := heads.flatMap fun h => (ownedBlocks s f r ch h 0 c.blocks).map fun b => (h, b)
    todo.foldl (fun x y =>
      let w := x.1.fill f r y.1 y.2
      (w.1, { x.2 with done := x.2.done + 1, res := x.2.res.and w.2 })) (s, none')
  else (ownedBlocks s f r ch c.head 0 c.blocks).foldl (fun x b => x.1.scanRec q c x.2 b) (s, none')

/-- Words with their tags, written by a scorer at a flask address in tagged memory. -/
def State.hubTagged (s : State) (dom : Domain) (a : Nat) : List TWord → State
  | [] => s
  | w :: ws =>
    let s := match translate s dom a with
      | none => s
      | some fa =>
        if !(faValid fa && homeOk s dom fa) then s
        else (s.replaceWord (fa / 4) w .hub .stored).wrote fa none
    State.hubTagged s dom (a + 4) ws

/-- The words of a result list (R252). -/
def listWords (st : Status) (k : Nat) (x : ScanRes) : List TWord :=
  let i (n : Nat) : TWord := ⟨BitVec.ofNat 32 n, Tag.int⟩
  let f (w : Word) : TWord := ⟨w, Tag.f32⟩
  let ok := decide (st = St.success)
  let top := if ok then x.found.take k else []
  let next : Word := if !ok then 0 else ((x.found.drop k).head?.map (·.1)).getD negInf
  [i (top.length + st.toNat * 2 ^ 16), i (k % 2 ^ 16), i (if ok then x.done else 0), f next, i (if ok then x.empty else 0)] ++
    List.replicate 11 (i 0) ++ top.flatMap fun e => [f e.1, i e.2]

/-- `STATUS` of a scorer's token (R253). -/
def scoreStatus (st : Status) : Nat :=
  if st = St.success then 0 else if st = St.denseRegion then 1 else if st = St.uncorrectable then 2
  else if st = St.accessFault then 3 else 4

/-- Tokens of a region that the hub holds (R253). -/
def State.heldScores (s : State) (f : FlaskId) (region : BitVec 16) : Nat :=
  s.fab.tokens.countP fun t => t.flask == f && decide (t.w.toNat / 2 ^ 28 = 3) && decide (t.w.toNat / 2 ^ 16 % 2 ^ 12 = region.toNat % 4096)

/-- Whether a request's turn has come in a channel: what reached it before is over (R255). -/
def State.scanTurn (s : State) (q : ScoreReq) (ch : Nat) : Bool :=
  !s.chanBusy (dieOf s (flaskDom q.flask) q.scor.sumBase.toNat) (some ch) q.seq

/-- SCORER_SCAN_COMPLETE: the channel's list is written, then its token is issued (R252, R253, R260). -/
def execScorerScanComplete (f : FlaskId) (region : BitVec 16) (slot : BitVec 6) (channel : BitVec 4) (s : State) :
    Host.Outcome State Fault Refusal :=
  let ch := channel.toNat
  match s.scor.find? fun q => q.flask == f && q.region == region && q.slot == slot with
  | none => .next s
  | some q =>
    if !q.left.contains ch || !s.scanTurn q ch || s.readWaits (flaskDom f) q.scor.sumBase.toNat ||
        decide (1024 ≤ s.heldScores f region) then .next s
    else
      let c := scoreRec q.line
      let x := if q.status = St.success then s.scan q ch else (s, ⟨[], 0, 0, .ok⟩)
      let st := if q.status ≠ St.success then q.status
        else match x.2.res with
          | .ok => St.success
          | .outside => St.accessFault
          | .uncorrectable => St.uncorrectable
      let s := if q.lists then x.1.hubTagged (flaskDom f) (c.result + ch * c.stride q.scor) (listWords st (c.want q.scor) x.2) else x.1
      let q' := { q with left := q.left.filter (· ≠ ch) }
      let s := { s with scor := if q'.left.isEmpty then s.scor.erase q else s.scor.map fun y => if y = q then q' else y }
      let info := slot.toNat + ch * 2 ^ 6 + scoreStatus st * 2 ^ 10
      match coreRef s f c.core with
      | some core => .next (s.issueToken f (region.extractLsb' 0 12) core (BitVec.ofNat 3 c.port)
          (tokenWord 3 (region.toNat % 4096) info))
      | none => .next (if q'.left.isEmpty then s.postFlask f 0x0109 St.accessFault 0xFFF (evData [region.toNat, slot.toNat]) else s)

end Sys2Proof.Machine
end

