-- ==== Sys2Proof/Machine/Mirror.lean ====
section
/-!
DEFINITION. Messages to the twin peer, and what a module mirrors of its state (R455, R462).
-/

namespace Sys2Proof.Machine

/-- The epoch under which the module sends: while pairing, that of epoch 1 (R459). -/
def Twin.sendEpoch (t : Twin) : Word := if t.st = .pairing then 1 else t.epoch

/-- A message leaves for the peer, numbered in its direction and tagged (R455), its flask data and keys sealed (R456). -/
def State.twinSend (s : State) (b : TwinBody) : State :=
  if s.twin.kp.isNone || !s.twin.link then s
  else
    let s := s.readTrip .pairEpoch
    let e := s.twin.sendEpoch
    let x := s.sealBody e s.twin.seqOut b
    { s.emit (.twin e s.twin.seqOut x (s.linkTag s.twin.roleB e s.twin.seqOut x)) with twin := { s.twin with seqOut := s.twin.seqOut + 1 } }

/-- Messages leave for the peer one after another. -/
def State.twinStream (s : State) (bs : List TwinBody) : State :=
  if s.twin.kp.isNone || !s.twin.link then s
  else
    let s := s.readTrip .pairEpoch
    let e := s.twin.sendEpoch
    let n := s.twin.seqOut
    let put (x : TwinBody × Nat) : Out :=
      let b := s.sealBody e (n + x.2) x.1
      .twin e (n + x.2) b (s.linkTag s.twin.roleB e (n + x.2) b)
    { s with out := s.out ++ bs.zipIdx.map put, twin := { s.twin with seqOut := n + bs.length } }

/-- The name of an item. -/
def itemSel : MirrorItem → MirrorSel
  | .pair .. => .pair
  | .flask f .. => .flask f
  | .key f _ => .key f
  | .moulds f .. => .moulds f
  | .heads l .. => .heads l
  | .qp n .. => .qp n
  | .index a n f _ => .index a n f
  | .setup f .. => .setup f
  | .mac p _ => .mac p
  | .rules _ => .rules
  | .srcIp .. => .srcIp
  | .flaskNet f .. => .flaskNet f

/-- The quotas and settings of a flask, as `CREATE` would give them. -/
def Flask.createP (fl : Flask) (f : FlaskId) : CreateP :=
  ⟨f.setWidth 16, fl.host.setWidth 8, BitVec.ofNat 8 fl.vectors, BitVec.ofNat 8 fl.nladles, 0, BitVec.ofNat 32 fl.qpQuota,
    BitVec.ofNat 32 fl.mrQuota, BitVec.ofNat 32 fl.shQuota, fl.drainUs.setWidth 32⟩

/-- The configuration of a flask's ladles, as `LADLE_CONFIG` would give it. -/
def Flask.ladlePs (fl : Flask) (f : FlaskId) : List LadleP :=
  (fl.ladles.filter (·.2.enabled)).map fun e =>
    ⟨f.setWidth 16, BitVec.ofNat 8 e.1, e.2.vector, BitVec.ofNat 8 e.2.sqLog2, BitVec.ofNat 8 e.2.cqLog2, 0,
      e.2.sqBase.setWidth 64, e.2.cqBase.setWidth 64, e.2.timeoutMs⟩

/-- A classifier rule's sixteen words (R349). -/
def State.ruleWords (s : State) (i : Nat) : List Word := (List.range 16).map fun w => Tab.get 0 s.net.rules (16 * i + w)


/-- The positions of the bits set in a word. -/
def bitsSet (n : Nat) (w : Word) : List Nat := (List.range n).filter fun i => w.getLsbD i

/-- An item of the module's own state. -/
def State.mirrorItem (s : State) : MirrorSel → MirrorItem
  | .pair => .pair s.twin.epoch (if s.own.valid then some (s.own.master, s.own.nonce) else none)
  | .flask f => .flask f (decide ((s.flask f).st ≠ .free)) ((s.flask f).createP f) ((s.flask f).ladlePs f) (s.flask f).policy
  | .key f => .key f (leBytes 64 (s.ownKey f).toNat)
  | .moulds f => .moulds f (s.flask f).mouldBytes (s.flask f).rot (((s.flask f).mould.map fun m => m.measure).getD 0)
  | .heads l =>
    let d := s.ladle l
    .heads l d.sqHead d.cqTail d.gen
  | .qp n =>
    let q := Tab.get Qp.reset s.xport.qps n
    .qp n q.flask (decide (q.st ≠ .free)) q.conn q.cc
  | .index a n f => .index a n f ((s.ing.slots.find? fun x => decide (x.area = a ∧ x.slot = n) && x.flask == f).bind (·.ingot))
  | .setup f =>
    let p := (s.flask f).setup
    .setup f p (p.map fun p => (Tab.get (KeySlot.empty 0x1FF) s.sec.slots p.keySlot.toNat).key)
  | .mac p => .mac p (BitVec.ofNat 48 ((s.reg (Reg.netPnMacLo + 256 * p.toNat)).toNat +
      (s.reg (Reg.netPnMacHi + 256 * p.toNat)).toNat % 2 ^ 16 * 2 ^ 32))
  | .rules =>
    let r := s.reg Reg.twinRules
    .rules ((List.range (bits r.toNat 29 16)).filterMap fun i =>
      if bits r.toNat 12 0 + i < 8192 then some (s.ruleWords (bits r.toNat 12 0 + i)) else none)
  | .srcIp =>
    let out := s.reg Reg.twinSrcip
    .srcIp (out.extractLsb' 0 16) ((bitsSet 16 out).map s.srcIpWords)
  | .flaskNet f =>
    let o := 16 * f.toNat
    .flaskNet f (s.reg (Reg.netFlaskTx + o)) (s.reg (Reg.netFlaskMacLo + o)) (s.reg (Reg.netFlaskMacHi + o))

/-- In PAIRED an item is sent to the peer. -/
def State.mirrorNow (s : State) (x : MirrorSel) : State :=
  if s.twin.st = .paired then s.twinSend (.mirror (s.mirrorItem x)) else s

/-- A slot has changed: the setups whose key it holds are mirrored. -/
def State.mirrorSlot (s : State) (i : Nat) : State :=
  ((s.flasks.filter fun e => match e.2.setup with
    | some p => decide (p.keySlot.toNat = i)
    | none => false).map fun e => (BitVec.ofNat 8 e.1 : FlaskId)).foldl (fun s f => s.mirrorNow (.setup f)) s

/-- The keys that the peer has mirrored are zeroised (R475). -/
def State.forgetMirroredKeys (s : State) : State :=
  let kept := s.twin.mirror.filter fun x => match x with
    | .key .. => false
    | _ => true
  let bare := kept.map fun x => match x with
    | .setup f p _ => .setup f p none
    | x => x
  { s with twin := { s.twin with mirror := bare } }

end Sys2Proof.Machine
end

