-- ==== Sys2Proof/Machine/Security.lean ====
section
/-!
DEFINITION. Identity, attestation, key slots, check values, registered keys, breakout and debug unlock
(spec/14_security_and_ownership.md, R416–R432, R442–R453).
-/

namespace Sys2Proof.Machine

namespace SecSt
def slotBusy : Status := 0x00B0
def slotEmpty : Status := 0x00B1
def keyScope : Status := 0x00B2
def keyUsage : Status := 0x00B3
def unwrapFailed : Status := 0x00B4
def cvMismatch : Status := 0x00B5
def held : Status := 0x00B6
def notProvisioned : Status := 0x00B7
def triggerActive : Status := 0x00B8
end SecSt

/-! ### Key slots (R424–R428) -/

def State.slot (s : State) (i : Nat) : KeySlot := Tab.get (KeySlot.empty 0x1FF) s.sec.slots i
def State.setSlot (s : State) (i : Nat) (k : KeySlot) : State :=
  ({ s with sec := { s.sec with slots := Tab.put (KeySlot.empty 0x1FF) s.sec.slots i k
                                lostSlots := s.sec.lostSlots.filter (· ≠ i) } }).writeTrip (.keySlot (BitVec.ofNat 9 i))
/-- Whether the slot's header has no majority: requests that name it complete with UNCORRECTABLE (R225). -/
def State.slotLost (s : State) (i : Nat) : Bool := s.sec.lostSlots.contains i
def KeySlot.loaded (k : KeySlot) : Bool := decide (k.type ≠ 0)
/-- A slot zeroised; it stays assigned. -/
def State.clearSlot (s : State) (i : Nat) : State := s.setSlot i (KeySlot.empty (s.slot i).assigned)
/-- A slot whose header is lost is treated as empty (R225). -/
def State.loseSlot (s : State) (i : Nat) : State :=
  let s := s.clearSlot i
  { s with sec := { s.sec with lostSlots := s.sec.lostSlots ++ [i] } }

/-- A slot that a command's issuer may name: one assigned to it; the admin ladle any slot in `KEY_UNWRAP` (R427). -/
def State.slotMine (s : State) (l : LadleRef) (i : Nat) : Bool :=
  decide (i < 512) && decide ((s.slot i).assigned = ladleDom l)

/-- Where a command's bytes lie: a flask address, or an offset in the staging area (R421, R426, R429). -/
def cmdAddr (l : LadleRef) (a : BitVec 64) : Nat :=
  match l with
  | .admin => stagingBase + a.toNat % 2 ^ 28
  | .flask _ _ => a.toNat

/-- Whether n bytes there may be used. -/
def State.cmdRange (s : State) (l : LadleRef) (a : BitVec 64) (n : Nat) : Bool :=
  match l with
  | .admin => decide (a.toNat % 2 ^ 28 + n ≤ 2 ^ 28)
  | .flask .. => decide (a.toNat < 2 ^ 48 ∧ space a.toNat < 3) && inFlask s (ladleDom l) a.toNat n

/-- The checks of R427 that come before the unwrapping, in order. -/
def State.unwrapFirst (s : State) (h : CmdHdr) (p : UnwrapP) : Option Status :=
  let admin := decide (h.ladle = .admin)
  let duk := decide (p.wrap = 0xFFFF)
  let w := s.slot p.wrap.toNat
  let t := s.slot p.target.toNat
  let names (i : Nat) : Bool := if admin then decide (i < 512) else s.slotMine h.ladle i
  if s.breakout then some SecSt.held
  else if s.slotLost p.target.toNat || (!duk && s.slotLost p.wrap.toNat) then some St.uncorrectable
  else if !names p.target.toNat || (if duk then !admin else !names p.wrap.toNat) then some SecSt.keyScope
  else if duk && s.sec.duk.isNone then some SecSt.notProvisioned
  else if !duk && !w.loaded then some SecSt.slotEmpty
  else if !duk && !w.usage.getLsbD 0 then some SecSt.keyUsage
  else if t.loaded && !h.flags.getLsbD 8 then some SecSt.slotBusy
  else none

/-- The checks of R427 on what the unwrapping gave. -/
def State.unwrapLast (s : State) (p : UnwrapP) (k : KeyAttrs) : Option Status :=
  let duk := decide (p.wrap = 0xFFFF)
  let w := s.slot p.wrap.toNat
  let t := s.slot p.target.toNat
  let aes := decide (k.type = 1)
  let fits := (aes && decide (p.length = 56)) || (decide (k.type = 2) && decide (p.length = 88))
  let use := decide (k.usage.toNat < 16) && (if aes then !k.usage.getLsbD 3 else decide (k.usage = 8 ∨ k.usage = 0))
  if !fits || !use then some SecSt.keyUsage
  else if k.scope.toNat ≠ t.assigned.toNat ∨ (!duk ∧ w.assigned.toNat < 256 ∧ k.scope.toNat ≠ w.assigned.toNat) then
    some SecSt.keyScope
  else none

/-- The attribute record and the key in what an unwrapping gave (R426). -/
def KeyAttrs.read (bs : List Byte) : KeyAttrs :=
  ⟨bs.getD 0 0, bs.getD 1 0, BitVec.ofNat 16 (leNat ((bs.drop 2).take 2)), BitVec.ofNat 96 (leNat ((bs.drop 4).take 12)),
    BitVec.ofNat 512 (leNat ((bs.drop 16).take 64))⟩

/-- The end of a KEY_UNWRAP, by what the unwrapping gave. -/
def State.unwrapEnd (s : State) (h : CmdHdr) (p : UnwrapP) (plain : Option KeyAttrs) : State :=
  match plain with
  | none => (s.count 0x600018).done h SecSt.unwrapFailed
  | some k => match s.unwrapLast p k with
    | some st => s.done h st
    | none =>
      let n := if k.type = 1 then 32 else 64
      (s.setSlot p.target.toNat ⟨k.type.extractLsb' 0 2, k.usage.extractLsb' 0 4, (s.slot p.target.toNat).assigned, k.label,
        leBytes n k.key.toNat⟩).mirrorSlot p.target.toNat |>.done h St.success

/-- The key that unwraps: the device unlock key, or a slot's. -/
def State.wrapKey (s : State) (p : UnwrapP) : List Byte :=
  if p.wrap = 0xFFFF then leBytes 32 (s.sec.duk.getD 0).toNat else (s.slot p.wrap.toNat).key

/-- KEY_UNWRAP: the blob is read once the checks that need no bytes have passed. -/
def execKeyUnwrap (h : CmdHdr) (p : UnwrapP) (s : State) : Host.Outcome State Fault Refusal :=
  s.command h (.keyUnwrap h p) fun s =>
    match s.unwrapFirst h p with
    | some st => s.done h st
    | none =>
      let s := s.readTrips [.keySlot (p.target.setWidth 9), .keySlot (p.wrap.setWidth 9)]
      if !s.cmdRange h.ladle p.blob p.length.toNat then s.done h St.accessFault
      else
        let r := s.hubRead (ladleDom h.ladle) .hub (cmdAddr h.ladle p.blob) p.length.toNat
        match r.2.2 with
        | .outside => r.2.1.done h St.accessFault
        | .uncorrectable => r.2.1.done h St.uncorrectable
        | .ok => r.2.1.unwrapEnd h p ((Config.keyUnwrap (s.wrapKey p) r.1).map KeyAttrs.read)

/-- KEY_CLEAR. -/
def execKeyClear (h : CmdHdr) (slot : BitVec 16) (s : State) : Host.Outcome State Fault Refusal :=
  s.command h (.keyClear h slot) fun s =>
    if s.slotLost slot.toNat then s.done h St.uncorrectable
    else if !s.slotMine h.ladle slot.toNat then s.done h SecSt.keyScope
    else ((s.clearSlot slot.toNat).mirrorSlot slot.toNat).done h St.success

/-- KEY_ASSIGN. -/
def execKeyAssign (h : CmdHdr) (flask first count : BitVec 16) (s : State) : Host.Outcome State Fault Refusal :=
  s.command h (.keyAssign h flask first count) fun s =>
    let f := flask.toNat
    let fl := s.flask (BitVec.ofNat 8 f)
    if (255 < f ∧ f ≠ 0x100 ∧ f ≠ 0x1FF) ∨ 512 < first.toNat + count.toNat then s.done h St.malformed
    else if f < 256 ∧ fl.st = .failed then s.done h St.uncorrectable
    else if f < 256 ∧ fl.st = .free then s.done h St.wrongState
    else
      let s := (List.range count.toNat).foldl (fun s i => s.setSlot (first.toNat + i) (KeySlot.empty (BitVec.ofNat 9 f))) s
      s.done h St.success

/-! ### Check values (R429, R430) -/

/-- The usage bit of a mode. -/
def cvUsage (mode : Nat) : Nat := mode + 1

/-- What keeps a key from being used for a request. -/
def State.cvKey (s : State) (l : LadleRef) (p : CvP) : Option Status :=
  let k := s.slot p.slot.toNat
  if s.slotLost p.slot.toNat then some St.uncorrectable
  else if !s.slotMine l p.slot.toNat then some SecSt.keyScope
  else if !k.loaded then some SecSt.slotEmpty
  else if !k.usage.getLsbD (cvUsage p.mode.toNat) then some SecSt.keyUsage
  else none

/-- A command that finds no room goes back to wait for its start. -/
def State.unstart (s : State) (h : CmdHdr) : State :=
  let d := s.ladle h.ladle
  s.setLadle h.ladle { d with cmds := d.cmds.map fun c => if c.tag = h.tag then { c with started := false } else c }

/-- CV_COMPUTE. -/
def execCvCompute (h : CmdHdr) (p : CvP) (s : State) : Host.Outcome State Fault Refusal :=
  s.command h (.cvCompute h p) fun s =>
    let n := p.tagLen.toNat
    let legal := decide (p.mode.toNat ≤ 2) && (if p.mode = 2 then decide (16 ≤ n ∧ n ≤ 64) else decide (4 ≤ n ∧ n ≤ 16)) &&
      decide (p.length.toNat ≤ 2 ^ 30)
    if !legal then s.done h St.malformed
    else match s.cvKey h.ladle p with
      | some st => s.done h st
      | none =>
        if !s.cmdRange h.ladle p.src p.length.toNat || !s.cmdRange h.ladle p.tagAddr n then s.done h St.accessFault
        else if 64 ≤ s.sec.cvq.countP fun q => decide (ladleDom q.ladle = ladleDom h.ladle) then s.unstart h
        else { s with sec := { s.sec with cvq := s.sec.cvq ++ [⟨h.ladle, h.tag, p, h.flags.getLsbD 8⟩] } }

/-- The scope to serve next, and its oldest request. -/
def State.nextCv (s : State) : Option CvReq :=
  let dom (q : CvReq) : Nat := (ladleDom q.ladle).toNat
  let later := s.sec.cvq.filter fun q => decide (s.sec.cvTurn < dom q)
  let pool := if later.isEmpty then s.sec.cvq else later
  let best := pool.foldl (fun b q => min b (dom q)) 512
  pool.find? fun q => decide (dom q = best)

/-- CV_REQUEST_START: an idle engine takes the next request and reads its key. -/
def execCvRequestStart (engine : BitVec 4) (s : State) : Host.Outcome State Fault Refusal :=
  if s.breakout || s.sec.cvRuns.any fun r => r.engine == engine then .next s
  else match s.nextCv with
    | none => .next s
    | some q =>
      let s := { s with sec := { s.sec with cvq := s.sec.cvq.erase q, cvTurn := (ladleDom q.ladle).toNat } }
      match s.cvKey q.ladle q.p with
      | some st => .next (s.complete q.ladle q.tag st 0 [])
      | none =>
        let s := s.readTrip (.keySlot (q.p.slot.setWidth 9))
        .next { s with sec := { s.sec with cvRuns := s.sec.cvRuns ++ [⟨engine, q, (s.slot q.p.slot.toNat).key⟩] } }

/-- CV_REQUEST_COMPLETE. -/
def execCvRequestComplete (engine : BitVec 4) (s : State) : Host.Outcome State Fault Refusal :=
  match s.sec.cvRuns.find? fun r => r.engine == engine with
  | none => .next s
  | some r =>
    let q := r.req
    let dom := ladleDom q.ladle
    let a := cmdAddr q.ladle q.p.src
    let t := cmdAddr q.ladle q.p.tagAddr
    let n := q.p.tagLen.toNat
    let ends (s : State) (st : Status) : State :=
      (({ s with sec := { s.sec with cvRuns := s.sec.cvRuns.filter fun x => !(x.engine == engine) } }).count 0x600044).complete
        q.ladle q.tag st 0 []
    let failed (x : HubRes) : Status := if x = .uncorrectable then St.uncorrectable else St.accessFault
    if s.breakout then .next s
    else
      let d := s.hubRead dom .hub a q.p.length.toNat
      if d.2.2 ≠ .ok then .next (ends d.2.1 (failed d.2.2))
      else
        let iv := if q.p.mode = 1 then leBytes 12 q.p.iv.toNat else []
        let v := (leBytes 64 (Config.mac q.p.mode.toNat r.key (iv ++ d.1)).toNat).take n
        if q.verify then
          let w := d.2.1.hubRead dom .hub t n
          if w.2.2 ≠ .ok then .next (ends w.2.1 (failed w.2.2))
          else if w.1 = v then .next (ends w.2.1 St.success)
          else .next (ends (w.2.1.count 0x600048) SecSt.cvMismatch)
        else
          let c := d.2.1.writeWaits dom t n
          if c.1 then .next c.2
          else
            let w := d.2.1.hubWrite dom .hub t v
            .next (ends w.1 (if w.2 = .ok then St.success else failed w.2))

/-! ### Attestation (R421, R422) -/

/-- The 256 bytes that a report's signature covers. -/
def State.report (s : State) (nonce : BitVec 256) (flask : Nat) : List Byte :=
  let bit (b : Bool) (n : Nat) : Nat := if b then 2 ^ n else 0
  let fl := s.flask (BitVec.ofNat 8 flask)
  let m := if flask < 256 then fl.mould else none
  let flags := bit s.fw.fallback 0 + bit (s.sec.debugEver || decide (s.sec.unlocked ≠ 0)) 1 + bit s.sec.duk.isNone 2 +
    bit (decide (s.twin.st ≠ .unpaired)) 3 + bit s.sec.winDirect 4
  leBytes 4 0x54414C4F ++ leBytes 2 1 ++ leBytes 2 0xA1 ++ leBytes 4 s.fw.running.version.toNat ++ leBytes 2 s.fw.secver ++
    leBytes 2 flags ++ leBytes 32 nonce.toNat ++ leBytes 32 s.pubKey.toNat ++
    leBytes 64 s.fw.running.digest.toNat ++ leBytes 2 flask ++ leBytes 1 s.own.index ++ leBytes 1 (min 255 s.sec.records.length) ++
    leBytes 4 ((m.map fun m => m.sequence.toNat).getD 0) ++ leBytes 1 (if flask < 256 then fl.rot.toNat else 0) ++ leBytes 3 0 ++
    leBytes 4 s.twin.epoch.toNat ++ leBytes 64 ((m.map fun m => m.measure.toNat).getD 0) ++ leBytes 8 (s.refNow 8).toNat ++ leBytes 24 0

/-- ATTEST. -/
def execAttest (h : CmdHdr) (nonce : BitVec 256) (dest : BitVec 64) (flask : BitVec 16) (s : State) :
    Host.Outcome State Fault Refusal :=
  s.command h (.attest h nonce dest flask) fun s =>
    let f := match ladleFlask h.ladle with
      | none => flask.toNat
      | some f => f.toNat
    let st := (s.flask (BitVec.ofNat 8 f)).st
    if s.breakout then s.done h SecSt.held
    else if 255 < f ∧ f ≠ 0xFFFF then s.done h St.malformed
    else if f < 256 ∧ st = .failed then s.done h St.uncorrectable
    else if f < 256 ∧ st = .free then s.done h St.wrongState
    else if !s.cmdRange h.ladle dest 320 then s.done h St.accessFault
    else
      let s := s.readTrips ([.fuseShadow, .ownerRecord, .pairEpoch] ++ if f < 256 then [.mouldRoot (BitVec.ofNat 8 f)] else [])
      let body := s.report nonce f
      let w := (s.tick 8).hubWrite (ladleDom h.ladle) .hub (cmdAddr h.ladle dest) (body ++ leBytes 64 (Config.edSign s.idSeed (sha512 body)).toNat)
      w.1.done h (match w.2 with
        | .ok => St.success
        | .outside => St.accessFault
        | .uncorrectable => St.uncorrectable)

/-! ### Registered keys and the unlock key (R419, R420, R431, R432) -/

/-- The words of a public key put in registers. -/
def State.putKey (s : State) (base : Nat) (k : BitVec 256) : State :=
  (List.range 8).foldl (fun s i => s.setReg (base + 4 * i) (k.extractLsb' (32 * i) 32)) s

/-- MOULD_KEY_SET. -/
def execMouldKeySet (h : CmdHdr) (keyId clear : Byte) (pubkey : BitVec 256) (s : State) : Host.Outcome State Fault Refusal :=
  s.command h (.mouldKeySet h keyId clear pubkey) fun s =>
    let i := keyId.toNat
    let v := s.reg 0x600300
    let bit := BitVec.ofNat 32 (2 ^ i)
    if 15 < i ∨ 1 < clear.toNat then s.done h St.malformed
    else if clear = 1 then ((s.putKey (0x600100 + 32 * i) 0).setReg 0x600300 (v &&& ~~~bit)).done h St.success
    else ((s.putKey (0x600100 + 32 * i) pubkey).setReg 0x600300 (v ||| bit)).done h St.success

/-- DEBUG_KEY_SET. -/
def execDebugKeySet (h : CmdHdr) (clear : Byte) (pubkey : BitVec 256) (s : State) : Host.Outcome State Fault Refusal :=
  s.command h (.debugKeySet h clear pubkey) fun s =>
    if 1 < clear.toNat then s.done h St.malformed
    else if clear = 1 then ((s.putKey 0x600400 0).setReg 0x600420 0).done h St.success
    else ((s.putKey 0x600400 pubkey).setReg 0x600420 1).done h St.success

/-- A provisioning record: magic, reserved field and device, in the order of R419. -/
def recordBad (dev bs : List Byte) : Option Status :=
  if leNat (bs.take 4) ≠ 0x56504C4F ∨ leNat ((bs.drop 4).take 4) ≠ 0 then some St.malformed
  else if (bs.drop 8).take 16 ≠ dev then some SecSt.keyScope
  else none

/-- The end of a provisioning, by what the signature and the unwrapping give. -/
def State.provision (s : State) (h : CmdHdr) (sigOk : Bool) (duk : Option (BitVec 256)) : State :=
  if !sigOk then s.done h St.badSignature
  else match duk with
    | none => s.done h SecSt.unwrapFailed
    | some k => { s with sec := { s.sec with duk := some k } }.done h St.success

/-- DUK_PROVISION. -/
def execDukProvision (h : CmdHdr) (offset : Word) (s : State) : Host.Outcome State Fault Refusal :=
  s.command h (.dukProvision h offset) fun s =>
    if s.sec.duk.isSome then s.done h St.wrongState
    else if 2 ^ 28 < offset.toNat + 128 then s.done h St.malformed
    else
      let r := s.hubRead 0x100 .hub (stagingBase + offset.toNat) 128
      if r.2.2 ≠ .ok then r.2.1.done h St.uncorrectable
      else match recordBad s.ident r.1 with
        | some st => r.2.1.done h st
        | none => r.2.1.provision h
            (Config.edVerify (Config.rootKey 0) (sha512 (r.1.take 64)) (BitVec.ofNat 512 (leNat ((r.1.drop 64).take 64))))
            (unwrap256 s.dpk ((r.1.drop 24).take 40))

/-- DUK_ROTATE: the new key, where the current one unwraps it. -/
def execDukRotate (h : CmdHdr) (offset : Word) (s : State) : Host.Outcome State Fault Refusal :=
  s.command h (.dukRotate h offset) fun s =>
    match s.sec.duk with
    | none => s.done h SecSt.notProvisioned
    | some k =>
      if 2 ^ 28 < offset.toNat + 40 then s.done h St.malformed
      else
        let r := s.hubRead 0x100 .hub (stagingBase + offset.toNat) 40
        if r.2.2 ≠ .ok then r.2.1.done h St.uncorrectable
        else r.2.1.provision h true (unwrap256 k r.1)

/-! ### Breakout (R442–R446) -/

def State.boLevel (s : State) : Nat := (s.reg Reg.secBoStat).toNat % 4

/-- The erasures of level 2: the slots of flasks, and every flask's key. -/
def State.eraseTenants (s : State) : State :=
  let s := (Tab.keys s.sec.slots).foldl (fun s i => if (s.slot i).assigned.toNat < 256 then s.clearSlot i else s) s
  let s := s.forgetMirroredKeys
  let s := s.liveFlasks.foldl (fun s f => s.setFlask f { s.flask f with key := none, keyLoaded := false }) s
  (s.liveFlasks.foldl (fun s f => s.postFlask f 0x0805 St.success 0xFFF []) s).inResume

/-- What level 3 erases beyond level 2; the software reset follows. -/
def State.eraseAll (s : State) : State :=
  let s := (Tab.keys s.sec.slots).foldl (fun s i => s.clearSlot i) s
  { s with sec := { s.sec with duk := none, erasing := true }, twin := { s.twin with kp := none } }

/-- An activation ends before its step 4: dispatch resumes, and its command completes (R337, R338). -/
def State.endActivation (s : State) (st : Status) : State :=
  match s.fw.act with
  | none => s
  | some a => ({ s with fw := { s.fw with act := none } }).complete .admin a.tag st 0 []

/-- A breakout begins, or escalates; a trigger that does not raise the level is only noted (R443, R444, R446). -/
def State.raiseBreakout (s : State) (trigger level : Nat) : State :=
  let old := s.boLevel
  let v := s.reg Reg.secBoStat
  let lvl := max old level
  let s := (s.setReg Reg.secBoStat (BitVec.ofNat 32 (v.toNat / 8 % 2 ^ 8 * 8 + lvl + 4 + trigger * 2 ^ 16))).endActivation St.aborted
  if level ≤ old then s
  else
    let s := { s with sec := { s.sec with records := s.sec.records ++ [(BitVec.ofNat 8 level, BitVec.ofNat 3 trigger, s.refNow 8)] } }.tick 8
    let s := if old < 2 ∧ 2 ≤ level then s.eraseTenants else s
    let s := if level = 3 then s.eraseAll else s
    let ev := evData [level, trigger]
    s.liveFlasks.foldl (fun s f => s.postFlask f 0x0801 St.success 0xFFF ev) (s.postOwner 0x0801 St.success 0xFFF ev)

/-- BREAKOUT_RAISE. -/
def execBreakoutRaise (h : CmdHdr) (level : Byte) (s : State) : Host.Outcome State Fault Refusal :=
  s.command h (.breakoutRaise h level) fun s =>
    if level.toNat < 1 ∨ 3 < level.toNat then s.done h St.malformed
    else (s.raiseBreakout 7 level.toNat).done h St.success

/-- BREAKOUT_CLEAR (R445). -/
def execBreakoutClear (h : CmdHdr) (s : State) : Host.Outcome State Fault Refusal :=
  s.command h (.breakoutClear h) fun s =>
    let v := s.reg Reg.secBoStat
    if s.boLevel = 3 then s.done h St.wrongState
    else if v.toNat / 8 % 2 ^ 8 ≠ 0 then s.done h SecSt.triggerActive
    else if s.boLevel = 0 then s.done h St.success
    else
      let s := ((s.setReg Reg.secBoStat (v &&& 0x00070000)).keysResume.inResume).done h St.success
      s.liveFlasks.foldl (fun s f => s.postFlask f 0x0802 St.success 0xFFF []) (s.postOwner 0x0802 St.success 0xFFF [])

/-- The level at which a trigger acts: the owner's, at least the floor; lock-ups act at 1 (R442, R443). -/
def State.triggerLevel (s : State) (t : Nat) : Nat :=
  if t = 6 then 1
  else max ((s.reg Reg.secBoPolicy).toNat / 4 ^ t % 4) ((s.reg Reg.secBoFloor).toNat / 4 ^ t % 4)

/-- BREAKOUT_TRIGGER: one of the triggers 0 to 6 begins or ends to assert. -/
def execBreakoutTrigger (trigger : BitVec 3) (asserts : Bool) (s : State) : Host.Outcome State Fault Refusal :=
  let t := trigger.toNat
  let v := s.reg Reg.secBoStat
  let bit := BitVec.ofNat 32 (2 ^ (t + 3))
  if t = 7 ∨ s.phase = .off then .next s
  else if !asserts then .next (s.setReg Reg.secBoStat (v &&& ~~~bit))
  else .next ((s.setReg Reg.secBoStat (v ||| bit)).raiseBreakout t (s.triggerLevel t))

/-! ### Debug unlock (R447–R449) -/

/-- The 64 bytes of a challenge (R448). -/
def State.chalBytes (s : State) (scope : Byte) (nonce : BitVec 256) : List Byte :=
  leBytes 32 nonce.toNat ++ s.ident ++ leBytes 4 s.sec.unlocks ++ [scope] ++ List.replicate 11 0

/-- OL_CHAL: 64 bytes leave, with a nonce of the random source. -/
def execOlChal (scope : Byte) (s : State) : Host.Outcome State Fault Refusal :=
  if !(s.reg 0x600010).getLsbD 0 || s.sec.locked || decide (scope.toNat < 1 ∨ 2 < scope.toNat) then .next s
  else
    let n := BitVec.ofNat 256 (s.random 4)
    .next ({ s with fresh := s.fresh + 4, sec := { s.sec with chal := some ⟨scope, n, false⟩ } }.emit (.jtag (s.chalBytes scope n)))

/-- The public key of a key index: Haldop's debug key, or the owner's (R432). -/
def State.debugPub (s : State) (keyIndex : Byte) : BitVec 256 :=
  if keyIndex = 0 then Config.debugKey
  else BitVec.ofNat 256 (leNat ((List.range 8).flatMap fun w => Word.bytes (s.reg (0x600400 + 4 * w))))

/-- Whether a signature answers the challenge that stands. -/
def State.chalSigned (s : State) (keyIndex : Byte) (sig : BitVec 512) : Bool :=
  match s.sec.chal with
  | none => false
  | some c => Config.edVerify (s.debugPub keyIndex) (sha512 (s.chalBytes c.scope c.nonce)) sig

/-- Whether a response is granted, its signature apart. -/
def State.mayUnlock (s : State) (keyIndex scope : Byte) (ageMs : Nat) : Bool :=
  let ctl := s.reg 0x600010
  decide (ageMs < 60000) && (match s.sec.chal with
    | none => false
    | some c => c.scope == scope && !c.used) &&
    (decide (keyIndex = 0) || (decide (keyIndex = 1) && (s.reg 0x600420).getLsbD 0)) &&
    (decide (scope ≠ 2) || (decide (keyIndex = 0) && ctl.getLsbD 1))

/-- A response granted: a scope-2 unlock first makes the erasures of a level-2 breakout. -/
def State.unlockDebug (s : State) (keyIndex scope : Byte) : State :=
  let s := if scope = 2 then s.eraseTenants else s
  let lvl := max s.sec.unlocked.toNat scope.toNat
  let s := { s with sec := { s.sec with unlocked := BitVec.ofNat 2 lvl, debugEver := true,
                                         unlocks := (s.sec.unlocks + 1) % 2 ^ 32,
                                         chal := s.sec.chal.map (fun (c : Chal) => { c with used := true }) } }
  s.postOwner 0x0806 St.success 0xFFF (evData [scope.toNat, keyIndex.toNat])

/-- A response refused: counted; the third locks `OL_CHAL`. -/
def State.unlockFailed (s : State) : State :=
  let s := s.count 0x600014
  let n := s.sec.fails + 1
  { s with sec := { s.sec with fails := if n = 3 then 0 else n, locked := s.sec.locked || decide (n = 3) } }

/-- OL_RESP. -/
def execOlResp (keyIndex scope : Byte) (sig : BitVec 512) (ageMs : Nat) (s : State) : Host.Outcome State Fault Refusal :=
  if !(s.reg 0x600010).getLsbD 0 then .next s
  else .next (if s.mayUnlock keyIndex scope ageMs && s.chalSigned keyIndex sig then s.unlockDebug keyIndex scope else s.unlockFailed)

/-- DEBUG_LOCKOUT_EXPIRY. -/
def execDebugLockoutExpiry (s : State) : Host.Outcome State Fault Refusal :=
  .next { s with sec := { s.sec with locked := false } }

end Sys2Proof.Machine
end

