-- ==== Sys2Proof/Machine/Ownership.lean ====
section
/-!
DEFINITION. Claims, elections, handovers and the loss of an owner (spec/14_security_and_ownership.md, R433–R441).
-/

namespace Sys2Proof.Machine

/-- Whether ownership work waits for the security core (R441). -/
def State.ownWaits (s : State) : Bool := s.fw.down.contains .security || !s.phase.serves

/-- Admin commands that have not started complete as `OWNER_LOST`: those read, then those still in the ring (R440). -/
def State.loseAdmin (s : State) : State :=
  let d := s.fw.admin
  let s := (d.cmds.filter fun c => !c.started).foldl (fun s c => s.endCommand .admin c.tag c.instr St.ownerLost) s
  let unread := (List.range (ahead 1024 d.sqHead d.sqTail)).map fun i => (d.sqHead + i) % 1024
  unread.foldl (fun s i =>
    let w (k : Nat) : Word := Tab.get 0 s.fw.admSq (16 * i + k)
    let cast := decide ((w 0).extractLsb' 0 16 = 0x0004)
    let s := s.setLadle .admin { s.fw.admin with sqHead := (i + 1) % 1024 }
    let s := if cast then s.castEvent (flaskOf ((w 4).toNat % 2 ^ 16)) St.ownerLost 0 else s
    s.putCompletion .admin ⟨w 1, St.ownerLost, false, (w 0).getLsbD 17, if cast then nowhere else 0, (w 0).extractLsb' 0 16, []⟩) s

/-- A transition to a new owner begins (R440). -/
def State.transition (s : State) (m : Master) (nonce : BitVec 16) : State :=
  let s := (s.readTrip .ownerRecord).loseAdmin
  ({ s with own := { s.own with next := some (m, nonce), electing := false, hand := none } }).tryTransition

/-- The cap of a master (R436). -/
def State.ownCap (s : State) (m : Master) : Nat := (s.reg 0x2014).toNat / 256 ^ masterIndex m % 256

/-- Recorded claims while vacant open the election window (R437), but not within the hold after the record was lost (R439). -/
def State.openWindow (s : State) : State :=
  if !s.own.valid && !s.own.holding && !s.own.claims.isEmpty && s.own.next.isNone then { s with own := { s.own with electing := true } } else s

/-- The claim that wins: the highest priority, ties to the lowest index. -/
def bestClaim (cs : List (Master × Byte × BitVec 16)) : Option (Master × Byte × BitVec 16) :=
  cs.foldl (fun b c => match b with
    | none => some c
    | some x =>
      if x.2.1.toNat < c.2.1.toNat ∨ (x.2.1 = c.2.1 ∧ masterIndex c.1 < masterIndex x.1) then some c else b) none

/-- ELECTION_WINDOW_CLOSE. -/
def execElectionWindowClose (s : State) : Host.Outcome State Fault Refusal :=
  if !s.own.electing || s.ownWaits then .next s
  else match bestClaim (s.own.claims.filter fun c => s.masterLive c.1) with
    | none => .next { s with own := { s.own with electing := false } }
    | some c => .next (s.transition c.1 c.2.2)

def masterOf (i : BitVec 2) : Master :=
  match i.toNat with
  | 0 => .he0
  | 1 => .he1
  | 2 => .mgmt
  | _ => .peer

/-- The security core takes up a claim, an accept or a handover (R437, R438). -/
def State.takeAsk (s : State) : OwnAsk → State
  | .claim m priority nonce =>
    let p := min priority.toNat (s.ownCap m)
    let rest := s.own.claims.filter fun c => decide (c.1 ≠ m)
    { s with own := { s.own with claims := if p = 0 then rest else rest ++ [(m, BitVec.ofNat 8 p, nonce)] } }.openWindow
  | .handover m target nonce =>
    if s.isOwner m then { s with own := { s.own with hand := some (masterOf target, nonce) } } else s.observed m
  | .accept m nonce => if s.own.hand = some (m, nonce) then s.transition m nonce else s.observed m

/-- A master's write reaches the security core, or queues while it restarts (R339, R441). -/
def State.askOwn (s : State) (m : Master) (a : OwnAsk) : State :=
  if !s.phase.serves || !s.arrives m then s
  else if s.fw.down.contains .security then { s with own := { s.own with queued := s.own.queued ++ [a] } }
  else s.takeAsk a

/-- OWN_CLAIM; one of the peer carries its pair epoch, and an older one is ignored (R455). -/
def execOwnClaim (m : Master) (priority : Byte) (nonce : BitVec 16) (epoch : Word) (s : State) :
    Host.Outcome State Fault Refusal :=
  if m = .peer ∧ serialOlder epoch s.twin.epoch then .next s else .next (s.askOwn m (.claim m priority nonce))

/-- OWN_HANDOVER. -/
def execOwnHandover (m : Master) (target : BitVec 2) (nonce : BitVec 16) (s : State) : Host.Outcome State Fault Refusal :=
  .next (s.askOwn m (.handover m target nonce))

/-- OWN_ACCEPT. -/
def execOwnAccept (m : Master) (nonce : BitVec 16) (s : State) : Host.Outcome State Fault Refusal :=
  .next (s.askOwn m (.accept m nonce))

/-- HANDOVER_EXPIRY. -/
def execHandoverExpiry (s : State) : Host.Outcome State Fault Refusal :=
  if s.own.hand.isNone || s.ownWaits then .next s
  else .next { s with own := { s.own with hand := none, handFailed := true } }

/-- OWNER_LOST: the hold begins; a pending handover is cancelled; every master's log and the log ring hear of it (R439,
R441, R451). -/
def execOwnerLost (s : State) : Host.Outcome State Fault Refusal :=
  if !s.own.valid || s.own.holding || s.masterLive s.own.master then .next s
  else
    let s := s.readTrip .ownerRecord
    let i := masterIndex s.own.master
    let s := ({ s with own := { s.own with holding := true, hand := none } }).writeTrip .ownerRecord
    .next ((s.postOwner 0x0804 St.success 0xFFF (evData [i])).logRecord 0x0804 0 1 false 0x100 none (evData [i]))

/-- OWNER_HOLD_EXPIRY. -/
def execOwnerHoldExpiry (s : State) : Host.Outcome State Fault Refusal :=
  if !s.own.holding || s.ownWaits then .next s
  else if s.own.valid && s.masterLive s.own.master then .next s.ownerReturns
  else .next (({ s with own := { s.own with valid := false, holding := false } }).writeTrip .ownerRecord).openWindow

/-- MCTP_HEARTBEAT (R433, R434). -/
def execMctpHeartbeat (s : State) : Host.Outcome State Fault Refusal :=
  .next ({ s with own := { s.own with mgmtLive := true } }).ownerReturns

/-- MGMT_LIVENESS_LAPSE. -/
def execMgmtLivenessLapse (s : State) : Host.Outcome State Fault Refusal :=
  .next { s with own := { s.own with mgmtLive := false } }

end Sys2Proof.Machine
end

