-- ==== Sys2Proof/Machine/Mould.lean ====
section
/-!
DEFINITION. The mould: its container, its records, and the checks that a cast makes of it (spec/02_mould.md, R29–R55, R66).
-/

namespace Sys2Proof.Machine

/-! ### Fields -/

/-- The little-endian field of n bytes at an offset. -/
def fieldAt (m : List Byte) (off n : Nat) : Nat := leNat ((m.drop off).take n)
/-- The bytes from lo to hi − 1 are zero. -/
def zerosAt (m : List Byte) (lo hi : Nat) : Bool := ((m.drop lo).take (hi - lo)).all fun b => b == 0

/-- A directory entry (R30). -/
structure DirEnt where
  type : Nat
  version : Nat
  off : Nat
  bytes : Nat
  count : Nat
  recSize : Nat
  zeros : Bool
  deriving DecidableEq, Repr

def DirEnt.read (b : List Byte) : DirEnt :=
  ⟨fieldAt b 0 2, fieldAt b 2 2, fieldAt b 4 4, fieldAt b 8 4, fieldAt b 12 4, fieldAt b 16 2, zerosAt b 18 32⟩

/-- A mould as read: its bytes, the fields of its header (R29), and its directory. -/
structure Container where
  raw : List Byte
  flags : Nat
  id : BitVec 128
  base : BitVec 128
  seq : Nat
  clusters : Nat
  granules : Nat
  job : BitVec 128
  minFw : Nat
  sections : Nat
  dir : List DirEnt
  deriving DecidableEq, Repr

def Container.read (b : List Byte) : Container :=
  { raw := b, flags := fieldAt b 6 2, id := BitVec.ofNat 128 (fieldAt b 0x10 16), base := BitVec.ofNat 128 (fieldAt b 0x20 16)
    seq := fieldAt b 0x30 4, clusters := fieldAt b 0x34 2, granules := fieldAt b 0x38 4
    job := BitVec.ofNat 128 (fieldAt b 0x40 16), minFw := fieldAt b 0x50 4, sections := fieldAt b 0x0A 2
    dir := (List.range (fieldAt b 0x0A 2)).map fun i => DirEnt.read ((b.drop (256 + 32 * i)).take 32) }

def Container.length (c : Container) : Nat := c.raw.length
def Container.isPartial (c : Container) : Bool := c.flags % 2 == 1
def Container.rotatable (c : Container) : Bool := c.flags / 2 % 2 == 1
def Container.userCounters (c : Container) : Bool := c.flags / 4 % 2 == 1
def Container.dedup (c : Container) : Bool := c.flags / 8 % 2 == 1
/-- The digest D (R53). -/
def Container.digest (c : Container) : BitVec 512 := Config.sha512 (c.raw.take (c.length - 128))
/-- `SIG`, and whether it signs D under a public key (R53). -/
def Container.sig (c : Container) : BitVec 512 := BitVec.ofNat 512 (fieldAt c.raw (c.length - 112) 64)
def Container.signedBy (c : Container) (key : BitVec 256) : Bool := Config.edVerify key (leBytes 64 c.digest.toNat) c.sig

/-- A section and its directory index. -/
def Container.sec (c : Container) (t : Nat) : Option (DirEnt × Nat) := c.dir.zipIdx.find? fun x => decide (x.1.type = t)

/-- Records of variable length: each gives its own at offset 8 (R39). -/
def cutProgs : Nat → List Byte → Option (List (List Byte))
  | 0, b => if b.isEmpty then some [] else none
  | n + 1, b =>
    let k := fieldAt b 8 4
    if k < 16 ∨ b.length < k then none
    else match cutProgs n (b.drop k) with
      | none => none
      | some r => some (b.take k :: r)

def Container.body (c : Container) (d : DirEnt) : List Byte := (c.raw.drop d.off).take d.bytes

/-- The records of a section. -/
def Container.recsOf (c : Container) (d : DirEnt) : List (List Byte) :=
  if d.type = 3 then (cutProgs d.count (c.body d)).getD []
  else (List.range d.count).map fun i => ((c.body d).drop (i * d.recSize)).take d.recSize

def Container.recs (c : Container) (t : Nat) : List (List Byte) :=
  match c.sec t with
  | none => []
  | some x => c.recsOf x.1

/-! ### Records -/

/-- A `PLACE` record (R36). -/
structure PlaceRec where
  kind : Nat
  die : Nat
  x : Nat
  y : Nat
  logical : Nat
  first : Nat
  count : Nat
  deriving DecidableEq, Repr

def PlaceRec.read (b : List Byte) : PlaceRec :=
  ⟨fieldAt b 0 1, fieldAt b 1 1, fieldAt b 2 1, fieldAt b 3 1, fieldAt b 4 2, fieldAt b 8 4, fieldAt b 12 4⟩

def Container.places (c : Container) (kind : Nat) : List PlaceRec :=
  ((c.recs 1).map PlaceRec.read).filter fun p => decide (p.kind = kind)

/-- The physical cluster of a record under rotation r (R37). -/
def PlaceRec.cluster (p : PlaceRec) (r : Nat) : ClusterId := BitVec.ofNat 12 ((p.die + r) % 8 * 512 + p.x * 32 + p.y)

/-- An image (R39): its number and its words. -/
structure ProgRec where
  image : Nat
  words : List TWord
  deriving DecidableEq, Repr

def ProgRec.read (b : List Byte) : ProgRec :=
  let n := fieldAt b 4 4
  ⟨fieldAt b 0 4, (List.range n).map fun i => ⟨BitVec.ofNat 32 (fieldAt b (16 + 4 * i) 4),
    BitVec.ofNat 4 (fieldAt b (16 + 4 * n + i / 2) 1 / 16 ^ (i % 2))⟩⟩

def Container.progs (c : Container) : List ProgRec := (c.recs 3).map ProgRec.read

def SegSpec.read (b : List Byte) : SegSpec :=
  ⟨BitVec.ofNat 64 (fieldAt b 0 8), BitVec.ofNat 32 (fieldAt b 8 4), BitVec.ofNat 8 (fieldAt b 12 1), BitVec.ofNat 8 (fieldAt b 13 1)⟩

/-- The number of the image that a `SEGT` record names. -/
def segtImage (b : List Byte) : Nat := fieldAt b 8 4

def SegtRec.read (ps : List ProgRec) (b : List Byte) : SegtRec :=
  { first := BitVec.ofNat 32 (fieldAt b 0 4), last := BitVec.ofNat 32 (fieldAt b 4 4)
    image := if segtImage b = 0xFFFF_FFFF then none else (ps.find? fun p => decide (p.image = segtImage b)).map (·.words)
    loadAt := BitVec.ofNat 16 (fieldAt b 12 2), entry := BitVec.ofNat 16 (fieldAt b 14 2)
    segs := (List.range 8).map fun i => SegSpec.read ((b.drop (16 + 16 * i)).take 16) }

def FmtRec.read (b : List Byte) : FmtRec :=
  ⟨BitVec.ofNat 32 (fieldAt b 0 4), BitVec.ofNat 32 (fieldAt b 4 4), BitVec.ofNat 8 (fieldAt b 8 1), BitVec.ofNat 8 (fieldAt b 9 1),
    BitVec.ofNat 8 (fieldAt b 10 1), BitVec.ofNat 16 (fieldAt b 12 2), BitVec.ofNat 32 (fieldAt b 16 4),
    BitVec.ofNat 32 (fieldAt b 20 4), BitVec.ofNat 32 (fieldAt b 24 4)⟩

def TimeRec.read (b : List Byte) : TimeRec :=
  ⟨BitVec.ofNat 32 (fieldAt b 0 4), BitVec.ofNat 32 (fieldAt b 4 4), BitVec.ofNat 32 (fieldAt b 8 4), BitVec.ofNat 32 (fieldAt b 12 4)⟩

def SyncRec.read (b : List Byte) : SyncRec :=
  ⟨BitVec.ofNat 8 (fieldAt b 0 1), BitVec.ofNat 16 (fieldAt b 2 2), BitVec.ofNat 32 (fieldAt b 4 4), BitVec.ofNat 32 (fieldAt b 8 4),
    BitVec.ofNat 32 (fieldAt b 12 4)⟩

def FeedRec.read (b : List Byte) : FeedRec :=
  { binding := BitVec.ofNat 16 (fieldAt b 0 2), source := BitVec.ofNat 8 (fieldAt b 2 1), mode := BitVec.ofNat 8 (fieldAt b 3 1)
    selector := BitVec.ofNat 32 (fieldAt b 4 4), target := BitVec.ofNat 64 (fieldAt b 8 8)
    targetBytes := BitVec.ofNat 32 (fieldAt b 16 4), tokenCore := BitVec.ofNat 32 (fieldAt b 20 4)
    tokenPort := BitVec.ofNat 8 (fieldAt b 24 1), tileEdge := BitVec.ofNat 8 (fieldAt b 25 1)
    tileFmt := BitVec.ofNat 8 (fieldAt b 26 1), flags := BitVec.ofNat 8 (fieldAt b 27 1)
    nextBinding := BitVec.ofNat 32 (fieldAt b 28 4) }

def ScorRec.read (b : List Byte) : ScorRec :=
  { region := BitVec.ofNat 16 (fieldAt b 0 2), layer := BitVec.ofNat 8 (fieldAt b 2 1), heads := BitVec.ofNat 8 (fieldAt b 3 1)
    headDim := BitVec.ofNat 16 (fieldAt b 4 2), topK := BitVec.ofNat 16 (fieldAt b 6 2), kvBase := BitVec.ofNat 64 (fieldAt b 8 8)
    sumBase := BitVec.ofNat 64 (fieldAt b 16 8), mode := BitVec.ofNat 8 (fieldAt b 24 1)
    maxBlocks := BitVec.ofNat 32 (fieldAt b 28 4) }

/-- A `CRED` record (R46): stream and credits. -/
def credRead (b : List Byte) : Nat × Nat := (fieldAt b 0 4, fieldAt b 4 2)

def Container.creds (c : Container) : List (Nat × Nat) := (c.recs 7).map credRead

/-- A `ROUTE` record with its stream's credits (R44, R46). -/
def RouteRec.read (cr : List (Nat × Nat)) (b : List Byte) : RouteRec :=
  { stream := BitVec.ofNat 32 (fieldAt b 0 4), src := BitVec.ofNat 32 (fieldAt b 4 4), dst := BitVec.ofNat 32 (fieldAt b 8 4)
    outPort := BitVec.ofNat 8 (fieldAt b 12 1), inPort := BitVec.ofNat 8 (fieldAt b 13 1), order := BitVec.ofNat 8 (fieldAt b 14 1)
    credits := BitVec.ofNat 16 (((cr.find? fun x => decide (x.1 = fieldAt b 0 4)).map Prod.snd).getD 0) }

/-- A `TOUCH` record (R52). -/
structure TouchRec where
  cluster : Nat
  action : Nat
  deriving DecidableEq, Repr

def TouchRec.read (b : List Byte) : TouchRec := ⟨fieldAt b 0 2, fieldAt b 2 1⟩

def Container.segts (c : Container) : List SegtRec := (c.recs 4).map (SegtRec.read c.progs)
def Container.fmts (c : Container) : List FmtRec := (c.recs 5).map FmtRec.read
def Container.syncs (c : Container) : List SyncRec := (c.recs 6).map SyncRec.read
def Container.times (c : Container) : List TimeRec := (c.recs 8).map TimeRec.read
def Container.feeds (c : Container) : List FeedRec := (c.recs 9).map FeedRec.read
def Container.scors (c : Container) : List ScorRec := (c.recs 10).map ScorRec.read
def Container.touches (c : Container) : List TouchRec := (c.recs 11).map TouchRec.read
def Container.routes (c : Container) : List RouteRec := (c.recs 2).map (RouteRec.read c.creds)

/-! ### Detail words (R66) -/

def inRecord (sec i : Nat) : Word := BitVec.ofNat 32 (sec * 2 ^ 24 + i)
def inSection (sec : Nat) : Word := BitVec.ofNat 32 (sec * 2 ^ 24 + 0xFF_FFFF)
def inKept (i : Nat) : Word := BitVec.ofNat 32 (0xFE * 2 ^ 24 + i)

/-- A condition on the header, or on no single section. -/
def wants (ok : Bool) : Option Word := if ok then none else some nowhere

/-- The first record of a section that fails. -/
def Container.each (c : Container) (t : Nat) (ok : List Byte → Nat → Bool) : Option Word :=
  match c.sec t with
  | none => none
  | some x => (c.recsOf x.1).zipIdx.findSome? fun r => if ok r.1 r.2 then none else some (inRecord x.2 r.2)

/-- A condition on a section as a whole. -/
def Container.whole (c : Container) (t : Nat) (ok : Bool) : Option Word :=
  match c.sec t with
  | none => none
  | some x => if ok then none else some (inSection x.2)

def firstBadOf (xs : List (Option Word)) : Option Word := xs.findSome? id

/-- Whether the record at index i repeats a key of an earlier record. -/
def repeats (ks : List Nat) (i : Nat) : Bool := (ks.take i).contains (ks.getD i 0)

/-- Two ranges of numbers, each first and length, share a number. -/
def rangesMeet (a b : Nat × Nat) : Bool := decide (a.1 < b.1 + b.2 ∧ b.1 < a.1 + a.2)

/-- The range at index i overlaps an earlier one. -/
def overlapsEarlier (xs : List (Nat × Nat)) (i : Nat) : Bool := (xs.take i).any fun a => rangesMeet a (xs.getD i (0, 0))

/-! ### Check 6 (R29–R31, R34, R36, R39, R40, R47, R52) -/

/-- Record sizes by type (R32). -/
def recordSize (t : Nat) : Nat := [0, 16, 16, 0, 144, 32, 16, 8, 16, 32, 32, 8].getD t 0

def Container.headerOk (c : Container) : Bool :=
  decide (c.flags < 16) && decide (1 ≤ c.sections ∧ c.sections ≤ 64) && decide (384 + 32 * c.sections ≤ c.length) &&
    decide (1 ≤ c.clusters ∧ c.clusters ≤ 4096) && decide (c.granules ≤ 9536) &&
    zerosAt c.raw 0x36 0x38 && zerosAt c.raw 0x54 0x100 && zerosAt c.raw (c.length - 124) (c.length - 112) &&
    zerosAt c.raw (c.length - 48) c.length &&
    (c.isPartial || (decide (c.base = 0) && decide (c.seq = 0) && (c.dedup || decide (c.job = 0))))

/-- A directory entry; `from'` is where the entry before it ends. -/
def Container.entOk (c : Container) (d : DirEnt) (from' : Nat) (i : Nat) : Bool :=
  let known := decide (1 ≤ d.type ∧ d.type ≤ 11)
  (known || decide (0x8000 ≤ d.type)) && decide (d.version = 1) && decide (d.off % 64 = 0) && decide (from' ≤ d.off) &&
    decide (d.off + d.bytes ≤ c.length - 128) && d.zeros &&
    (!known || (decide (d.recSize = recordSize d.type) && !(repeats (c.dir.map (·.type)) i) &&
      (if d.type = 3 then (cutProgs d.count (c.body d)).isSome else decide (d.bytes = d.count * d.recSize))))

/-- The entries in order, and the bytes outside every section, which lie in none (R31, R66). -/
def Container.entsOk (c : Container) : List (DirEnt × Nat) → Nat → Option Word
  | [], from' => wants (zerosAt c.raw from' (c.length - 128))
  | (d, i) :: r, from' =>
    if !c.entOk d from' i then some (inSection i)
    else if !zerosAt c.raw from' d.off then some nowhere
    else c.entsOk r (d.off + d.bytes)

/-- R32's required and forbidden sections. -/
def Container.sectionsOk (c : Container) : Option Word :=
  let has (t : Nat) : Bool := (c.sec t).isSome
  let need := if c.isPartial then has 1 && has 11 else has 1 && has 3 && has 4
  match wants (need && (!has 2 || has 7)) with
  | some w => some w
  | none => if c.isPartial then none else c.whole 11 false

/-- A core range (R34). -/
def rangeOk (c : Container) (b : List Byte) : Bool :=
  decide (fieldAt b 0 4 ≤ fieldAt b 4 4 ∧ fieldAt b 4 4 < c.clusters * 256)

/-- The range of cores of a record: first and number. -/
def coreRange (b : List Byte) : Nat × Nat := (fieldAt b 0 4, fieldAt b 4 4 + 1 - fieldAt b 0 4)

def Container.placeOk (c : Container) (b : List Byte) (i : Nat) : Bool :=
  let p := PlaceRec.read b
  let before := ((c.recs 1).take i).map PlaceRec.read
  if p.kind = 1 then
    decide (p.die < 8 ∧ p.x < 16 ∧ p.y < 32 ∧ p.logical < c.clusters) && zerosAt b 6 16 &&
      !(before.any fun q => decide (q.kind = 1) && (decide (q.logical = p.logical) || q.cluster 0 == p.cluster 0))
  else
    decide (p.kind = 2 ∧ p.die < 8 ∧ p.first + p.count ≤ c.granules) && zerosAt b 2 8 &&
      !(before.any fun q => decide (q.kind = 2) && rangesMeet (q.first, q.count) (p.first, p.count))

def progOk (b : List Byte) (dup : Bool) : Bool :=
  let n := fieldAt b 4 4
  let used := 16 + 4 * n + (n + 1) / 2
  decide (1 ≤ n ∧ n ≤ 2048) && decide (fieldAt b 8 4 = (used + 7) / 8 * 8) && zerosAt b 12 16 && zerosAt b used b.length && !dup

def Container.segtOk (c : Container) (b : List Byte) : Bool :=
  let specs := (List.range 8).map fun i => (b.drop (16 + 16 * i)).take 16
  let img := c.progs.find? fun p => decide (p.image = segtImage b)
  let loadAt := fieldAt b 12 2
  let entry := fieldAt b 14 2
  rangeOk c b && (specs.all fun s => decide (fieldAt s 0 8 % 64 = 0 ∧ fieldAt s 12 1 < 16 ∧ fieldAt s 13 1 < 16) && zerosAt s 14 16) &&
    (decide (segtImage b = 0xFFFF_FFFF) || match img with
      | none => false
      | some p => decide (loadAt + p.words.length ≤ 2048 ∧ loadAt ≤ entry ∧ entry < loadAt + p.words.length))

/-- A partial mould's clusters (R52): those it adds, removes and reshapes, and how many logical clusters it keeps. -/
def Container.touched (c : Container) (action : Nat) : List Nat :=
  (c.touches.filter fun t => decide (t.action = action)).map (·.cluster)

def Container.kept (c : Container) (fl : Flask) : Nat := fl.clusters.length - (c.touched 2).length

/-- Whether a logical cluster, by its number after the cast, is one that a partial mould adds or reshapes. -/
def Container.inTouched (c : Container) (k : Nat) : Bool := (c.touched 1 ++ c.touched 3).contains k

/-- An object of the flask that a partial cast takes away: its cluster is removed, or another object takes its place. -/
def Container.losesObject (c : Container) (r : SyncRec) : Bool :=
  (c.touched 2).contains r.cluster.toNat ||
    c.syncs.any fun q => decide (q.kind ≠ 4) && q.cluster == r.cluster && q.offset == r.offset

/-- The objects of the flask that a partial cast leaves. -/
def Container.oldSyncs (c : Container) (fl : Flask) : List SyncRec :=
  match fl.mould with
  | none => []
  | some m => m.syncs.filter fun r => !c.losesObject r

/-- A `SYNC` record (R47); the objects of a partial mould lie in touched clusters (R32). -/
def syncOk (fl : Flask) (c : Container) (b : List Byte) : Bool :=
  let r := SyncRec.read b
  let barrier := decide (1 ≤ r.value.toNat ∧ r.value.toNat ≤ 2 ^ 20)
  let old := if c.isPartial then c.oldSyncs fl else []
  (decide (r.kind = 4) || !c.isPartial || c.inTouched r.cluster.toNat) &&
  zerosAt b 1 2 && decide (r.offset.toNat % 4 = 0) &&
    if r.kind = 1 then decide (r.value.toNat < 2 ^ 31) && decide (r.expect = 0)
    else if r.kind = 2 then barrier
    else if r.kind = 3 then decide (r.value = 0) && decide (r.expect = 0)
    else decide (r.kind = 4) && barrier && (c.syncs ++ old).any fun q =>
      decide (q.kind = 2) && q.cluster == r.cluster && q.offset == r.offset

def Container.touchOk (c : Container) (fl : Flask) (b : List Byte) (i : Nat) : Bool :=
  let t := TouchRec.read b
  let kept := c.kept fl
  zerosAt b 3 8 && !((c.touches.take i).contains t) &&
    if t.action = 1 then decide (kept ≤ t.cluster ∧ t.cluster < c.clusters)
    else if t.action = 2 then decide (kept ≤ t.cluster ∧ t.cluster < fl.clusters.length)
    else decide (t.action = 3 ∧ t.cluster < kept)

/-- The clusters of a core range are all added or reshaped ones. -/
def Container.rangeTouched (c : Container) (b : List Byte) : Bool :=
  let lo := fieldAt b 0 4 / 256
  (List.range (fieldAt b 4 4 / 256 + 1 - lo)).all fun k => c.inTouched (lo + k)

/-- Whether the ranges cover every core of a cluster; they rangesMeet nowhere. -/
def covers (rs : List (Nat × Nat)) (k : Nat) : Bool :=
  (rs.map fun r => min (r.1 + r.2) (k * 256 + 256) - max r.1 (k * 256)).sum == 256

/-- A `PLACE` record of a partial mould leaves what is kept in its place (R52). -/
def Container.placeKeeps (c : Container) (fl : Flask) (b : List Byte) : Bool :=
  let p := PlaceRec.read b
  if p.kind = 1 then decide (c.kept fl ≤ p.logical) || fl.clusters[p.logical]? == some (p.cluster fl.rot.toNat)
  else (fl.granules.zipIdx).all fun g =>
    !(decide (p.first ≤ g.2 ∧ g.2 < p.first + p.count)) || decide (g.1 / 1192 = (p.die + fl.rot.toNat) % 8)

/-- The rules of R40 and R52 that no single record breaks. -/
def Container.partialOk (c : Container) (fl : Flask) : Bool :=
  decide (c.clusters = c.kept fl + (c.touched 1).length) && (c.touched 1).all (covers ((c.recs 4).map coreRange))

/-- A stream of a partial mould has an end in a touched cluster (R32). -/
def Container.routeTouched (c : Container) (b : List Byte) : Bool :=
  c.inTouched (fieldAt b 4 4 / 256) || c.inTouched (fieldAt b 8 4 / 256)

/-- Check 6. -/
def Container.formBad (c : Container) (fl : Flask) : Option Word :=
  let segtRanges := (c.recs 4).map coreRange
  let part (b : List Byte) : Bool := !c.isPartial || c.rangeTouched b
  if !c.headerOk then some nowhere
  else match c.entsOk c.dir.zipIdx (256 + 32 * c.sections) with
  | some w => some w
  | none => firstBadOf
    [c.sectionsOk,
      c.each 1 c.placeOk,
      wants (decide ((c.places 1).length = c.clusters) && decide (((c.places 2).map (·.count)).sum = c.granules)),
      c.each 3 fun b i => progOk b (repeats ((c.recs 3).map fun b => fieldAt b 0 4) i),
      if c.isPartial then c.each 11 (c.touchOk fl) else none,
      if c.isPartial then c.each 1 fun b _ => c.placeKeeps fl b else none,
      c.each 4 fun b i => c.segtOk b && part b && !(overlapsEarlier segtRanges i),
      if c.isPartial then wants (c.partialOk fl) else wants (decide ((segtRanges.map Prod.snd).sum = c.clusters * 256)),
      c.each 5 fun b _ => rangeOk c b && part b && zerosAt b 11 12 && zerosAt b 14 16 && zerosAt b 28 32,
      c.each 8 fun b _ => rangeOk c b && part b,
      c.each 2 fun b _ => zerosAt b 15 16 && (!c.isPartial || c.routeTouched b),
      c.each 7 fun b _ => zerosAt b 6 8,
      c.each 6 fun b _ => syncOk fl c b,
      c.each 10 fun b _ => zerosAt b 25 28]

/-! ### Checks 7 to 9: what the mould needs (R37, R55) -/

/-- A cluster that a cast may take. -/
def State.clusterFree (s : State) (cl : ClusterId) : Bool :=
  decide (s.mem.clusterOwnerOf cl = 0x1FF) && !(s.rst.outOfPool.contains (false, cl.toNat)) &&
    (match s.rst.bist with
      | some b => b.granule || decide (b.index ≠ cl.toNat)
      | none => true)

/-- A granule that a take has reserved (R483). -/
def State.granuleReserved (s : State) (g : Nat) : Bool := s.ing.takes.any fun t => t.image.contains g || t.shadow.contains g

/-- A granule that a cast may take. -/
def State.granuleFree (s : State) (g : Nat) : Bool :=
  decide (s.mem.ownerOf g = 0x1FF) && !(s.granuleReserved g) && !(s.mem.faulty.contains g) && !(s.rst.outOfPool.contains (true, g)) &&
    (match s.rst.bist with
      | some b => !b.granule || decide (b.index ≠ g)
      | none => true)

def State.freeClusters (s : State) : Nat := (List.range 4096).countP fun k => s.clusterFree (BitVec.ofNat 12 k)
/-- The free granules of a die, lowest first. -/
def State.freeGranules (s : State) (die : Nat) : List Nat :=
  ((List.range 1192).map fun k => die * 1192 + k).filter s.granuleFree

/-- What a cast adds: the logical clusters, and the granule numbers from the first. -/
def Container.newClusters (c : Container) : List PlaceRec :=
  if c.isPartial then (c.places 1).filter fun p => (c.touched 1).contains p.logical else c.places 1
def Container.oldGranules (c : Container) (fl : Flask) : Nat := if c.isPartial then min fl.granules.length c.granules else 0

/-- The die of each flask granule number that a cast adds, in order. -/
def Container.newGranuleDies (c : Container) (fl : Flask) (r : Nat) : List Nat :=
  let old := c.oldGranules fl
  (List.range (c.granules - old)).map fun i =>
    (((c.places 2).find? fun p => decide (p.first ≤ old + i ∧ old + i < p.first + p.count)).map fun p => (p.die + r) % 8).getD 0

/-- A rotation under which the placement is free. -/
def Container.fits (c : Container) (s : State) (fl : Flask) (r : Nat) : Bool :=
  let dies := c.newGranuleDies fl r
  (c.newClusters.all fun p => s.clusterFree (p.cluster r)) &&
    (List.range 8).all fun d => decide (dies.countP (· == d) ≤ (s.freeGranules d).length)

/-- The rotation that a cast uses (R37). -/
def Container.rotation (c : Container) (s : State) (fl : Flask) : Option Nat :=
  if c.isPartial then (if c.fits s fl fl.rot.toNat then some fl.rot.toNat else none)
  else if c.rotatable then (List.range 8).find? (c.fits s fl)
  else if c.fits s fl 0 then some 0 else none

/-- The physical granules given to the numbers that a cast adds: on each die, the lowest free one (DESIGN CHOICE, log entry 47). -/
def pickGranules (free : Nat → List Nat) : List Nat → List Nat → List Nat
  | [], _ => []
  | d :: r, taken => match (free d).find? fun g => !taken.contains g with
    | none => 0 :: pickGranules free r taken
    | some g => g :: pickGranules free r (g :: taken)

/-- The flask's clusters after the cast, by logical number. -/
def Container.clustersAfter (c : Container) (r : Nat) : List ClusterId :=
  (List.range c.clusters).map fun k => (((c.places 1).find? fun p => decide (p.logical = k)).map (·.cluster r)).getD 0

def Container.granulesAfter (c : Container) (s : State) (fl : Flask) (r : Nat) : List Nat :=
  fl.granules.take (c.oldGranules fl) ++ pickGranules s.freeGranules (c.newGranuleDies fl r) []

def Container.baseOk (c : Container) (fl : Flask) : Bool :=
  match fl.mould with
  | none => !c.isPartial
  | some m => c.isPartial && decide (m.id = c.base) && decide (c.seq = m.sequence.toNat + 1)

/-! ### Check 10 -/

/-- Whether n bytes at a flask address lie inside a flask of so many clusters and granules; space 0x5 is checked at each
access. -/
def inShape (clusters granules a n : Nat) : Bool :=
  if 2 ^ 48 ≤ a then false
  else if space a = 0 then decide (bits a 43 32 < clusters ∧ bits a 23 13 = 0 ∧ bits a 12 0 + n ≤ 8192)
  else if space a = 1 then decide (bits a 43 32 < clusters ∧ bits a 31 18 = 0 ∧ bits a 17 0 + n ≤ 2 ^ 18)
  else if space a = 2 then decide (bits a 43 0 + n ≤ granules * 2 ^ 28)
  else decide (space a = 5)

def SegtRec.covers (r : SegtRec) (i : Nat) : Bool := decide (r.first.toNat ≤ i ∧ i ≤ r.last.toNat)
def FmtRec.covers (r : FmtRec) (i : Nat) : Bool := decide (r.first.toNat ≤ i ∧ i ≤ r.last.toNat)
def TimeRec.covers (r : TimeRec) (i : Nat) : Bool := decide (r.first.toNat ≤ i ∧ i ≤ r.last.toNat)

/-- The base of a segment for the core at index i of the range (R101). -/
def SegtRec.baseFor (r : SegtRec) (g : SegSpec) (i : Nat) : Nat :=
  let a := g.base.toNat
  if space a = 0 ∧ a / 2 ^ 24 % 2 ^ 20 = r.first.toNat then i * 2 ^ 24 + bits a 23 0 else a

/-- Whether the segments of the core at index i lie inside the flask. -/
def SegtRec.insideAt (r : SegtRec) (clusters granules i : Nat) : Bool :=
  r.segs.all fun g => decide (g.lines = 0) || inShape clusters granules (r.baseFor g i) (g.lines.toNat * 64)

/-- Those of every core of the range do: a base that moves with the core lies farthest on for the last. -/
def SegtRec.inside (r : SegtRec) (clusters granules : Nat) : Bool := r.insideAt clusters granules r.last.toNat

def FeedRec.inside (r : FeedRec) (clusters granules : Nat) : Bool :=
  inShape clusters granules r.target.toNat r.targetBytes.toNat

def ScorRec.kvBytes (r : ScorRec) : Nat := r.maxBlocks.toNat * r.heads.toNat * (272 * r.d)
def ScorRec.sumBytes (r : ScorRec) : Nat := 4096 + r.heads.toNat * r.arrayBytes

def ScorRec.inside (r : ScorRec) (granules : Nat) : Bool :=
  decide (space r.kvBase.toNat = 2 ∧ space r.sumBase.toNat = 2) && inShape 0 granules r.kvBase.toNat r.kvBytes &&
    inShape 0 granules r.sumBase.toNat r.sumBytes

def SyncRec.inside (r : SyncRec) (clusters : Nat) : Bool :=
  decide (r.cluster.toNat < clusters ∧ r.offset.toNat + (if r.kind = 1 ∨ r.kind = 3 then 4 else 32) ≤ 2 ^ 18)

/-- Check 10; what a partial cast keeps in force is checked against the new shape. -/
def Container.rangeBad (c : Container) (fl : Flask) : Option Word :=
  let k := c.clusters
  let g := c.granules
  let mine := firstBadOf
    [c.each 4 fun b _ => (SegtRec.read [] b).inside k g, c.each 9 fun b _ => (FeedRec.read b).inside k g,
      c.each 10 fun b _ => (ScorRec.read b).inside g, c.each 6 fun b _ => (SyncRec.read b).inside k]
  match mine, fl.mould with
  | some w, _ => some w
  | none, none => none
  | none, some m =>
    let news := c.segts
    let keeps := (List.range (min k (c.kept fl) * 256)).filter fun i => !(news.any fun r => r.covers i)
    let bad := keeps.find? fun i => match m.segts.find? fun r => r.covers i with
      | none => false
      | some r => !(r.insideAt k g i)
    match bad with
    | some i => some (inKept i)
    | none =>
      if ((c.sec 9).isNone && m.feeds.any fun r => !(r.inside k g)) || ((c.sec 10).isNone && m.scors.any fun r => !(r.inside g)) then
        some (inKept 0xFF_FFFF)
      else none

/-! ### Check 11: routes (R44, R45) -/

/-- The numbers after a up to b, in order. -/
def stepsTo (a b : Nat) : List Nat :=
  if a ≤ b then (List.range (b - a)).map fun i => a + 1 + i else (List.range (a - b)).map fun i => a - 1 - i

/-- The nearer edge; a tie goes to 0. -/
def nearEdge (v top : Nat) : Nat := if v ≤ top - v then 0 else top

/-- The clusters of a die that a route along one dimension and then the other reaches after its first. -/
def dieWalk (die : Nat) (yFirst : Bool) (x y x' y' : Nat) : List ClusterId :=
  let at_ (x y : Nat) : ClusterId := BitVec.ofNat 12 (die * 512 + x * 32 + y)
  if yFirst then (stepsTo y y').map (at_ x) ++ (stepsTo x x').map fun v => at_ v y'
  else (stepsTo x x').map (fun v => at_ v y) ++ (stepsTo y y').map (at_ x')

/-- The transit clusters of a route. -/
def transit (src dst : ClusterId) (yFirst : Bool) : List ClusterId :=
  let die (c : ClusterId) := c.toNat / 512
  let x (c : ClusterId) := c.toNat / 32 % 16
  let y (c : ClusterId) := c.toNat % 32
  if src = dst then []
  else if die src = die dst then (dieWalk (die src) yFirst (x src) (y src) (x dst) (y dst)).filter fun c => !(c == dst)
  else
    let out := if yFirst then dieWalk (die src) true (x src) (y src) (x src) (nearEdge (y src) 31)
      else dieWalk (die src) false (x src) (y src) (nearEdge (x src) 15) (y src)
    let ex := if yFirst then x dst else nearEdge (x dst) 15
    let ey := if yFirst then nearEdge (y dst) 31 else y dst
    let entry : ClusterId := BitVec.ofNat 12 (die dst * 512 + ex * 32 + ey)
    out ++ ((entry :: dieWalk (die dst) yFirst ex ey (x dst) (y dst)).filter fun c => !(c == dst))

/-- A route's clusters, for a flask of the clusters given: its ends, and its transit clusters. A stream that begins and ends in
one cluster takes one of that cluster's entries, not two: R45 does not say (DESIGN CHOICE, log entry 114). -/
def RouteRec.ends (r : RouteRec) (cls : List ClusterId) : List ClusterId :=
  let a := cls.getD (r.src.toNat / 256) 0
  let b := cls.getD (r.dst.toNat / 256) 0
  if a = b then [a] else [a, b]
def RouteRec.transit (r : RouteRec) (cls : List ClusterId) : List ClusterId :=
  Machine.transit (cls.getD (r.src.toNat / 256) 0) (cls.getD (r.dst.toNat / 256) 0) (decide (r.order = 1))

/-- The transit entries that flasks other than f hold. -/
def State.transits (s : State) (f : FlaskId) : List ClusterId :=
  (s.liveFlasks.filter fun g => !(g == f)).flatMap fun g =>
    let fl := s.flask g
    match fl.mould with
    | none => []
    | some m => m.routes.flatMap fun r => r.transit fl.clusters

/-- The streams that a partial cast leaves as they are: no end in a touched cluster, and not listed (R61). -/
def Container.keptRoutes (c : Container) (fl : Flask) : List RouteRec :=
  match fl.mould with
  | none => []
  | some m => m.routes.filter fun r =>
    let t (ref : Word) : Bool := (c.touched 2 ++ c.touched 3).contains (ref.toNat / 256)
    !(t r.src || t r.dst || c.routes.any fun q => q.stream == r.stream)

/-- Check 11. A stream number above its range, and a core reference with a reserved bit set, end here too: R44 names no status for
them (DESIGN CHOICE, log entry 115). -/
def Container.routeBad (c : Container) (s : State) (f : FlaskId) (cls : List ClusterId) : Option Word :=
  let keeps := c.keptRoutes (s.flask f)
  let news := c.routes
  let all := keeps ++ news
  let foreign := s.transits f
  let used := all.flatMap fun r => r.ends cls
  let passed := foreign ++ all.flatMap fun r => r.transit cls
  let full (cl : ClusterId) : Bool := decide (2048 < used.countP (· == cl))
  let fullT (cl : ClusterId) : Bool := decide (1024 < passed.countP (· == cl))
  let k := c.clusters * 256
  firstBadOf
    [c.each 2 fun b i =>
      let r := RouteRec.read [] b
      let before := keeps ++ news.take i
      decide (r.stream.toNat < 2 ^ 24 ∧ r.outPort.toNat < 8 ∧ r.inPort.toNat < 8 ∧ r.order.toNat < 2) &&
        decide (r.src.toNat < k ∧ r.dst.toNat < k) &&
        !(before.any fun q => q.stream == r.stream || (q.src == r.src && q.outPort == r.outPort) ||
          (q.dst == r.dst && q.inPort == r.inPort)),
      c.each 2 fun b _ =>
        let r := RouteRec.read [] b
        !((r.ends cls).any full) && !((r.transit cls).any fullT)]

/-! ### Checks 12 to 15 -/

def Container.credBad (c : Container) : Option Word :=
  let streams := (c.recs 2).map fun b => fieldAt b 0 4
  let creds := c.creds.map Prod.fst
  firstBadOf
    [c.each 7 fun b i => decide (1 ≤ fieldAt b 4 2 ∧ fieldAt b 4 2 ≤ 16) && streams.contains (fieldAt b 0 4) && !(repeats creds i),
      c.each 2 fun b _ => creds.contains (fieldAt b 0 4)]

/-- R42. -/
def fmtPair (w a : Nat) : Bool := (decide (w = a) && decide (w < 7)) || (decide (w = 0) && decide (a = 5))

def Container.fmtBad (c : Container) : Option Word :=
  firstBadOf
    [c.each 5 fun b _ => fmtPair (fieldAt b 8 1) (fieldAt b 9 1) && decide (fieldAt b 10 1 < 2),
      c.each 8 fun b _ => decide (64 ≤ fieldAt b 8 4 ∧ fieldAt b 8 4 ≤ 16000 ∧ 10 ≤ fieldAt b 12 4 ∧ fieldAt b 12 4 ≤ 1_000_000)]

/-- A selector is held by another flask (R50). -/
def State.selectorTaken (s : State) (f : FlaskId) (r : FeedRec) : Bool :=
  let n := r.selector.toNat
  if r.source = 1 ∨ r.source = 2 then
    let q := Tab.get Qp.reset s.xport.qps n
    decide (q.st ≠ .free) && !(q.flask == flaskDom f)
  else if r.source = 7 then match Tab.get none s.net.classes n with
    | none => false
    | some k => !(k.flask == f)
  else false

/-- Check 14 (R49, R50, R401). The reserved bits of `TOKEN_CORE` are looked at where the binding does not ignore it. -/
def Container.feedBad (c : Container) (s : State) (f : FlaskId) : Option Word :=
  let all := c.feeds
  c.each 9 fun b i =>
    let r := FeedRec.read b
    let tile := decide (r.mode = 1)
    decide (r.binding.toNat < 4096) && !(repeats (all.map (·.binding.toNat)) i) &&
      decide (1 ≤ r.source.toNat ∧ r.source.toNat ≤ 7 ∧ r.mode.toNat ≤ 2 ∧ r.tokenPort.toNat < 8 ∧ r.flags.toNat < 2) &&
      (if tile then decide (3 ≤ r.tileEdge.toNat ∧ r.tileEdge.toNat ≤ 6 ∧ r.tileFmt.toNat ≤ 1)
        else decide (r.tileEdge = 0) && decide (r.tileFmt = 0)) &&
      (decide (r.mode = 2 ∨ r.tokenCore = 0xFFFF_FFFF ∨ r.tokenCore.toNat < 2 ^ 20)) &&
      !(decide (r.source = 3) && decide (15 < r.selector.toNat)) && !(s.selectorTaken f r) &&
      (decide (r.mode ≠ 2) || all.any fun q =>
        decide (q.binding.toNat = r.nextBinding.toNat) && decide (4 ≤ q.source.toNat ∧ q.source.toNat ≤ 6))

/-- Every granule that an area touches, by the flask's granules after the cast, lies on a die. -/
def areaOnDie (gs : List Nat) (base bytes die : Nat) : Bool :=
  let first := bits base 43 0 / 2 ^ 28
  (List.range ((bits base 43 0 + bytes - 1) / 2 ^ 28 + 1 - first)).all fun i => decide (gs.getD (first + i) 0 / 1192 = die)

/-- Both areas of a region on one die, each from a multiple of 4,096 (R239). -/
def ScorRec.placed (r : ScorRec) (gs : List Nat) : Bool :=
  let die := gs.getD (bits r.kvBase.toNat 43 0 / 2 ^ 28) 0 / 1192
  decide (r.kvBase.toNat % 4096 = 0 ∧ r.sumBase.toNat % 4096 = 0) && areaOnDie gs r.kvBase.toNat r.kvBytes die &&
    areaOnDie gs r.sumBase.toNat r.sumBytes die

/-- Check 15 (R51, R239); `gs` are the flask's granules after the cast. -/
def Container.scorBad (c : Container) (gs : List Nat) : Option Word :=
  let all := c.scors
  let regions (r : ScorRec) : List (Nat × Nat) := [(r.kvBase.toNat, r.kvBytes), (r.sumBase.toNat, r.sumBytes)]
  c.each 10 fun b i =>
    let r := ScorRec.read b
    let earlier := (all.take i).flatMap regions
    decide (1 ≤ r.heads.toNat ∧ r.heads.toNat ≤ 64 ∧ r.d % 32 = 0 ∧ 32 ≤ r.d ∧ r.d ≤ 256 ∧ r.topK.toNat ≤ 1024) &&
      decide (r.mode.toNat ≤ 1 ∧ 1 ≤ r.maxBlocks.toNat ∧ r.maxBlocks.toNat ≤ 65536) && !(repeats (all.map (·.region.toNat)) i) &&
      !((regions r).any fun x => earlier.any (rangesMeet x)) &&
      !(rangesMeet (r.kvBase.toNat, r.kvBytes) (r.sumBase.toNat, r.sumBytes)) && r.placed gs

/-! ### The table of R55 -/

/-- What a mould's checks give: a failure, or the rotation to cast it at. -/
inductive Verdict where
  | bad (st : Status) (detail : Word)
  | ok (r : Nat)
  deriving DecidableEq, Repr

/-- Checks 5 to 15, of a container whose signature has been verified. -/
def Container.check (c : Container) (s : State) (f : FlaskId) : Verdict :=
  let fl := s.flask f
  if s.fw.running.version.toNat < c.minFw then .bad St.firmwareTooOld nowhere
  else match c.formBad fl with
  | some w => .bad St.malformed w
  | none =>
    if !c.baseOk fl then .bad St.baseMismatch nowhere
    else if s.freeClusters < c.newClusters.length ∨
        ((List.range 8).map fun d => (s.freeGranules d).length).sum < c.granules - c.oldGranules fl then .bad St.noCapacity nowhere
    else match c.rotation s fl with
    | none => .bad St.placementBusy nowhere
    | some r => match c.rangeBad fl with
      | some w => .bad St.segmentRange w
      | none => match c.routeBad s f (c.clustersAfter r) with
        | some w => .bad St.routeInvalid w
        | none => match c.credBad with
          | some w => .bad St.creditInvalid w
          | none => match c.fmtBad with
            | some w => .bad St.formatInvalid w
            | none => match c.feedBad s f with
              | some w => .bad St.feedConflict w
              | none => match c.scorBad (c.granulesAfter s fl r) with
                | some w => .bad St.scorerInvalid w
                | none => .ok r

/-- Checks 1 to 3, on the first bytes and on `KEY_ID`; none where they pass. -/
def State.castCheck1 (s : State) (head : List Byte) (keyId : Nat) : Option Status :=
  let n := fieldAt head 12 4
  if fieldAt head 0 4 ≠ 0x444D4C4F ∨ fieldAt head 4 2 ≠ 1 ∨ n % 64 ≠ 0 ∨ n < 384 ∨ 2 ^ 28 < n then some St.malformed
  else if fieldAt head 8 2 ≠ 0xA1 then some St.wrongRevision
  else if (s.mouldKey keyId).isNone then some St.unknownKey
  else none

end Sys2Proof.Machine
end

