-- ==== Sys2Proof/Machine/Image.lean ====
section
/-!
DEFINITION. Firmware images and the processors' stores (spec/10_firmware_and_ladles.md, R310, R315–R317).
-/

namespace Sys2Proof.Machine

/-! ### The firmware processors -/

/-- The processor as the core tables name it. -/
def fwProc : FwProc → Proc
  | .security => .hub 0
  | .power => .hub 1
  | .scheduler => .hub 2
  | .management => .hub 3
  | .cluster cl => .ccc cl

/-- The processor's number (R315). -/
def fwNo : FwProc → Nat
  | .security => 0
  | .power => 1
  | .scheduler => 2
  | .management => 3
  | .cluster _ => 4

/-- The bytes of a processor's instruction store, by its number (R310). -/
def storeBytes (proc : Nat) : Nat := if proc = 4 then 16384 else 4 * procWords (.hub (BitVec.ofNat 2 proc))

/-! ### An image (R315) -/

/-- A component entry. -/
structure Component where
  proc : Nat
  off : Nat
  bytes : Nat
  digest : List Byte

/-- The component entries that follow the header. -/
def imageComponents (raw : List Byte) : List Component :=
  (List.range 5).map fun i =>
    let e := 256 + 80 * i
    ⟨fieldAt raw e 1, fieldAt raw (e + 8) 4, fieldAt raw (e + 12) 4, (raw.drop (e + 16)).take 64⟩

def Component.data (c : Component) (raw : List Byte) : List Byte := (raw.drop c.off).take c.bytes
def Component.ok (c : Component) (raw : List Byte) : Bool := sha512 (c.data raw) == c.digest

/-- The entry of a processor's number. -/
def imageComponent (raw : List Byte) (proc : Nat) : Option Component := (imageComponents raw).find? fun c => decide (c.proc = proc)

/-- Where the signature block stands. -/
def imageSigAt (raw : List Byte) : Nat := raw.length - 128

/-- The form of an image: its header, one entry for each processor with its component between the entries and the signature
block, and a root key's index. -/
def imageForm (raw : List Byte) : Bool :=
  decide (784 ≤ raw.length) && decide (fieldAt raw 0 4 = 0x57464C4F) && decide (fieldAt raw 4 2 = 1) && decide (fieldAt raw 6 2 = 5) &&
    decide (fieldAt raw 12 2 < 256) && decide (fieldAt raw 14 2 = 0xA1) && decide (fieldAt raw 16 4 = raw.length) &&
    decide (raw.length ≤ 234881024) && ((List.range 5).all fun p => (imageComponent raw p).isSome) &&
    ((imageComponents raw).all fun c =>
      decide (656 ≤ c.off) && decide (c.off + c.bytes ≤ imageSigAt raw) && decide (c.bytes ≤ storeBytes c.proc)) &&
    decide (fieldAt raw (imageSigAt raw) 4 < 4)

/-- What the signature signs. -/
def imageDigest (raw : List Byte) : BitVec 512 := Config.sha512 (raw.take (imageSigAt raw))

/-- Whether the signature verifies under the root key that it names. -/
def imageSigned (raw : List Byte) : Bool :=
  Config.edVerify (Config.rootKey (fieldAt raw (imageSigAt raw) 4)) (leBytes 64 (imageDigest raw).toNat)
    (BitVec.ofNat 512 (fieldAt raw (imageSigAt raw + 16) 64))

/-- The header of an image. -/
def imageHdr (raw : List Byte) : ImageHdr :=
  ⟨BitVec.ofNat 32 (fieldAt raw 8 4), BitVec.ofNat 16 (fieldAt raw 12 2), BitVec.ofNat 16 (fieldAt raw 0x14 2),
    BitVec.ofNat 16 (fieldAt raw 0x16 2), imageDigest raw, raw⟩

/-- The checks of step 2 of R316, in order: form, security version, signature, and the security core's component. -/
def imageCheck (raw : List Byte) (fuse : Nat) (signed : Bool) : Status :=
  if !imageForm raw then St.malformed
  else if fieldAt raw 12 2 < fuse then St.rollback
  else if !signed then St.badSignature
  else match imageComponent raw 0 with
    | some c => if c.ok raw then St.success else St.malformed
    | none => St.malformed

/-- Whether every component's digest is right (R316, step 3). -/
def imageDigestsOk (raw : List Byte) : Bool := (imageComponents raw).all (·.ok raw)

/-- An image's components, by processor number. -/
def imageCopies (raw : List Byte) : Tab (List Byte) :=
  (imageComponents raw).foldl (fun t c => Tab.put [] t c.proc (c.data raw)) []

/-! ### Loading (R316, R317) -/

/-- A component in a processor's instruction store, from its first word on; the rest of the store holds nothing. -/
def Mem.loadStore (m : Mem) (p : Proc) (bs : List Byte) : Mem :=
  let b := storeBase p / 4
  (List.range ((bs.length + 3) / 4)).foldl (fun m i =>
    m.setWord (b + i) ⟨BitVec.ofNat 32 (leNat ((bs.drop (4 * i)).take 4)), Tag.code⟩)
    (m.clearLines (b / 16) ((b + procWords p) / 16))

/-- A processor's store is loaded from its copy in LPDDR; a factory image's content is not known, and its store stays empty. -/
def State.loadProc (s : State) (fp : FwProc) : State :=
  if s.fw.running.raw.isEmpty then s else { s with mem := s.mem.loadStore (fwProc fp) (Tab.get [] s.fw.copies (fwNo fp)) }

/-- The processor's copy still has the digest of the running image's entry (R317). -/
def State.copyOk (s : State) (fp : FwProc) : Bool :=
  match imageComponent s.fw.running.raw (fwNo fp) with
  | none => true
  | some c => s.fw.running.raw.isEmpty || sha512 (Tab.get [] s.fw.copies (fwNo fp)) == c.digest

def allFwProcs : List FwProc :=
  [.security, .power, .scheduler, .management] ++ (List.range 4096).map fun n => FwProc.cluster (BitVec.ofNat 12 n)

/-- Steps 3 and 4 of R316: the components of the running image in LPDDR and in the processors; none where a digest is wrong. -/
def State.loadFirmware (s : State) : Option State :=
  let raw := s.fw.running.raw
  if raw.isEmpty then some s
  else if !imageDigestsOk raw then none
  else some (allFwProcs.foldl State.loadProc { s with fw := { s.fw with copies := imageCopies raw } })

end Sys2Proof.Machine
end

