-- ==== Sys2Proof/Machine/Work.lean ====
section
/-!
DEFINITION. The work that a started command has under way, and its end by an abort, a timeout or a squash (R276, R326,
R328).
-/

namespace Sys2Proof.Machine

/-- A command's part in the tables of the hub's engines goes: what waits in firmware, frames not yet sent, ingest jobs,
check-value requests, commands that wait for a revocation, and twin commands. -/
def State.forget (s : State) (l : LadleRef) (tag : Word) : State :=
  let own (l' : LadleRef) (t : Word) : Bool := decide (l' = l) && t == tag
  let adm (t : Word) : Bool := own .admin t
  { s with
    fw := { s.fw with waiting := s.fw.waiting.filter fun t => !(adm t)
                      castCopy := s.fw.castCopy.filter fun x => !(adm x.1)
                      act := s.fw.act.filter fun a => !(adm a.tag) }
    net := { s.net with
      tx := s.net.tx.filter fun t => !(own t.ladle t.tag)
      classes := s.net.classes.map fun e => (e.1, e.2.map fun (c : NetClass) =>
        { c with closing := c.closing.filter fun x => !(own x.1 x.2) }) }
    xport := { s.xport with
      qps := s.xport.qps.map fun e => (e.1, { e.2 with closing := e.2.closing.filter fun x => !(own x.1 x.2) })
      mrs := s.xport.mrs.map fun e => (e.1, e.2.map fun (m : Mr) =>
        { m with asked := m.asked.filter fun x => !(own x.1 x.2), clearing := m.clearing.filter fun x => !(own x.1 x.2.1) }) }
    stor := { s.stor with
      flushes := s.stor.flushes.filter fun x => !(own x.ladle x.tag)
      vols := s.stor.vols.map fun e => (e.1, e.2.map fun (v : Volume) => { v with destroying := v.destroying.filter fun t => !(adm t) })
      jobs := s.stor.jobs.filter fun j => match j.origin with
        | .ingest l' t _ => !(own l' t)
        | .storage l' t => !(own l' t)
        | .message .. => true }
    sec := { s.sec with cvq := s.sec.cvq.filter fun q => !(own q.ladle q.tag)
                        cvRuns := s.sec.cvRuns.filter fun r => !(own r.req.ladle r.req.tag) }
    ing := { s.ing with waiting := s.ing.waiting.filter fun x => !(own x.2.1 x.2.2) }
    twin := { s.twin with
      st := if (s.twin.pairTag.map adm).getD false then .unpaired else s.twin.st
      kp := if (s.twin.pairTag.map adm).getD false then none else s.twin.kp
      epoch := if (s.twin.pairTag.map adm).getD false then 0 else s.twin.epoch
      link := s.twin.link && !((s.twin.pairTag.map adm).getD false)
      lanes := if (s.twin.pairTag.map adm).getD false then 0 else s.twin.lanes
      pairTag := s.twin.pairTag.filter fun t => !(adm t), readmitTag := s.twin.readmitTag.filter fun t => !(adm t) } }

/-- The command's work ends; its own completion has been decided. A message under way puts its queue pair in error; a
drive whose power state was being set returns to power state 0 (R403); a dispatch is no longer waited for (R331). -/
def State.endWork (s : State) (l : LadleRef) (tag : Word) : State :=
  let own (l' : LadleRef) (t : Word) : Bool := decide (l' = l) && t == tag
  let s := s.forget l tag
  let s := match l with
    | .admin => s
    | .flask f n => s.setFlask f { s.flask f with disps := (s.flask f).disps.filter fun d => !(d.n == n && d.tag == tag) }
  let s := (s.ing.takes.filter fun t => own t.ladle t.tag).foldl (fun s t => s.endTake t St.aborted) s
  let s := ((s.xport.qps.filter fun e => e.2.msgs.any fun m => own m.ladle m.tag).map Prod.fst).foldl
    (fun s n => s.qpFail n St.aborted none) s
  let powered := (s.stor.drives.filter fun e => match e.2.power with
    | some (t, _, _) => own .admin t
    | none => false).map Prod.fst
  let s := powered.foldl (fun s k =>
    let p : Port := BitVec.ofNat 3 k
    s.setDrive p { s.drive p with power := none, ps := 0 }) s
  let s := (s.stor.cmds.filter fun c => own c.ladle c.tag).foldl (fun s c => s.endDrv c St.aborted 0) s
  let ids := (s.stor.cmds.map (·.id))
  let gone (r : OutReq) : Bool := match r.who with
    | .drive id => !(ids.contains id)
    | _ => false
  let s := [0, 1].foldl (fun (s : State) (e : Ep) => s.modEp e fun x =>
    { x with queue := x.queue.filter fun r => !(gone r) }) s
  s.stepVols

end Sys2Proof.Machine
end

