-- ==== Sys2Proof/Machine/Cast.lean ====
section
/-!
DEFINITION. Casting: loading cores, wiring streams, writing synchronisation objects, full and partial casts
(spec/02_mould.md, R26–R66), and the substitution of failed cores (spec/05_streams_and_sync.md, R193–R196).
-/

namespace Sys2Proof.Machine

/-! ### A core in its flask (R33, R43, R101, R119, R128) -/

/-- The name of the core at a flask core index. -/
def coreAt (cls : List ClusterId) (i : Nat) : Option CoreId :=
  (cls[i / 256]?).map fun cl => BitVec.ofNat 20 (cl.toNat * 256 + i % 256)

/-- The formats and limits of a core under a mould; the first record that names it decides. -/
def Mould.fmtOf (m : Mould) (i : Nat) : CoreFmt :=
  let d := CoreFmt.default
  let d := match m.fmts.find? fun r => r.covers i with
    | none => d
    | some r => { d with wfmt := r.wfmt.extractLsb' 0 4, afmt := r.afmt.extractLsb' 0 4, stochastic := r.round == 1, seed := r.seed
                         satLimit := r.satLimit, outLimit := r.outLimit, clipLimit := r.clipLimit }
  match m.times.find? fun r => r.covers i with
  | none => d
  | some r => { d with operandNs := r.operandNs, watchdogUs := r.watchdogUs }

/-- R43. -/
def lfsrSeed (seed : BitVec 16) (i e : Nat) : BitVec 16 :=
  let v := seed ^^^ BitVec.ofNat 16 (i * 4 + e)
  if v = 0 then 0xACE1 else v

/-- R101. -/
def SegtRec.desc (r : SegtRec) (g : SegSpec) (i : Nat) (f : FlaskId) : Desc :=
  ⟨BitVec.ofNat 48 (r.baseFor g i), g.lines, g.perm.getLsbD 0, g.perm.getLsbD 1, g.perm.getLsbD 2, g.perm.getLsbD 3,
    g.deftag.extractLsb' 0 4, flaskDom f⟩

/-- A core that belongs to no flask; a failed one stays fenced (R196). -/
def Core.emptied (k : Core) : Core := { Core.reset with gen := k.gen, failed := k.failed }

/-- A core released at its `ENTRY` (R119, R128): `k` is what stands at its place; its ports are empty and unwired. A core that has
failed without a replacement is not released (R196). -/
def Core.loaded (k : Core) (f : FlaskId) (m : Mould) (r : SegtRec) (i : Nat) : Core :=
  let fmt := m.fmtOf i
  let sg : Vector Desc 8 := Vector.ofFn fun j => match r.segs[j.val]? with
    | some g => r.desc g i f
    | none => Desc.absent
  let d7 := sg[7]
  let g : Vector TWord 16 := (Vector.replicate 16 TWord.zero).set 14
    (if d7.lines = 0 then TWord.zero else ⟨d7.lines * 64, Tag.ptr⟩)
  let wd := fmt.watchdogUs * 100
  { Core.reset with
    a := { Arch.reset with g := g, pc := r.entry.toNat, sg := sg, tvec := r.loadAt.toNat, timers := ⟨false, 0, false, wd, wd⟩ }
    run := if r.image.isSome && !k.failed then .running else .held
    eng := Vector.ofFn fun e => { Engine.reset with lfsr := lfsrSeed fmt.seed i e.val }
    gen := k.gen, failed := k.failed, fmt := fmt, idx := i, flask := flaskDom f, hasImage := r.image.isSome }

/-- An image put in a core's store. -/
def Mem.putImage (m : Mem) (c : CoreId) (r : SegtRec) : Mem :=
  ((r.image.getD []).zipIdx).foldl (fun m x => m.setWord (coreBase c / 4 + r.loadAt.toNat + x.2) x.1) m

/-- The core at an index is loaded from a mould. -/
def State.loadCore (s : State) (f : FlaskId) (m : Mould) (i : Nat) : State :=
  match coreAt (s.flask f).clusters i, m.segts.find? fun r => r.covers i with
  | some c, some r =>
    let s := { s with mem := s.mem.putImage c r }
    s.setCore (.core c) ((s.core (.core c)).loaded f m r i)
  | _, _ => s

/-! ### Streams (R61, R165, R167) -/

/-- A stream is wired, with so many words standing in its destination's port. -/
def State.wire (s : State) (f : FlaskId) (r : RouteRec) (waiting : Nat) : State :=
  let cls := (s.flask f).clusters
  match coreAt cls r.src.toNat, coreAt cls r.dst.toNat with
  | some a, some b =>
    let q : Port := r.outPort.extractLsb' 0 3
    let n := r.credits.toNat
    let k := s.core (.core a)
    s.setCore (.core a) (k.setOutport q ⟨n - waiting, n, some (b, r.inPort.extractLsb' 0 3), waiting⟩)
  | _, _ => s

/-! ### Synchronisation objects (R47, R182, R185, R189) -/

/-- A barrier's first words. -/
def Barrier.fresh (r : SyncRec) : Barrier := ⟨0, 0, false, 0, r.value.toNat, r.expect, 0, 0, 0, 0⟩

/-- The object of a record written in its cluster's store. -/
def State.putObject (s : State) (cls : List ClusterId) (r : SyncRec) : State :=
  match cls[r.cluster.toNat]? with
  | none => s
  | some cl =>
    let fa := clusterBase cl + r.offset.toNat
    if r.kind = 1 then (s.syncWrite none fa ⟨r.value, Tag.int⟩).wakeTally fa
    else if r.kind = 2 then Barrier.write s none fa (Barrier.fresh r)
    else if r.kind = 3 then s.syncWrite none fa (lockWord 0 false false false)
    else Barrier.write s none fa { Barrier.read s fa with pend := true, pendPartic := r.value.toNat, pendExpect := r.expect }

/-! ### Stores and owners (R206, R216) -/

/-- The valid bits of a cluster's core and cluster stores cleared. -/
def Mem.clearCluster (m : Mem) (cl : ClusterId) : Mem :=
  let a := (clusterBase cl - 2 ^ 44) / 64
  (m.clearLines a (a + 2 ^ 26)).clearLines (clusterBase cl / 64) (clusterBase cl / 64 + 4096)

def State.giveCluster (s : State) (d : Domain) (cl : ClusterId) : State :=
  let old := s.mem.clusterOwnerOf cl
  let c := s.cluster cl
  let now := if d.toNat < 256 then (s.flask (BitVec.ofNat 8 d.toNat)).ceil else 160
  let ended := decide (old.toNat < 256) && decide ((s.flask (BitVec.ofNat 8 old.toNat)).ceil ≠ 160)
  let s := if now ≠ 160 then s.setCluster cl { c with ceilOwner := now }
    else if ended then s.setCluster cl { c with ceilOwner := 160 } else s
  { s with mem := { s.mem with clusterOwner := Tab.put 0x1FF s.mem.clusterOwner cl.toNat d }.clearCluster cl }
def State.giveGranule (s : State) (d : Domain) (g : Nat) : State :=
  { s with mem := { s.mem with owner := Tab.put 0x1FF s.mem.owner g d }.clearGranule g }

/-! ### What a core held (R192, R194) -/

/-- The waiter entries of a processor are withdrawn. -/
def State.dropWaiters (s : State) (p : Proc) : State :=
  let gone := s.clusters.flatMap fun e => (e.2.waiters.filter fun w => w.issuer == p).map (·.addr.toNat)
  gone.foldl State.markWaiters (s.mapClusters fun c => { c with waiters := c.waiters.filter fun w => !(w.issuer == p) })

/-- A core's words in its ports are dropped and counted in its cluster (R61, R194). -/
def State.dropWords (s : State) (c : CoreId) : State :=
  let n := ((s.core (.core c)).inp.toList.map List.length).sum
  let cl := coreCluster c
  let k := s.cluster cl
  (s.setCluster cl { k with streamDrops := BitVec.ofNat 32 (min (2 ^ 32 - 1) (k.streamDrops.toNat + n)) }).modCore (.core c)
    fun k => { k with inp := Vector.replicate 8 [] }

/-- The credits of the words in a core's ports start back to their sources, from the port of the generation given (R59, R194). -/
def State.creditWords (s : State) (c : CoreId) (gen : Byte) : State :=
  let k := s.core (.core c)
  let back := (allPorts.flatMap fun q => (k.inport q).filterMap fun w =>
    if w.hub then none else (s.feeder c q).map fun x => (x.1, x.2, gen, 1))
  { s with fab := { s.fab with credits := s.fab.credits ++ back } }

/-- What a core had on its way is withdrawn. -/
def State.dropFabric (s : State) (p : Proc) : State :=
  { s with fab := { s.fab with reqs := s.fab.reqs.filter fun r => !(r.issuer == p), reps := s.fab.reps.filter fun r => !(r.issuer == p)
                               syncs := s.fab.syncs.filter fun r => !(r.issuer == p)
                               syncReps := s.fab.syncReps.filter fun r => !(r.issuer == p) } }

/-- A core that a cast reloads or removes loses what it held. -/
def State.strip (s : State) (c : CoreId) : State :=
  (((s.loseLocks (.core c)).dropWaiters (.core c)).dropFabric (.core c)).dropWords c

/-! ### Stopping (R109, R118, R157) -/

/-- Whether a core has come to the boundary at which it stops, and nothing of it is on its way; one that has stopped already still
has its stores and block moves to complete (R118). -/
def State.quiet (s : State) (c : CoreId) : Bool :=
  let p := Proc.core c
  let k := s.core p
  (decide (k.run ≠ .running) || k.atBoundary) && k.moves.toList.all Option.isNone && decide (k.unacked = 0) &&
    !(s.fab.reqs.any fun r => r.issuer == p && r.gen == k.gen) &&
    !(s.fab.syncs.any fun r => r.issuer == p && r.gen == k.gen && !(r.kind.isLock || r.kind == .twait))

/-- Engines finish the operation that they execute, unless it waits for a port word, and drop the one queued behind it; they report
nothing, and an error found before is held on (R157). The reservation goes. -/
def State.stopEngines (s : State) (c : CoreId) : State :=
  let p := Proc.core c
  let s := allEngines.foldl (fun s e =>
    let k := s.core p
    let err := (k.engine e).err
    match (k.engine e).queue with
    | [] => s
    | op :: _ =>
      let s := if op.ready k.fmt then s.endOp p e op else s
      s.modCore p fun k => k.setEngine e { k.engine e with queue := [], err := err }) s
  s.modCore p fun k => { k with a := { k.a with resv := ⟨false, k.a.resv.line⟩ } }

/-! ### The current mould (R54) -/

/-- Barrier updates folded into the records of their barriers. -/
def foldUpdates (rs : List SyncRec) : List SyncRec :=
  let at_ (a b : SyncRec) : Bool := a.cluster == b.cluster && a.offset == b.offset
  (rs.filter fun r => decide (r.kind ≠ 4)).map fun r =>
    if r.kind ≠ 2 then r
    else match rs.find? fun u => decide (u.kind = 4) && at_ u r with
      | some u => { r with value := u.value, expect := u.expect }
      | none => r

def FmtRec.defaultFor (cl : Nat) : FmtRec :=
  ⟨BitVec.ofNat 32 (cl * 256), BitVec.ofNat 32 (cl * 256 + 255), 0, 0, 0, 0, 0, 0, 0⟩
def TimeRec.defaultFor (cl : Nat) : TimeRec := ⟨BitVec.ofNat 32 (cl * 256), BitVec.ofNat 32 (cl * 256 + 255), 4000, 100000⟩

/-- The flask's mould once the container has been cast. -/
def Container.mouldAfter (c : Container) (fl : Flask) : Mould :=
  let full : Mould :=
    { id := c.id, sequence := BitVec.ofNat 32 c.seq, userCounters := c.userCounters, dedup := c.dedup, rotatable := c.rotatable
      jobGroup := c.job, measure := c.digest, segts := c.segts, fmts := c.fmts, times := c.times, routes := c.routes
      syncs := foldUpdates c.syncs, feeds := c.feeds, scors := c.scors }
  if !c.isPartial then full
  else match fl.mould with
  | none => full
  | some m =>
    { m with
      id := c.id, sequence := BitVec.ofNat 32 c.seq
      measure := Config.sha512 (leBytes 64 m.measure.toNat ++ leBytes 64 c.digest.toNat)
      segts := c.segts ++ m.segts, fmts := c.fmts ++ (c.touched 1).map FmtRec.defaultFor ++ m.fmts
      times := c.times ++ (c.touched 1).map TimeRec.defaultFor ++ m.times
      routes := c.keptRoutes fl ++ c.routes
      syncs := foldUpdates (c.syncs ++ c.oldSyncs fl)
      feeds := if (c.sec 9).isSome then c.feeds else m.feeds
      scors := if (c.sec 10).isSome then c.scors else m.scors }

/-! ### Full casts (R57) -/

/-- Every core of the flask loaded, every stream wired, every object written (R57, steps 5 and 7; R275, step 7). -/
def State.loadAll (s : State) (f : FlaskId) (m : Mould) : State :=
  let cls := (s.flask f).clusters
  let s := (List.range (cls.length * 256)).foldl (fun s i => s.loadCore f m i) s
  let s := m.routes.foldl (fun s r => s.wire f r 0) s
  m.syncs.foldl (fun s r => s.putObject cls r) s

/-- RUNNING, or HELD where the bound endpoint's liveness has lapsed (R262, R340). -/
def State.runState (s : State) (fl : Flask) : FState :=
  if (fl.host = 0 && s.live0.lapsed) || (fl.host = 1 && s.live1.lapsed) then .held else .running

def State.castFull (s : State) (f : FlaskId) (c : Container) (r : Nat) : State :=
  let fl := s.flask f
  let cls := c.clustersAfter r
  let gs := c.granulesAfter s fl r
  let m := c.mouldAfter fl
  let d := flaskDom f
  let s := gs.foldl (fun s g => s.giveGranule d g) (cls.foldl (fun s cl => s.giveCluster d cl) s)
  let s := cls.foldl (fun s cl => s.setCluster cl { s.cluster cl with waiters := [] }) s
  let s := s.setFlask f { fl with clusters := cls, granules := gs, rot := BitVec.ofNat 3 r, mould := some m, st := s.runState fl
                                  keyLoaded := fl.key.isSome && !gs.isEmpty, mouldBytes := [c.raw] }
  (s.writeTrip (.mouldRoot f)).loadAll f m

/-! ### Partial casts (R60–R63, R273) -/

/-- The flask core indices, before the cast, of cores that stop: those reloaded, and those of removed clusters. -/
def Container.stops (c : Container) (fl : Flask) : List Nat :=
  let segs := c.segts
  (List.range (fl.clusters.length * 256)).filter fun i =>
    (c.touched 2).contains (i / 256) || (decide (i / 256 < c.kept fl) && segs.any fun r => r.covers i)

/-- The streams of the flask that a partial cast rewrites or removes. -/
def Container.cutRoutes (c : Container) (fl : Flask) : List RouteRec :=
  let keeps := c.keptRoutes fl
  match fl.mould with
  | none => []
  | some m => m.routes.filter fun r => !(keeps.contains r)

/-- Whether step 4 is over: the cores that stop are quiet, and no word is on its way on a stream that is rewritten. -/
def State.settledFor (s : State) (c : Container) (f : FlaskId) : Bool :=
  let fl := s.flask f
  let cs := (c.stops fl).filterMap (coreAt fl.clusters)
  cs.all s.quiet && !((c.cutRoutes fl).any fun r => match coreAt fl.clusters r.src.toNat with
    | none => false
    | some a => s.fab.transit.any fun t => t.src == a && t.port == r.outPort.extractLsb' 0 3)

/-- Whether a range of flask addresses meets a granule that is removed. -/
def Container.hitsGranule (c : Container) (fl : Flask) (a n : Nat) : Bool :=
  decide (space a = 2) && decide (0 < n) && decide (c.granules * 2 ^ 28 < bits a 43 0 + n ∧ bits a 43 0 < fl.granules.length * 2 ^ 28)

/-- Whether a target meets a granule or a cluster that is removed. -/
def Container.hits (c : Container) (fl : Flask) (a n : Nat) : Bool :=
  c.hitsGranule fl a n || (decide (space a < 2) && (c.touched 2).contains (bits a 43 32))

/-- Whether a binding, or the ingest binding that follows it, names such a target. -/
def Container.hitsFeed (c : Container) (fl : Flask) (r : Option FeedRec) : Bool :=
  r.any fun r => c.hits fl r.target.toNat r.targetBytes.toNat

/-- The flask's ladle commands whose data lie in what is removed: storage commands, ingest jobs, messages, check values (R62,
R273). -/
def State.hitWork (s : State) (c : Container) (f : FlaskId) : List (LadleRef × Word) :=
  let fl := s.flask f
  let d := flaskDom f
  let cv (q : CvReq) : Bool := decide (ladleDom q.ladle = d) &&
    (c.hitsGranule fl q.p.src.toNat q.p.length.toNat || c.hitsGranule fl q.p.tagAddr.toNat q.p.tagLen.toNat)
  ((s.stor.cmds.filter fun x => decide (ladleDom x.ladle = d) && (c.hits fl x.addr.toNat (4096 * x.blocks) ||
      x.feed.any fun r => c.hitsFeed fl (some r.1) || c.hitsFeed fl r.2)).map fun x => (x.ladle, x.tag)) ++
    ((s.stor.jobs.filter fun j => j.flask == f && (c.hits fl j.src.toNat j.len || c.hitsFeed fl j.feed)).filterMap fun j =>
      match j.origin with
      | .ingest l t _ => some (l, t)
      | .storage l t => some (l, t)
      | .message .. => none) ++
    ((s.xport.qps.filter fun e => e.2.flask == d).flatMap fun e =>
      (e.2.msgs.filter fun m => m.done.isNone && c.hitsGranule fl m.local'.toNat m.len).map fun m => (m.ladle, m.tag)) ++
    ((s.sec.cvq.filter cv).map fun q => (q.ladle, q.tag)) ++ ((s.sec.cvRuns.filter fun r => cv r.req).map fun r => (r.req.ladle, r.req.tag))

/-- A placement that goes to, or reads from, what is removed. -/
def Container.hitsPlace (c : Container) (fl : Flask) (d : Domain) (p : Placement) : Bool :=
  p.dom == d && match p.addr with
    | some a => c.hits fl a.toNat (max p.payload.length (p.readLen.getD 0))
    | none => false

/-- A classified frame that is bound for what is removed. -/
def Container.hitsFrame (c : Container) (fl : Flask) (f : FlaskId) (x : Frame) : Bool :=
  x.feed.any fun r => r.1 == f && c.hitsFeed fl (some r.2)

/-- An ingest job of a message, which no ladle command waits for, that is bound there. -/
def Container.hitsJob (c : Container) (fl : Flask) (f : FlaskId) (j : Job) : Bool :=
  j.flask == f && (c.hits fl j.src.toNat j.len || c.hitsFeed fl j.feed)

/-- Placements, messages begun, frames and jobs that target what is removed (R62, R273). -/
def State.hitPlaces (s : State) (c : Container) (f : FlaskId) : Bool :=
  let fl := s.flask f
  s.xport.places.any (c.hitsPlace fl (flaskDom f)) ||
    (s.xport.qps.any fun e => e.2.flask == flaskDom f && e.2.rx.any fun m => !m.ended && (c.hitsFeed fl m.feed || c.hitsFeed fl m.next)) ||
    (s.net.ports.any fun e => e.2.buf.any (c.hitsFrame fl f)) || s.stor.jobs.any (c.hitsJob fl f)

/-- The flask's registrations that cover a removed granule. -/
def State.hitMrs (s : State) (c : Container) (f : FlaskId) : List Nat :=
  (s.xport.mrs.filter fun e => match e.2 with
    | some m => m.flask == f && c.hitsGranule (s.flask f) m.base.toNat m.len
    | none => false).map Prod.fst

/-- Registrations that cover a removed granule begin to be revoked (R273). -/
def State.revokeLeaving (s : State) (c : Container) (f : FlaskId) : State :=
  (s.hitMrs c f).foldl (fun s i => if (s.mr i).any (·.revoking) then s else s.revokeMr i []) s

/-- Whether something that the cast waits for is left: revocations, and transfers (R62, R273). -/
def State.leaving (s : State) (c : Container) (f : FlaskId) : Bool :=
  !(s.hitMrs c f).isEmpty || !(s.hitWork c f).isEmpty || s.hitPlaces c f

/-- Transfers still under way are squashed, which lets the revocations complete, and windows on the removed granules are disabled
(R273). -/
def State.leaveGranules (s : State) (c : Container) (f : FlaskId) : State :=
  let fl := s.flask f
  let s := { s with
    xport := { s.xport with places := s.xport.places.filter fun p => !(c.hitsPlace fl (flaskDom f) p) }
    net := { s.net with ports := s.net.ports.map fun (e : Nat × NetPort) =>
      (e.1, { e.2 with buf := e.2.buf.filter fun x => !(c.hitsFrame fl f x) : NetPort }.ease) } }
  let s := (s.hitWork c f).foldl (fun (s : State) (x : LadleRef × Word) => (s.complete x.1 x.2 St.aborted 0 []).endWork x.1 x.2) s
  let s := { s with stor := { s.stor with jobs := s.stor.jobs.filter fun j => !(c.hitsJob fl f j) } }
  let s := (s.hitMrs c f).foldl State.finishRevoke s
  [0, 1].foldl (fun (s : State) (e : Ep) =>
    ((List.range 1024).filter fun i =>
      let w := s.inEntry e i
      w.en && w.flask == f && decide (w.kind = 0) && c.hitsGranule fl w.target (2 ^ w.log2)).foldl (fun s i => s.disableWin e false i) s) s

/-- Tokens held for cores of removed clusters are dropped; the flask learns of each scorer request that has none left to issue
(R260). -/
def State.dropTokens (s : State) (f : FlaskId) (gone : List ClusterId) : State :=
  let mine (t : HeldToken) : Bool := gone.contains (coreCluster t.core)
  let lost := ((s.fab.tokens.filter fun t => mine t && decide (t.w.toNat / 2 ^ 28 = 3)).map fun t =>
    (t.w.toNat / 2 ^ 16 % 2 ^ 12, t.w.toNat % 64)).eraseDups
  let goesOn (x : Nat × Nat) : Bool := s.scor.any fun q => q.flask == f && decide (q.region.toNat % 4096 = x.1 ∧ q.slot.toNat = x.2)
  let region (n : Nat) : Nat :=
    (((s.flask f).mould.bind fun m => m.scors.find? fun r => decide (r.region.toNat % 4096 = n)).map (·.region.toNat)).getD n
  (lost.filter fun x => !(goesOn x)).foldl (fun s x => s.postFlask f 0x0109 St.accessFault 0xFFF (evData [region x.1, x.2]))
    { s with fab := { s.fab with tokens := s.fab.tokens.filter fun t => !(mine t) } }

/-- A cluster leaves the flask: its waiters wake, its cores are empty, its stores are cleared (R181, R184, R188, R192, R206). -/
def State.leaveCluster (s : State) (cl : ClusterId) : State :=
  let ws := (s.cluster cl).waiters
  let s := s.setCluster cl { s.cluster cl with waiters := [] }
  let s := ws.foldl (fun s w => match w.kind with
    | .tally => s.wakeWith w (.data ⟨0x50, Tag.int⟩)
    | .lock => s.wakeWith w (.flags false (some ⟨0x50, Tag.int⟩))
    | .barrier _ false false => s.wakeWith w (.sync (BitVec.ofNat 32 SyncCause.gone))
    | .barrier .. => s) s
  let s := (List.range 256).foldl (fun s i => s.modCore (.core (BitVec.ofNat 20 (cl.toNat * 256 + i))) Core.emptied) s
  s.giveCluster 0x1FF cl

/-- Steps 4 to 9 of a partial cast whose step 4 is over. Words that wait at a port of a core that is not reloaded stay there when
their stream is removed, or comes from another source; they are not deducted from a new stream's credits, which R61 does only for
a stream that keeps its ends (DESIGN CHOICE, log entry 116). -/
def State.castPartial (s : State) (f : FlaskId) (c : Container) (r : Nat) : State :=
  let fl := s.flask f
  let d := flaskDom f
  let cls := c.clustersAfter r
  let gs := c.granulesAfter s fl r
  let m := c.mouldAfter fl
  let cuts := c.cutRoutes fl
  let stopped := (c.stops fl).filterMap (coreAt fl.clusters)
  let goneCls := (c.touched 2).filterMap fun k => fl.clusters[k]?
  let goneGs := fl.granules.drop c.granules
  -- step 4
  let s := s.leaveGranules c f
  let s := stopped.foldl (fun s x => (s.stopEngines x).strip x) s
  -- streams that are rewritten or removed give up their credits
  let s := cuts.foldl (fun s x => match coreAt fl.clusters x.src.toNat with
    | none => s
    | some a =>
      let q : Port := x.outPort.extractLsb' 0 3
      ({ s with fab := { s.fab with credits := s.fab.credits.filter fun y => !(y.1 == a && y.2.1 == q) } }).modCore (.core a)
        fun k => k.setOutport q OutPort.unused) s
  -- removed clusters and granules
  let s := goneCls.foldl State.leaveCluster (s.dropTokens f goneCls)
  let s := goneGs.foldl (fun s g => s.giveGranule 0x1FF g) s
  let s := (cls.drop (c.kept fl)).foldl (fun (s : State) cl =>
    let s := s.giveCluster d cl
    s.setCluster cl { s.cluster cl with waiters := [] }) s
  let s := (gs.drop (c.oldGranules fl)).foldl (fun s g => s.giveGranule d g) s
  let s := s.setFlask f { s.flask f with clusters := cls, granules := gs, mould := some m, keyLoaded := fl.key.isSome && !gs.isEmpty
                                         mouldBytes := fl.mouldBytes ++ [c.raw] }
  let s := s.writeTrip (.mouldRoot f)
  -- steps 5 and 7
  let segs := c.segts
  let loads := (List.range (c.clusters * 256)).filter fun i => segs.any fun x => x.covers i
  let s := loads.foldl (fun s i => s.loadCore f m i) s
  let s := c.routes.foldl (fun s x =>
    let same := cuts.any fun y => y.stream == x.stream && y.src == x.src && y.dst == x.dst && y.outPort == x.outPort && y.inPort == x.inPort
    let waiting := if same then match coreAt cls x.dst.toNat with
        | some b => (s.core (.core b)).portCount (x.inPort.extractLsb' 0 3) false
        | none => 0
      else 0
    s.wire f x waiting) s
  let s := c.syncs.foldl (fun s x => s.putObject cls x) s
  -- cores whose streams were rewritten look again
  cuts.foldl (fun s x => match coreAt cls x.src.toNat with
    | some a => s.rerun (.core a)
    | none => s) s

/-- A partial cast that is undone after its step 4 began (R59): of the cores to be reloaded, those that had begun to be, a free choice
among them, are loaded again from the current mould, and the credits of their dropped words go back; the others, and the cores of
clusters that would have been removed, go on with what the stop cleared. -/
def State.undoPartial (s : State) (f : FlaskId) (c : Container) : State :=
  let fl := s.flask f
  match fl.mould with
  | none => s
  | some m =>
    let is := c.stops fl
    let choice (n : Nat) : Bool := (Config.freeValue (s.fresh + n / 64)).getLsbD (n % 64)
    let mayLoad (i : Nat) : Bool := !((c.touched 2).contains (i / 256)) && (coreAt fl.clusters i).any s.quiet
    let redo := (is.zipIdx.filter fun x => choice x.2 && mayLoad x.1).map Prod.fst
    let s := (is.filterMap (coreAt fl.clusters)).foldl State.stopEngines { s with fresh := s.fresh + is.length / 64 + 1 }
    redo.foldl (fun s i => match coreAt fl.clusters i with
      | none => s
      | some x =>
        let k := s.core (.core x)
        ((((s.creditWords x k.gen).strip x).loadCore f m i).modCore (.core x) fun y => { y with outp := k.outp })) s

/-! ### CAST and QUEUED_CAST_START (R26–R28, R64, R65) -/

/-- Steps of a cast are traced (R335). -/
def State.castSteps (s : State) (n : Nat) : State := (List.range n).foldl (fun s _ => s.tap 3 0x100) s

/-- A cast ends: the event for the flask and the owner, then the completion (R59); the firmware's copy of the mould goes. -/
def State.castDone (s : State) (tag : Word) (f : Option FlaskId) (st : Status) (detail : Word) : State :=
  let ok := decide (st = St.success)
  let fl := (f.filter fun _ => ok).map s.flask
  let rot := (fl.map fun x => x.rot.toNat).getD 0
  let measure := ((fl.bind (·.mould)).map fun m => m.measure.toNat).getD 0
  let begun := s.fw.castCopy.any fun x => decide (x.1 = tag)
  let s := s.castSteps (if ok then 7 else if decide (st = St.clusterFault) then 3 else if begun then 1 else 2)
  let s := { s with fw := { s.fw with castCopy := s.fw.castCopy.filter fun x => decide (x.1 ≠ tag) } }
  let s := match f with
    | some f => if ok then s.mirrorNow (.moulds f) else s
    | none => s
  (s.castEvent f st rot).complete .admin tag st detail (leBytes 16 rot ++ leBytes 32 measure)

/-- How a cast is cut short. -/
def CastCut_status : CastCut → Option Status
  | .none => none
  | .byReset => some St.abortedByReset
  | .byAbort => some St.aborted
  | .byBreakout => some St.aborted
  | .schedulerRestart => some St.internal

/-- Checks 1 to 4 of R55, with what `signed` says of the signature: the container, in a copy that the firmware keeps from then on
(R28); or the status that the cast ends with. -/
def State.verifyMould (s : State) (tag : Word) (signed : Container → BitVec 256 → Bool) : State × Except Status Container :=
  let head := s.mem.bytes stagingBase 16
  let n := fieldAt head 12 4
  let keyId := leNat (s.mem.bytes (stagingBase + n - 128) 4)
  match s.castCheck1 head keyId with
  | some st => (s, .error st)
  | none =>
    let q := s.hubRead 0x100 .hub stagingBase n
    let s := q.2.1
    let c := Container.read q.1
    if q.2.2 ≠ .ok then (s, .error St.uncorrectable)
    else if !((s.mouldKey keyId).any (signed c)) then (s, .error St.badSignature)
    else (State.castSteps { s with fw := { s.fw with castCopy := some (tag, q.1) } } 2, .ok c)

/-- The mould that a cast works from: the copy made at an earlier turn of it, or the staging area, read and verified now (R28). -/
def State.takeMould (s : State) (tag : Word) (signed : Container → BitVec 256 → Bool) : State × Except Status Container :=
  match s.fw.castCopy.filter fun x => decide (x.1 = tag) with
  | some x => (s, .ok (Container.read x.2))
  | none => s.verifyMould tag signed

/-- A cast whose checks have passed, and how it goes: `true` where it waits, for the cores that it stops or for what leaves the flask
with the granules and clusters that it removes; the drain timeout, a free bit, squashes what is left (R60, R62, R273). -/
def State.goCast (s : State) (tag : Word) (f : FlaskId) (c : Container) (r : Nat) (env : CastEnv) : State × Bool :=
  let ended (s : State) (st : Status) (w : Word) : State × Bool := (s.castDone tag (some f) st w, false)
  match env.loadFault, CastCut_status env.cut with
  | some cl, _ => ended (if c.isPartial then s.undoPartial f c else s) St.clusterFault (cl.setWidth 32)
  | none, some st =>
    if !c.isPartial then ended s st nowhere
    else ended (if s.freeBit then s.took.undoPartial f c else s.took) st nowhere
  | none, none =>
    if !c.isPartial then ended (s.castFull f c r) St.success nowhere
    else
      let s := s.revokeLeaving c f
      if !s.settledFor c f then (s, true)
      else if !s.leaving c f then ended (s.castPartial f c r) St.success nowhere
      else if s.freeBit then (s.took, true)
      else ended (s.took.castPartial f c r) St.success nowhere

/-- The cast is performed, or waits: for the security core to verify its mould (R339), for an ingot of the flask to finish streaming
(R64), or as goCast says. -/
def State.performCastAs (s : State) (tag : Word) (flask : BitVec 16) (env : CastEnv) (signed : Container → BitVec 256 → Bool) :
    State × Bool :=
  match flaskOf flask.toNat with
  | none => (s.castDone tag none St.malformed nowhere, false)
  | some f =>
    let ended (s : State) (st : Status) (w : Word) : State × Bool := (s.castDone tag (some f) st w, false)
    let s := s.readTrip (.mouldRoot f)
    let st := (s.flask f).st
    if st = .failed then ended s St.uncorrectable nowhere
    else if !(decide (st = .empty) || st.isCast) then ended s St.wrongState nowhere
    else if s.fw.down.contains .security && !(s.fw.castCopy.any fun x => decide (x.1 = tag)) then (s, true)
    else match s.takeMould tag signed with
      | (s, .error st) => ended s st nowhere
      | (s, .ok c) =>
        if (s.flask f).ingot && decide (c.minFw ≤ s.fw.running.version.toNat) then (s, true)
        else match c.check s f with
          | .bad st w => ended s st w
          | .ok r => s.goCast tag f c r env

/-- The signature is verified under the key that `KEY_ID` names (R53). -/
def State.performCast (s : State) (tag : Word) (flask : BitVec 16) (env : CastEnv) : State × Bool :=
  s.performCastAs tag flask env Container.signedBy

/-- A CAST or FW_STAGE waits for its turn (R27, R336). -/
def State.queueCast (s : State) (tag : Word) : State := { s with fw := { s.fw with waiting := s.fw.waiting ++ [tag] } }

/-- CAST: one at a time, in order; a cast that waits is taken up by QUEUED_CAST_START. -/
def execCast (h : CmdHdr) (flask : BitVec 16) (env : CastEnv) (s : State) : Host.Outcome State Fault Refusal :=
  s.command h (.cast h flask env) fun s =>
    if !s.fw.waiting.isEmpty then s.queueCast h.tag
    else
      let r := s.performCast h.tag flask env
      if r.2 then r.1.queueCast h.tag else r.1

/-! ### Failed cores (R193–R196) -/

/-- The words that a core's output port has sent and its switch has not yet forwarded. -/
def State.unforwarded (s : State) (c : CoreId) (q : Nat) : Nat :=
  s.fab.transit.countP fun t => t.src == c && t.gen == (s.core (.core c)).gen && decide (t.port.toNat = q)

/-- What was in or with the failed core goes: the words in its ports, its locks and waiter entries, its block moves (R194, step 2). -/
def State.loseCore (s : State) (c : CoreId) : State :=
  (((s.dropWords c).loseLocks (.core c)).dropWaiters (.core c)).modCore (.core c) fun k =>
    { k with moves := Vector.replicate 4 none, wait := none, unacked := 0 }

/-- The core is replaced by a spare, whose store is clear but for the image, and whose output ports have their `CREDITS` less what
is outstanding (R194). A core of no cast flask has nothing to load, and no flask to tell. -/
def State.substitute (s : State) (c : CoreId) : State :=
  let cl := coreCluster c
  let k := s.core (.core c)
  let x := s.cluster cl
  let s := s.setCluster cl { x with gen := x.gen + 1, spares := x.spares - 1, last := BitVec.ofNat 8 (c.toNat % 256) }
  let outs := k.outp.mapIdx fun q o =>
    let n := o.sent - s.unforwarded c q
    { o with credits := o.max - n, sent := n }
  let s := (s.creditWords c (k.gen + 1)).loseCore c
  let s := { s with mem := { s.mem.clearLines (coreBase c / 64) (coreBase c / 64 + 128) with
    hardFaults := s.mem.hardFaults.filter (· ≠ storeOf (coreBase c)) } }
  let f : FlaskId := BitVec.ofNat 8 k.flask.toNat
  let fresh (k' : Core) : Core := { k'.emptied with gen := k.gen + 1, flask := k.flask, idx := k.idx, pm := k.pm }
  match if k.flask.toNat < 256 then (s.flask f).mould else none with
  | none => s.modCore (.core c) fresh
  | some m =>
    let s := (s.modCore (.core c) fresh).loadCore f m k.idx
    let s := s.modCore (.core c) fun x => { x with outp := outs, pm := k.pm }
    let y := s.cluster cl
    s.postCluster cl (flaskDom f) 0x0106 St.success
      (evData [c.toNat, y.gen.toNat, y.streamDrops.toNat, y.fenceDrops.toNat])

/-- No spare is left: the failed core is fenced, and stays so whatever is cast or commanded (R196). -/
def State.fenceCore (s : State) (c : CoreId) : State :=
  let p := Proc.core c
  let cl := coreCluster c
  let x := s.cluster cl
  let s := (s.setCluster cl { x with gen := x.gen + 1 }).loseCore c
  let s := s.modCore p fun k => { k with run := .held, gen := k.gen + 1, failed := true }
  let ev := evData [cl.toNat]
  let d := (s.core p).flask
  (if d.toNat < 256 then s.postCluster cl d 0x0107 St.success ev else s).postOwner 0x0107 St.success cl.toNat ev

/-- CORE_FAILURE_DECLARE: a core that answers its probe is not replaced, which the cause says; without a spare the core
stays fenced (R196). -/
def execCoreFailureDeclare (c : CoreId) (cause : FailCause) (s : State) : Host.Outcome State Fault Refusal :=
  let k := s.core (.core c)
  let cl := coreCluster c
  let stopped := match k.run with
    | .stopped .. => true
    | _ => false
  if k.failed || (decide (cause = .probeTimeout) && !stopped) || s.fw.down.contains (.cluster cl) then .next s
  else if 0 < (s.cluster cl).spares then .next (s.substitute c)
  else .next (s.fenceCore c)

end Sys2Proof.Machine
end

