-- ==== Sys2Proof/Machine/Flask.lean ====
section
/-!
DEFINITION. The lifecycle of flasks: creation, reset, drain and squash, destruction (spec/08_flasks.md, R261–R279), and the
arbiter of aborts and timeouts (R326, R328).
-/

namespace Sys2Proof.Machine

/-! ### Creation (R264–R266) -/

/-- The sum of a reservation over the flasks that are not FREE. -/
def State.reserved (s : State) (q : Flask → Nat) : Nat := (s.liveFlasks.map fun f => q (s.flask f)).sum

def createLegal (p : CreateP) : Bool :=
  decide (p.host.toNat ≤ 2 ∧ p.vectors.toNat ≤ 8) && (decide (p.host ≠ 2) || decide (p.vectors = 0)) &&
    decide (1 ≤ p.ladles.toNat ∧ p.ladles.toNat ≤ 16 ∧ p.qpQuota.toNat ≤ 262144 ∧ p.mrQuota.toNat ≤ 1048576 ∧ p.shQuota.toNat ≤ 65536) &&
    decide (p.drainUs = 0 ∨ (100 ≤ p.drainUs.toNat ∧ p.drainUs.toNat ≤ 50000)) && decide (p.resv = 0)

/-- The lowest module shapers that no flask has. -/
def State.freeShapers (s : State) (n : Nat) : List Nat :=
  let used := s.liveFlasks.flatMap fun f => (s.flask f).shapers
  ((List.range 65536).filter fun i => !(used.contains i)).take n

/-- A flask is created: EMPTY, with its quotas, key and page (R264–R266). -/
def State.newFlask (s : State) (f : FlaskId) (p : CreateP) : State :=
  let old := s.flask f
  let sh := s.freeShapers p.shQuota.toNat
  let s := s.setFlask f { Flask.reset with
    st := .empty, host := p.host.extractLsb' 0 2, vectors := p.vectors.toNat, nladles := p.ladles.toNat, qpQuota := p.qpQuota.toNat
    mrQuota := p.mrQuota.toNat, shQuota := p.shQuota.toNat, drainUs := if p.drainUs = 0 then 10000 else p.drainUs.extractLsb' 0 16
    key := some (BitVec.ofNat 512 (s.random 8)), vecFirst := 8 * f.toNat, stray := old.stray, ladles := old.ladles, shapers := sh
    lastStatus := old.lastStatus, lastSquashed := old.lastSquashed, lastByTenant := old.lastByTenant }
  sh.foldl (fun s i => s.setShaper i { Shaper.free with flask := flaskDom f }) { s with fresh := s.fresh + 8 }

/-- Whether the quotas fit what other flasks leave (R265). -/
def State.quotasFit (s : State) (p : CreateP) : Bool :=
  decide (s.reserved (·.qpQuota) + p.qpQuota.toNat ≤ 262144 ∧ s.reserved (·.mrQuota) + p.mrQuota.toNat ≤ 1048576 ∧
    s.reserved (·.shQuota) + p.shQuota.toNat ≤ 65536)

def State.freeFlask (s : State) : Option FlaskId :=
  ((List.range 256).map fun i => (BitVec.ofNat 8 i : FlaskId)).find? fun f => decide ((s.flask f).st = .free)

/-- CREATE; in test and recovery mode `WRONG_STATE` (R511). -/
def execCreate (h : CmdHdr) (p : CreateP) (s : State) : Host.Outcome State Fault Refusal :=
  s.command h (.create h p) fun s =>
    if 255 < p.flask.toNat ∧ p.flask ≠ 0xFFFF then s.done h St.malformed
    else
      let named : Option FlaskId := if p.flask = 0xFFFF then s.freeFlask else some (BitVec.ofNat 8 p.flask.toNat)
      match named with
      | none => s.done h (if createLegal p then St.noCapacity else St.malformed)
      | some f =>
        if (s.flask f).st = .failed then s.done h St.uncorrectable
        else if !(createLegal p) then s.done h St.malformed
        else if (s.flask f).st ≠ .free ∨ s.phase ≠ .service then s.done h St.wrongState
        else if !s.quotasFit p then s.done h St.noCapacity
        else (((s.newFlask f p).mirrorNow (.key f)).mirrorNow (.flask f)).complete h.ladle h.tag St.success (f.setWidth 32) []

/-! ### Steps 1 to 3 of a reset (R275) -/

/-- The ladles of a flask that exist. -/
def Flask.ladleNos (fl : Flask) : List (BitVec 4) := (List.range fl.nladles).map fun n => BitVec.ofNat 4 n

/-- Commands of a flask's ladle that have not started complete: those read, then those still in the ring (R275, step 1). -/
def State.loseUnstarted (s : State) (f : FlaskId) (n : BitVec 4) : State :=
  let l := LadleRef.flask f n
  let d := s.ladle l
  let s := (d.cmds.filter fun c => !c.started).foldl (fun s c => s.complete l c.tag St.abortedByReset 0 []) s
  let unread := (List.range (ahead d.sqSize d.sqHead d.sqTail)).map fun i => (d.sqHead + i) % d.sqSize
  if !d.enabled then s
  else unread.foldl (fun s i =>
    let r := s.hubRead (flaskDom f) .hub (d.sqBase.toNat + 64 * i) 8
    let b := r.1 ++ List.replicate 8 0
    let s := r.2.1.setLadle l { r.2.1.ladle l with sqHead := (i + 1) % d.sqSize }
    s.putCompletion l ⟨BitVec.ofNat 32 (fieldAt b 4 4), St.abortedByReset, false, fieldAt b 2 2 / 2 % 2 == 1, 0,
      BitVec.ofNat 16 (fieldAt b 0 2), []⟩) s

/-- Whether the flask has clusters or granules on the die. -/
def Flask.onDie (fl : Flask) (x : Die) : Bool :=
  fl.clusters.any (fun cl => decide (cl.toNat / 512 = x.toNat)) || fl.granules.any fun g => decide (g / 1192 = x.toNat)

/-- The cores of a flask. -/
def Flask.cores (fl : Flask) : List CoreId := (List.range (fl.clusters.length * 256)).filterMap (coreAt fl.clusters)

/-- A flask's cores stop: what their engines execute ends, and what they hold in registers stays (R118, R157). -/
def State.haltCores (s : State) (f : FlaskId) : State :=
  (s.flask f).cores.foldl (fun s c => (s.stopEngines c).modCore (.core c) fun k => { k with run := if k.run = .running then .held else k.run }) s

/-- Takes of the flask, under way or waiting, end (R276, R495). -/
def State.squashTakes (s : State) (f : FlaskId) : State :=
  let s := (s.ing.takes.filter fun t => t.flask == f).foldl (fun s t => s.endTake t St.abortedByReset) s
  let w := s.ing.waiting.filter fun x => x.1 == f
  let s := { s with ing := { s.ing with waiting := s.ing.waiting.filter fun x => !(x.1 == f) } }
  w.foldl (fun s x => s.complete x.2.1 x.2.2 St.abortedByReset 0 []) s

/-- The cast under way, at the head of the queue, of a flask. -/
def State.castOf (s : State) (f : FlaskId) : Option Word :=
  s.fw.waiting.head?.filter fun t => s.fw.admin.cmds.any fun c => c.tag == t && match c.instr with
    | .cast _ flask _ => decide (flask.toNat = f.toNat)
    | _ => false

/-- A cast of the flask that has not reached its step 9 is undone (R64). -/
def State.undoCast (s : State) (f : FlaskId) : State :=
  match s.castOf f with
  | none => s
  | some t => { s with fw := { s.fw with waiting := s.fw.waiting.drop 1 } }.castDone t (some f) St.abortedByReset nowhere

/-- Steps 1 to 3: commands not started complete; a cast, an ingot and scorer work are squashed, of which the ingot counts as such
(R64, R260, R276); the cores stop. -/
def State.beginStop (s : State) (f : FlaskId) : State :=
  let s := ((s.flask f).ladleNos.foldl (fun s n => s.loseUnstarted f n) s).undoCast f
  let take := (s.flask f).ingot || s.ing.waiting.any fun x => x.1 == f
  let s := s.squashTakes f
  let s := s.setFlask f { s.flask f with job := (s.flask f).job.map fun j => { j with squashed := j.squashed || take } }
  { s with scor := s.scor.filter (fun r => !(r.flask == f)), fills := s.fills.filter (fun r => !(r.flask == f))
           asks := s.asks.filter fun r => !(r.flask == f) }.haltCores f

/-- The started commands of a flask's ladles. -/
def State.startedCmds (s : State) (f : FlaskId) : List (LadleRef × Word) :=
  (s.flask f).ladleNos.flatMap fun n => ((s.ladle (.flask f n)).cmds.filter (·.started)).map fun c => (LadleRef.flask f n, c.tag)

/-- Whether a request is from a core of the flask. -/
def Flask.hasProc (fl : Flask) (p : Proc) : Bool := match p with
  | .core c => fl.clusters.contains (coreCluster c)
  | _ => false

/-- Whether the hub has nothing left to drain for the flask (R276). -/
def State.hubDrained (s : State) (f : FlaskId) : Bool :=
  let d := flaskDom f
  let fl := s.flask f
  let mine (l : LadleRef) : Bool := decide (ladleDom l = d)
  !(s.stor.cmds.any fun c => mine c.ladle) && s.stor.flushes.all (fun x => !(mine x.ladle)) &&
    !(s.stor.jobs.any fun j => j.flask == f && j.running) && !(s.xport.places.any fun p => p.dom == d) &&
    !(s.xport.qps.any fun e => e.2.flask == d && ((e.2.msgs.any fun m => m.done.isNone && decide (0 < m.sent)) ||
      e.2.rx.any fun m => !m.ended)) &&
    !(s.net.tx.any fun t => mine t.ladle) && !(s.net.ports.any fun e => e.2.buf.any fun x => match x.feed with
      | some r => r.1 == f
      | none => false) &&
    !([0, 1].any fun (e : Ep) => (s.ep e).queue.any fun r => r.dom == d && r.data.isSome) &&
    !(s.fab.reqs.any fun r => fl.hasProc r.issuer && r.op.writes && decide (space r.addr.toNat = 5)) &&
    !(s.sec.cvq.any fun q => mine q.ladle) && !(s.sec.cvRuns.any fun r => mine r.req.ladle)

/-- A core's store that is still to reach its home in the module. -/
def Flask.storing (fl : Flask) (r : MemReq) : Bool := fl.hasProc r.issuer && r.op.writes && decide (space r.addr.toNat ≠ 5)

/-- A block move that reads or writes a host's memory. -/
def Move.toHost (m : Move) : Bool := decide (space m.src.toNat = 5 ∨ space m.dst.toNat = 5)

/-- What the cores had stored and moved, but for what goes to a host, has been performed: no squash drops it (R118, R276). -/
def State.coresDone (s : State) (f : FlaskId) : Bool :=
  let fl := s.flask f
  !(s.fab.reqs.any fl.storing) && fl.cores.all fun c => (s.core (.core c)).moves.toList.all fun m => !(m.any fun m => !m.toHost)

/-- Whether the drain is over. -/
def State.drained (s : State) (f : FlaskId) : Bool :=
  s.hubDrained f && s.coresDone f && (s.flask f).cores.all fun c => (s.core (.core c)).moves.toList.all Option.isNone

/-! ### Steps 5 and 6 -/

/-- What the flask's cores and engines of the hub had on its way to and from an endpoint goes, with the messages that waited for it
(R276, R300). -/
def State.squashHost (s : State) (f : FlaskId) (e : Ep) : State :=
  let mine (r : OutReq) : Bool := r.dom == flaskDom f
  let rs := (s.ep e).reads.filter mine
  (rs.foldl (fun s r => s.outFailed r St.abortedByReset) (s.modEp e fun x => { x with reads := x.reads.filter fun r => !mine r })).squashOut
    e (· == flaskDom f)

/-- Whatever of the flask's work remains goes, but for what its cores have stored and moved within the module (R275, step 5;
R276). -/
def State.squashWork (s : State) (f : FlaskId) : State :=
  let d := flaskDom f
  let fl := s.flask f
  let cmds := s.startedCmds f
  let s := cmds.foldl (fun s x => s.complete x.1 x.2 St.abortedByReset 0 []) s
  let s := { s with
    xport := { s.xport with places := s.xport.places.filter (fun p => !(p.dom == d)), stalled := s.xport.stalled.filter fun x => !(x.p.dom == d) }
    stor := { s.stor with jobs := s.stor.jobs.filter fun j => !(j.flask == f) }
    net := { s.net with ports := s.net.ports.map fun (e : Nat × NetPort) => (e.1, { e.2 with buf := e.2.buf.filter fun x => match x.feed with
      | some r => !(r.1 == f)
      | none => true : NetPort }.ease) } }
  let s := (Tab.keys s.xport.mrs).foldl (fun s i => (s.finishRevoke i).finishClears i) s
  let s := [0, 1].foldl (fun s e => s.squashHost f e) s
  let s := fl.cores.foldl (fun s c => s.modCore (.core c) fun k => { k with moves := k.moves.map fun (m : Option Move) => m.filter fun m => !m.toHost }) s
  let s := cmds.foldl (fun s x => s.endWork x.1 x.2) s
  let s := s.setFlask f { s.flask f with disps := [] }
  let inF (c : CoreId) : Bool := fl.clusters.contains (coreCluster c)
  { s with fab := { s.fab with
    reqs := s.fab.reqs.filter fun r => !(fl.hasProc r.issuer) || fl.storing r, reps := s.fab.reps.filter fun r => !(fl.hasProc r.issuer)
    syncs := s.fab.syncs.filter fun r => !(fl.hasProc r.issuer), syncReps := s.fab.syncReps.filter fun r => !(fl.hasProc r.issuer)
    transit := s.fab.transit.filter fun t => !(inF t.src || inF t.dst), credits := s.fab.credits.filter fun x => !(inF x.1)
    tokens := s.fab.tokens.filter fun t => !(t.flask == f), lost := s.fab.lost.filter fun x => !(inF x.1)
    landing := s.fab.landing.filter fun x => s.ownerAt (4 * x.2.1) ≠ d } }

/-- Whether step 5 squashes anything that sets `SQUASHED`. -/
def State.squashes (s : State) (f : FlaskId) : Bool := !(s.startedCmds f).isEmpty || !s.hubDrained f || (s.flask f).ingot

/-- The queue pairs of a flask. -/
def State.qpsOf (s : State) (f : FlaskId) : List Nat := (s.xport.qps.filter fun e => decide (e.2.st ≠ .free) && e.2.flask == flaskDom f).map Prod.fst

/-- Step 6: stores, ports and locks cleared, queue pairs in error, ladle generations raised. -/
def State.clearFlask (s : State) (f : FlaskId) : State :=
  let fl := s.flask f
  let s := (s.qpsOf f).foldl (fun s n => s.qpFail n St.abortedByReset none) s
  let s := fl.clusters.foldl (fun s cl =>
    { s.setCluster cl { s.cluster cl with waiters := [], streamDrops := 0, fenceDrops := 0 } with mem := s.mem.clearCluster cl }) s
  let s := { s with mem := fl.granules.foldl Mem.clearGranule s.mem
                    fab := { s.fab with reqs := s.fab.reqs.filter fun r => !(fl.hasProc r.issuer)
                                        reps := s.fab.reps.filter fun r => !(fl.hasProc r.issuer) } }
  let s := fl.cores.foldl (fun s c => s.modCore (.core c) fun k =>
    { k with inp := Vector.replicate 8 [], locks := [], wait := none, moves := Vector.replicate 4 none, moveErr := [], postErr := [],
             unacked := 0, ahead := [], a := { k.a with resv := ⟨false, k.a.resv.line⟩ } }) s
  fl.ladleNos.foldl (fun s n =>
    let l := LadleRef.flask f n
    s.setLadle l { s.ladle l with gen := (s.ladle l).gen + 1 }) s

/-- Barriers with the counts of the latest update in force (R47): those in force before, where an update waited. -/
def State.barriersInForce (s : State) (cls : List ClusterId) (m : Mould) : Mould :=
  { m with syncs := m.syncs.map fun r =>
      if r.kind ≠ 2 then r
      else match cls[r.cluster.toNat]? with
        | none => r
        | some cl =>
          let b := Barrier.read s (clusterBase cl + r.offset.toNat)
          if b.pend then { r with value := BitVec.ofNat 32 b.partic, expect := b.expect } else r }

/-! ### The end of a reset or destruction -/

/-- `FLASK_RESET_DONE` (R274). -/
def State.resetEvent (s : State) (f : FlaskId) (squashed : Bool) : State :=
  let ev := evData [0, if squashed then 1 else 0]
  (s.postFlask f 0x0201 St.success 0xFFF ev).postOwner 0x0201 St.success 0xFFF (evData [0, if squashed then 1 else 0])

/-- Every window that names the flask is disabled, and a shadow entry that names it is cleared; an inbound entry names a flask for
`KIND` 0 only (R292). -/
def State.closeWindows (s : State) (f : FlaskId) : State :=
  [0, 1].foldl (fun (s : State) (e : Ep) =>
    let s := ((List.range 1024).filter fun i => (s.inEntry e i).en && decide ((s.inEntry e i).kind = 0) && (s.inEntry e i).flask == f).foldl (fun s i => s.disableWin e false i) s
    let s := ((List.range 2048).filter fun i => (s.outEntry e i).en && (s.outEntry e i).flask == flaskDom f).foldl
      (fun s i => s.disableWin e true i) s
    let shut (names : Nat → Bool) (t : Tab Word) : Tab Word := ((Tab.keys t).filter fun k => k % 8 = 0 && names (Tab.get 0 t k).toNat).foldl
      (fun t k => Tab.put 0 t k (Tab.get 0 t k &&& 0xFFFFFFFE)) t
    s.modEp e fun x => { x with inShadow := shut (fun w => decide (bits w 15 8 = f.toNat ∧ bits w 5 4 = 0)) x.inShadow
                                outShadow := shut (fun w => decide (bits w 16 8 = f.toNat)) x.outShadow }) s

/-- What a destruction returns (R278). -/
def State.freeAll (s : State) (f : FlaskId) : State :=
  let fl := s.flask f
  let s := s.closeWindows f
  let s := (s.qpsOf f).foldl State.dropQp s
  let s := ((s.xport.mrs.filter fun e => match e.2 with
    | some m => m.flask == f
    | none => false).map Prod.fst).foldl (fun s i => s.revokeMr i []) s
  let s := { s with
    net := { s.net with
      classes := s.net.classes.filter fun e => match e.2 with
        | some c => !(c.flask == f)
        | none => true }
    stor := { s.stor with vols := s.stor.vols.filter fun e => match e.2 with
      | some v => !(v.flask == f)
      | none => true } }
  let s := fl.shapers.foldl (fun s i => s.setShaper i Shaper.free) s
  let s := ((Tab.keys s.sec.slots).filter fun i => decide ((s.slot i).assigned = flaskDom f)).foldl State.clearSlot s
  let s := fl.cores.foldl (fun s c => s.modCore (.core c) Core.emptied) s
  let s := fl.clusters.foldl (fun s cl => s.giveCluster 0x1FF cl) s
  let s := fl.granules.foldl (fun s g => s.giveGranule 0x1FF g) s
  let s := if fl.host.toNat < 2 then
      let e : Ep := BitVec.ofNat 1 fl.host.toNat
      s.modEp e fun x => { x with msix := (List.range 8).foldl (fun t i =>
        Tab.put MsixEntry.reset t (fl.vecFirst + i) { Tab.get MsixEntry.reset t (fl.vecFirst + i) with masked := true, pending := false }) x.msix }
    else s
  s.setFlask f { Flask.reset with
    stray := fl.stray, ladles := fl.ladles.map fun e => (e.1, Ladle.off e.2.gen)
    lastStatus := St.success, lastSquashed := fl.lastSquashed, lastByTenant := false }

/-- A destruction begins: steps 1 to 3. -/
def State.startDestroy (s : State) (f : FlaskId) (asked : List Word) : State :=
  (s.setFlask f { s.flask f with st := .destroying, job := some ⟨true, 0, false, asked, [], false⟩ }).beginStop f

/-- A clock domain that the flask lies in is held in reset (R501). -/
def State.domainHeld (s : State) (f : FlaskId) : Bool :=
  let fl := s.flask f
  s.rst.resetDomains.any fun d => match d with
    | .dieInfra x => fl.onDie x
    | .channels x => fl.onDie x
    | .cluster cl => fl.clusters.contains cl
    | _ => false

/-- Steps 5 to 8 of the reset, or the rest of the destruction; while key use is suspended, a domain of the flask is held
in reset, or a store or a block move of its cores is not yet performed, steps 6 and 7 wait (R118, R279, R501). -/
def State.finishJob (s : State) (f : FlaskId) : State :=
  match (s.flask f).job with
  | none => s
  | some j =>
    let squashed := j.squashed || s.squashes f
    let s := s.squashWork f
    let s := s.setFlask f { s.flask f with job := some { j with squashed := squashed, mode := 1 } }
    if s.breakout || s.domainHeld f || !s.coresDone f then s
    else
      let s := s.readTrip (.mouldRoot f)
      let fl := s.flask f
      let m := fl.mould.map (s.barriersInForce fl.clusters)
      let s := s.clearFlask f
      if j.destroy then
        let s := (s.setFlask f { s.flask f with lastSquashed := squashed }).freeAll f
        j.asked.foldl (fun s t => s.complete .admin t St.success 0 []) s
      else
        let s := match m with
          | none => s
          | some m => s.loadAll f m
        let s := s.setFlask f { s.flask f with
          st := s.runState fl, job := none, ctlReset := false, resetStatus := St.success, resetSquashed := squashed
          lastStatus := St.success, lastSquashed := squashed, lastByTenant := j.byTenant }
        let s := j.asked.foldl (fun s t => s.complete .admin t St.success 0 []) s
        let s := s.resetEvent f squashed
        if j.destroyNext.isEmpty then s else s.startDestroy f j.destroyNext

/-- A reset is asked for, by a tenant or not: it begins, or joins the one in progress (R274, R275, R279). -/
def State.resetFor (s : State) (f : FlaskId) (mode : Byte) (tenant : Bool) (tags : List Word) : State :=
  let fl := s.flask f
  match fl.job with
  | some j =>
    let s := s.setFlask f { fl with ctlReset := fl.ctlReset || tenant, job := some { j with asked := j.asked ++ tags } }
    if mode = 1 then s.finishJob f else s
  | none =>
    if fl.st = .empty then
      let s := s.setFlask f { fl with resetStatus := St.success, resetSquashed := false, lastStatus := St.success, lastSquashed := false
                                      lastByTenant := tenant }
      (tags.foldl (fun s t => s.complete .admin t St.success 0 []) s).resetEvent f false
    else
      let s := (s.setFlask f { fl with st := .resetting, ctlReset := tenant
                                       job := some ⟨false, mode, tenant, tags, [], false⟩ }).beginStop f
      if mode = 1 then s.finishJob f else s

/-- A reset that a command asks for, or with no tag a tenant. -/
def State.askReset (s : State) (f : FlaskId) (mode : Byte) (tag : Option Word) : State :=
  s.resetFor f mode tag.isNone tag.toList

/-- RESET. -/
def execReset (h : CmdHdr) (flask : BitVec 16) (mode : Byte) (resv : Nat) (s : State) : Host.Outcome State Fault Refusal :=
  s.command h (.reset h flask mode resv) fun s => s.onFlask h flask fun f s =>
    let st := (s.flask f).st
    if 1 < mode.toNat ∨ resv ≠ 0 then s.done h St.malformed
    else if st = .free ∨ st = .destroying then s.done h St.wrongState
    else s.askReset f mode (some h.tag)

/-- FP_CTL_RESET (R267, R274, R279): a request during a destruction is ignored and counted. While the scheduler core is down the
request waits in the page for its restart, for it is the scheduler core that reads it (R275). -/
def execFpCtlReset (ep : Ep) (f : FlaskId) (s : State) : Host.Outcome State Fault Refusal :=
  if !s.phase.serves || !s.reaches ep || !(s.ep ep).inq.isEmpty then .next s
  else if !s.pageLive ep f || decide ((s.flask f).st = .destroying) || decide ((s.flask f).st = .failed) then .next (s.strayWrite f)
  else if s.fw.down.contains .scheduler then .next (s.setFlask f { s.flask f with ctlReset := true })
  else .next (s.askReset f 0 none)

/-- DESTROY (R278, R279). -/
def execDestroy (h : CmdHdr) (flask : BitVec 16) (s : State) : Host.Outcome State Fault Refusal :=
  s.command h (.destroy h flask) fun s =>
    if flask.toNat > 255 then s.done h St.malformed
    else
      let f : FlaskId := BitVec.ofNat 8 flask.toNat
      let fl := s.flask f
      if fl.st = .free then s.done h St.wrongState
      else match fl.job with
        | some j =>
          s.setFlask f { fl with job := some (if j.destroy then { j with asked := j.asked ++ [h.tag] }
            else { j with destroyNext := j.destroyNext ++ [h.tag] }) }
        | none => s.startDestroy f [h.tag]

/-- FLASK_DRAIN_COMPLETE: nothing that the drain waits for is left, or the squash is over, and what steps 6 and 7 waited for has
come. -/
def execFlaskDrainComplete (f : FlaskId) (s : State) : Host.Outcome State Fault Refusal :=
  match (s.flask f).job with
  | none => .next s
  | some j =>
    if s.fw.down.contains .scheduler || (decide (j.mode = 0) && !s.drained f) || (decide (j.mode = 1) && (s.breakout || s.domainHeld f || !s.coresDone f)) then .next s
    else .next (s.finishJob f)

/-- FLASK_DRAIN_TIMEOUT. -/
def execFlaskDrainTimeout (f : FlaskId) (s : State) : Host.Outcome State Fault Refusal :=
  match (s.flask f).job with
  | none => .next s
  | some j => if s.fw.down.contains .scheduler || decide (j.mode = 1) then .next s else .next (s.finishJob f)

/-! ### Aborts and timeouts (R326, R328) -/

/-- A reset or destruction whose steps have begun is not stopped by an abort: its work goes on, and the command is taken
off its list. A `DESTROY` that waits for a reset has begun nothing. -/
def State.keepsOn (s : State) (tag : Word) : Bool := s.liveFlasks.any fun f => match (s.flask f).job with
  | some j => j.asked.contains tag
  | none => false

def State.unask (s : State) (tag : Word) : State := s.liveFlasks.foldl (fun s f => match (s.flask f).job with
  | some j => s.setFlask f { s.flask f with job := some { j with
      asked := j.asked.filter (· ≠ tag), destroyNext := j.destroyNext.filter (· ≠ tag) } }
  | none => s) s

/-- The completion arbiter ends a command: the target's completion, or none where there is nothing to end. A completion that is
held becomes COMPLETED_BEFORE_ABORT with the status that it would have carried as its detail word, of a `CAST` too, where R66 asks
for 0xFFFF_FFFF and R328 for that status (DESIGN CHOICE, log entry 117). -/
def State.arbitrate (s : State) (l : LadleRef) (tag : Word) (status : Status) : Option State :=
  let d := s.ladle l
  match d.cmds.find? fun c => decide (c.tag = tag) with
  | some c =>
    if isAbort c.instr then none
    else if c.started && decide (l = .admin) && s.keepsOn tag then
      some ((s.complete l tag St.completedBeforeAbort 0 []).unask tag)
    else
      let s := s.endCommand l tag c.instr status
      some (if c.started then (if l = .admin then s.unask tag else s).endWork l tag else s)
  | none => match d.held.find? fun e => decide (e.tag = tag) && !e.event with
    | none => none
    | some e =>
      if e.code = 0x0006 ∨ e.status = St.completedBeforeAbort then none
      else
        let e' := { e with status := St.completedBeforeAbort, detail := e.status.setWidth 32 }
        some (s.setLadle l { d with held := d.held.map fun x => if x = e then e' else x })

/-- ABORT: in a flask ladle the ladle is its own (R328). -/
def execAbort (h : CmdHdr) (tag : Word) (flask : BitVec 16) (ladle : Byte) (s : State) : Host.Outcome State Fault Refusal :=
  s.command h (.abort h tag flask ladle) fun s =>
    let target : Option LadleRef := match h.ladle with
      | .flask f n => some (.flask f n)
      | .admin =>
        if flask = 0xFFFF then some .admin
        else if flask.toNat < 256 ∧ ladle.toNat < 16 then some (.flask (BitVec.ofNat 8 flask.toNat) (BitVec.ofNat 4 ladle.toNat))
        else none
    let failed : Bool := match target with
      | some (LadleRef.flask f _) => decide (h.ladle = .admin) && decide ((s.flask f).st = .failed)
      | _ => false
    match target with
    | none => s.done h St.malformed
    | some l =>
      if failed then s.done h St.uncorrectable
      else match s.arbitrate l tag St.aborted with
      | none => s.done h St.notFound
      | some s => s.done h St.success

/-- COMMAND_TIMEOUT: acted on at the scheduler core's restart, while it is down (R339); an activation past its step 4 and an
abort have no timeout to act on. -/
def execCommandTimeout (l : LadleRef) (tag : Word) (s : State) : Host.Outcome State Fault Refusal :=
  if s.fw.down.contains .scheduler || !s.phase.serves then .next s
  else match s.arbitrate l tag St.timeout with
    | none => .next s
    | some s => .next s

end Sys2Proof.Machine
end

