-- ==== Sys2Proof/Machine/Launch.lean ====
section
/-!
DEFINITION. Dispatches (R331).
-/

namespace Sys2Proof.Machine

/-- The fabric address of a tally of a flask, where its cluster and offset are within bounds. -/
def State.tallyAt (s : State) (f : FlaskId) (cluster : BitVec 16) (off : Word) : Option Nat :=
  if off.toNat % 4 = 0 ∧ off.toNat < 262144 then ((s.flask f).clusters[cluster.toNat]?).map fun cl => clusterBase cl + off.toNat
  else none

/-- `COUNT` of a tally. -/
def State.tally (s : State) (fa : Nat) : Nat := (s.mem.word (fa / 4)).payload.toNat % 2 ^ 31

/-- `COUNT` of a tally set; its tag stays. -/
def State.setTally (s : State) (fa n : Nat) : State :=
  let w := s.mem.word (fa / 4)
  (s.syncWrite none fa ⟨BitVec.ofNat 32 (w.payload.toNat / 2 ^ 31 * 2 ^ 31 + n), w.tag⟩).wakeTally fa

/-- DISPATCH. -/
def execDispatch (h : CmdHdr) (p : DispatchP) (s : State) : Host.Outcome State Fault Refusal :=
  s.command h (.dispatch h p) fun s => match h.ladle with
    | .admin => s.done h St.badOpcode
    | .flask f n =>
      let a := p.args.toNat
      let args : Option Nat := if a < 2 ^ 48 then (translate s (flaskDom f) a).filter faValid else none
      if a / 2 ^ 44 ≠ 1 ∨ a % 64 ≠ 0 ∨ p.doneCount.toNat = 0 ∨ 2 ^ 31 ≤ p.doneCount.toNat ∨ p.resv ≠ 0 then s.done h St.malformed
      else match args, s.tallyAt f p.startCluster p.startOffset, s.tallyAt f p.doneCluster p.doneOffset with
        | some _, some start, some fin =>
          let r := wordOk s start false
          let q := wordOk r.2 fin false
          if !(r.1 && q.1) then q.2.done h St.sync
          else
            let s := q.2.setTally fin p.doneCount.toNat
            let s := s.hubTagged (flaskDom f) a ((List.range 4).map fun i => ⟨p.argdata.extractLsb' (32 * i) 32, Tag.raw⟩)
            if s.tally start = 0 then s.done h St.sync
            else
              let s := (s.setTally start (s.tally start - 1)).tap 4 (flaskDom f)
              s.setFlask f { s.flask f with
                disps := (s.flask f).disps ++ [⟨n, h.tag, BitVec.ofNat 48 fin, BitVec.ofNat 48 a⟩] }
        | _, _, _ => s.done h St.accessFault

/-- DISPATCH_DONE. -/
def execDispatchDone (f : FlaskId) (n : BitVec 4) (tag : Word) (s : State) : Host.Outcome State Fault Refusal :=
  match (s.flask f).disps.find? fun d => d.n == n && d.tag == tag with
  | none => .next s
  | some d =>
    if s.tally d.done.toNat ≠ 0 ∨ s.fw.down.contains .scheduler then .next s
    else
      let s := s.tap 5 (flaskDom f)
      let r := s.hubRead (flaskDom f) .hub (d.args.toNat + 16) 16
      let s := r.2.1.setFlask f { r.2.1.flask f with disps := (r.2.1.flask f).disps.filter fun x => !(x.n == n && x.tag == tag) }
      .next (s.complete (.flask f n) tag St.success 0 r.1)

end Sys2Proof.Machine
end

