-- ==== Sys2Proof/Machine/Ingot.lean ====
section
/-!
DEFINITION. Ingots: areas, slots, takes and restores (spec/16_ingots.md, R478–R496).
-/

namespace Sys2Proof.Machine

namespace IngSt
def noArea : Status := 0x00D0
def noShadow : Status := 0x00D1
def quiet : Status := 0x00D2
def none' : Status := 0x00D3
def key : Status := 0x00D4
def oneCopy : Status := 0x00D5
end IngSt

/-- The module's identity (R417). -/
def State.deviceId (s : State) : BitVec 128 := BitVec.ofNat 128 (leNat s.ident)

/-- The peer's identity (R477). -/
def State.peerId (s : State) : BitVec 128 :=
  BitVec.ofNat 128 (leNat ((List.range 4).flatMap fun i => Word.bytes (s.reg (Reg.twinPeerId + 4 * i))))

def ceilDiv (a b : Nat) : Nat := (a + b - 1) / b

/-! ### Areas and slots (R478–R481, R487) -/

def State.area (s : State) (a : Nat) : Option Area := Tab.get none s.ing.areas a
def State.setArea (s : State) (a : Nat) (v : Option Area) : State :=
  { s with ing := { s.ing with areas := Tab.put none s.ing.areas a v } }

/-- The first block of the slot region, and the block after its last (R479). -/
def Area.slotsFrom (a : Area) : Nat := a.start + 2 + ceilDiv a.storeUnits 64
def Area.slotsTo (a : Area) : Nat := a.start + a.blocks - 16 * a.storeUnits

/-- INGOT_AREA. -/
def execIngotArea (h : CmdHdr) (p : AreaP) (s : State) : Host.Outcome State Fault Refusal :=
  s.command h (.ingotArea h p) fun s =>
    let port : Port := p.port.extractLsb' 0 3
    let d := s.drive port
    let a : Area := ⟨port, p.role == 1, p.storeUnits.toNat, p.start.toNat, p.blocks.toNat, s.deviceId, [], 0⟩
    if 7 < p.port.toNat ∨ 1 < p.role.toNat ∨ p.resv ≠ 0 ∨ 2 ^ 26 < p.storeUnits.toNat then s.done h St.malformed
    else if d.unsupported then s.done h StorSt.unsupported
    else if !d.ready then s.done h StorSt.absent
    else if d.blocks < a.start + a.blocks ∨ s.rangeTaken port a.start a.blocks ∨
        a.blocks < 2 + ceilDiv a.storeUnits 64 + 16 * a.storeUnits then s.done h StorSt.range
    else match (List.range 16).find? fun i => (s.area i).isNone with
      | none => s.done h St.noCapacity
      | some i => (s.setArea i (some a)).complete h.ladle h.tag St.success 0 (leBytes 8 i)

/-- References to units of an area's store are given up; a unit without one is free (R487, R523). -/
def State.dropRefs (s : State) (i : Nat) (refs : List Nat) : State :=
  match s.area i with
  | none => s
  | some a =>
    let st := a.store.map fun (u : StoreUnit) => { u with refs := u.refs - refs.count u.no }
    let gone := st.filter fun u => decide (u.refs = 0)
    let s := s.setArea i (some { a with store := st.filter fun u => decide (u.refs ≠ 0) })
    { s with bg := { s.bg with trims := s.bg.trims ++ gone.map fun u => (a.port, a.slotsTo + 16 * u.no, 16) } }

/-- A slot is emptied: it keeps its place, and the number that it held (R481). -/
def State.clearIngot (s : State) (x : IngotSlot) : State :=
  let y := { x with ingot := none, before := (x.ingot.map fun (g : IngotHdr) => g.number).getD x.before, refs := [] }
  { s with ing := { s.ing with slots := s.ing.slots.map fun z => if z = x then y else z } }.dropRefs x.area x.refs

/-- A slot is given back (R480, R523). -/
def State.freeIngot (s : State) (x : IngotSlot) : State :=
  let s := s.dropRefs x.area x.refs
  let ts : List (Port × Nat × Nat) := match s.area x.area with
    | none => []
    | some a => [(a.port, x.start, x.blocks)]
  { s with ing := { s.ing with slots := s.ing.slots.filter (· ≠ x) }, bg := { s.bg with trims := s.bg.trims ++ ts } }

/-- The slots of a series in the areas of one role. -/
def State.series (s : State) (peer : Bool) (device : Word) (f : FlaskId) : List IngotSlot :=
  s.ing.slots.filter fun x => x.device == device && x.flask == f && ((s.area x.area).map fun a => a.peer == peer).getD false

/-- The lowest place of n blocks that no slot of the area uses. -/
def State.fitSlot (s : State) (i n : Nat) (a : Area) : Option Nat :=
  let used := (s.ing.slots.filter fun x => decide (x.area = i)).map fun x => (x.start, x.blocks)
  ((a.slotsFrom :: used.map fun u => u.1 + u.2).filter fun c =>
    decide (c + n ≤ a.slotsTo) && used.all fun u => !(overlap c n u.1 u.2)).min?

/-- So many slots of a series are given places, numbered on from k; none where there is no room (R479, R480). -/
def State.giveSlots (s : State) (i n : Nat) (device : Word) (f : FlaskId) : List Nat → Option State
  | [] => some s
  | k :: ks =>
    match (s.area i).bind (s.fitSlot i n) with
    | none => none
    | some c =>
      if 256 ≤ s.ing.slots.countP fun x => decide (x.area = i) then none
      else State.giveSlots { s with ing := { s.ing with slots := s.ing.slots ++ [⟨i, device, f, k, c, n, 0, none, []⟩] } } i n device f ks

/-- The granules of a take (R483): the image granules, and on each die the shadow granules; lowest free first. -/
def State.takeGranules (s : State) (fl : Flask) (pct : Nat) : Option (List Nat × List Nat) :=
  let need (d : Nat) : Nat := ceilDiv (fl.granules.countP (fun g => decide (g / 1192 = d)) * pct) 100
  let sh := (List.range 8).map fun d => ((s.freeGranules d).take (need d), need d)
  let shadow := sh.flatMap Prod.fst
  let n := ceilDiv fl.clusters.length 85
  let image := (((List.range 8).flatMap s.freeGranules).filter fun g => !(shadow.contains g)).take n
  if sh.all (fun x => decide (x.1.length = x.2)) && decide (image.length = n) then some (image, shadow) else none

/-- An owner-scope AES-256 slot with CMAC usage. -/
def State.ingotKey (s : State) (slot : BitVec 16) : Option (List Byte) :=
  let k := s.slot slot.toNat
  if slot.toNat < 512 ∧ k.type = 1 ∧ k.assigned = 0x100 ∧ k.usage.getLsbD 1 then some k.key else none

/-- A setup's slots are found and allocated: the first setup of a flask takes up the slots of its series that the area holds
already and that have the length asked for; a repeated one frees the old slots. -/
def State.setUp (s : State) (f : FlaskId) (p : IngotSetupP) : Option State :=
  let dev : Word := s.deviceId.extractLsb' 0 32
  let s := if (s.flask f).setup.isNone then s else (s.series false dev f).foldl State.freeIngot s
  let have_ := (s.series false dev f).filter fun x => decide (x.area = p.area.toNat ∧ x.blocks = p.slotBlocks.toNat ∧ x.slot < p.slots.toNat)
  let ks := (List.range p.slots.toNat).filter fun k => !(have_.any fun x => decide (x.slot = k))
  (s.giveSlots p.area.toNat p.slotBlocks.toNat dev f ks).map fun s => s.setFlask f { s.flask f with setup := some p }

def setupLegal (p : IngotSetupP) : Bool :=
  decide (2 ≤ p.slots.toNat ∧ p.slots.toNat ≤ 16 ∧ 1 ≤ p.shadowPct.toNat ∧ p.shadowPct.toNat ≤ 100 ∧ p.quietMs.toNat ≤ 60000) &&
    decide (p.area.toNat < 16) && decide (p.peerArea.toNat < 16 ∨ p.peerArea = 0xFF)

/-- The checks of a setup after its form, and the state with it performed. -/
def State.trySetup (s : State) (f : FlaskId) (p : IngotSetupP) : Except Status State :=
  match s.area p.area.toNat with
  | none => .error IngSt.noArea
  | some a =>
    if a.peer then .error IngSt.noArea
    else match s.setUp f p with
      | none => .error IngSt.noArea
      | some s' =>
        if s.slotLost p.keySlot.toNat then .error St.uncorrectable
        else if (s.ingotKey p.keySlot).isNone then .error IngSt.key
        else if (s.takeGranules (s.flask f) p.shadowPct.toNat).isNone then .error St.noCapacity
        else .ok (s'.mirrorNow (.setup f))

/-- INGOT_SETUP. -/
def execIngotSetup (h : CmdHdr) (p : IngotSetupP) (s : State) : Host.Outcome State Fault Refusal :=
  s.command h (.ingotSetup h p) fun s => s.onFlask h p.flask fun f s =>
    let fl := s.flask f
    if !(decide (fl.st = .empty) || fl.st.isCast) || fl.ingot then s.done h St.wrongState
    else if !setupLegal p then s.done h St.malformed
    else match s.trySetup f p with
      | .error st => s.done h st
      | .ok s => s.done h St.success

/-! ### Taking (R482–R486) -/

/-- Whether a cast of the flask is under way. -/
def State.castUnderWay (s : State) (f : FlaskId) : Bool := (s.castOf f).isSome

/-- Step 1 of a take. -/
def State.beginTake (s : State) (f : FlaskId) (l : LadleRef) (tag : Word) : State :=
  let fl := s.flask f
  match fl.setup with
  | none => s.complete l tag IngSt.noArea 0 []
  | some p =>
    let s := s.readTrip (.keySlot (p.keySlot.setWidth 9))
    match s.ingotKey p.keySlot, s.takeGranules fl p.shadowPct.toNat with
    | none, _ => s.complete l tag IngSt.key 0 []
    | _, none => s.complete l tag St.noCapacity 0 []
    | some key, some (image, shadow) =>
      let s := s.setFlask f { fl with ingot := true }
      { s with ing := { s.ing with takes := s.ing.takes ++ [⟨f, l, tag, image, shadow, key, none, ⟨[], []⟩, [], 0⟩] } }

/-- A take that waited begins. -/
def State.nextTake (s : State) (f : FlaskId) : State :=
  if (s.flask f).ingot || s.castUnderWay f then s
  else match s.ing.waiting.find? fun x => x.1 == f with
    | none => s
    | some x => { s with ing := { s.ing with waiting := s.ing.waiting.filter (· ≠ x) } }.beginTake f x.2.1 x.2.2

/-- INGOT_TAKE. -/
def execIngotTake (h : CmdHdr) (flask : BitVec 16) (s : State) : Host.Outcome State Fault Refusal :=
  s.command h (.ingotTake h flask) fun s =>
    let body (f : FlaskId) (s : State) : State :=
      if (s.flask f).setup.isNone then s.done h IngSt.noArea
      else if !(s.flask f).st.isCast then s.done h St.wrongState
      else if (s.flask f).ingot || s.castUnderWay f || s.ing.waiting.any fun x => x.1 == f then
        { s with ing := { s.ing with waiting := s.ing.waiting ++ [(f, h.ladle, h.tag)] } }
      else s.beginTake f h.ladle h.tag
    match h.ladle with
    | .admin => s.onFlask h flask body
    | .flask f _ => body f s

/-! ### The image (R484–R488) -/

def Engine.image (e : Engine) : EngImage := ⟨e.acc, e.aexp, e.pinned, e.sat, e.nan, e.lfsr, e.satc, e.outc, e.clipc, e.err⟩

def Core.image (k : Core) : CoreImage :=
  { g := k.a.g, pc := k.a.pc, stat := k.a.stat.toWord, trap := #v[k.a.trap.epc, k.a.trap.ecause, k.a.trap.eaddr, k.a.trap.edetail]
    timer := k.a.timers.count, armed := k.a.timers.armed, inp := k.inp.map fun ws => ws.map fun w => (w.w, w.hub)
    credits := k.outp.toList.map (·.credits), locks := k.locks.map fun l => (l.addr, l.crossed), eng := k.eng.map Engine.image }

/-- Words of a store that are not zero, by offset ÷ 4, as a record holds them. -/
def Mem.image (m : Mem) (base n from' : Nat) : List (Nat × TWord) :=
  ((List.range n).map fun i =>
    (from' + i, if m.wordMark (base / 4 + i) = .uncorrectable then TWord.poisoned else m.word (base / 4 + i))).filter fun x => x.2 ≠ TWord.zero

/-- The waiters of barriers, as R118 leaves them; the other waiting instructions are issued again. -/
def Waiter.image (w : Waiter) : Option WaiterImage :=
  match w.kind with
  | .barrier r _ closed => some ⟨w.holder, w.addr, w.seg, w.off, r, closed⟩
  | _ => none

/-- A cluster record. -/
def State.clusterImage (s : State) (cl : ClusterId) : ClusterImage :=
  let cs : List CoreId := (List.range 256).map fun i => BitVec.ofNat 20 (cl.toNat * 256 + i)
  { stores := (cs.zipIdx).flatMap fun x => s.mem.image (coreBase x.1) 2048 (x.2 * 2048)
    shared := s.mem.image (clusterBase cl) 65536 0
    cores := cs.map fun c => (s.core (.core c)).image
    waiters := (s.cluster cl).waiters.filterMap Waiter.image
    sent := cs.flatMap fun c => (s.core (.core c)).outp.toList.map (·.sent)
    gen := (s.cluster cl).gen }

/-- The 64 KiB granules of a flask that have a valid unit, by fabric address ÷ 65,536. -/
def State.validGranules (s : State) (fl : Flask) : List Nat :=
  (((s.mem.lpValid.filter fun e => e.2 && fl.granules.contains (faGranule (e.1 * 4096))).map fun e => e.1 / 16)).eraseDups

/-- The bits of a granule's valid units. -/
def Mem.unitBits (m : Mem) (g : Nat) : BitVec 16 :=
  BitVec.ofNat 16 ((List.range 16).foldl (fun n i => n + if Tab.get false m.lpValid (16 * g + i) then 2 ^ i else 0) 0)

/-- An entry put in its place by number. -/
def putUnit (x : Nat × List Byte) : List (Nat × List Byte) → List (Nat × List Byte)
  | [] => [x]
  | y :: ys => if x.1 ≤ y.1 then x :: y :: ys else y :: putUnit x ys

/-- The granules' data in plain, in flask-address order (R486); one that is zero has no entry. -/
def State.unitImage (s : State) (f : FlaskId) (gs : List Nat) : List (Nat × List Byte) :=
  ((gs.map fun g => (s.streamOrder f g, s.mem.bytes (g * 65536) 65536)).filter fun x => x.2.any (· ≠ 0)).foldr putUnit []

/-- The codewords that the stream finds uncorrectable or poisoned (R222). -/
def State.badCws (s : State) (gs : List Nat) : List Nat :=
  ((s.mem.lpMark.filter fun e => gs.contains (e.1 * 32 / 65536) &&
    (decide (s.mem.cw (e.1 * 32) = .uncorrectable) || decide (s.mem.cw (e.1 * 32) = .poisoned))).map fun e => e.1 * 32)

/-- `KEY_CHECK` under a key (R485). -/
def keyCheck (key : List Byte) : BitVec 64 :=
  (Config.mac 0 key ([0, 0x6F, 0x6C, 0x6D, 0x65, 0x6E, 0x2D, 0x69, 0x6E, 0x67, 0x6F, 0x74])).extractLsb' 0 64

/-- The bytes of a header block (R488). -/
def hdrBytes (g : IngotHdr) : List Byte :=
  let flags := (if g.dedup then 1 else 0) + (if g.single then 2 else 0) + (if g.peerCopy then 4 else 0)
  (leBytes 4 0x47494C4F ++ leBytes 2 1 ++ leBytes 2 flags ++ leBytes 8 g.number ++ leBytes 16 g.device.toNat ++ leBytes 2 g.flask ++
    leBytes 1 g.rot.toNat ++ leBytes 1 0 ++ leBytes 4 g.sequence.toNat ++ leBytes 16 g.mouldId.toNat ++ leBytes 16 g.jobGroup.toNat ++
    leBytes 2 g.clusters ++ leBytes 2 0 ++ leBytes 4 g.granules ++ leBytes 4 g.epoch.toNat ++ leBytes 4 0 ++ leBytes 8 g.time.toNat ++
    leBytes 8 g.keyCheck.toNat ++ leBytes 4 g.tableBlocks ++ leBytes 4 g.imageBlocks ++ leBytes 4 g.dataBlocks ++
    List.replicate 3980 0)

/-- A header block read back; none where it is zero or not one. -/
def hdrRead (b : List Byte) : Option IngotHdr :=
  if fieldAt b 0 4 ≠ 0x47494C4F ∨ fieldAt b 4 2 ≠ 1 then none
  else
    let fl := fieldAt b 6 2
    some { number := fieldAt b 8 8, device := BitVec.ofNat 128 (fieldAt b 0x10 16), flask := fieldAt b 0x20 2
           rot := BitVec.ofNat 3 (fieldAt b 0x22 1), sequence := BitVec.ofNat 32 (fieldAt b 0x24 4)
           mouldId := BitVec.ofNat 128 (fieldAt b 0x28 16), jobGroup := BitVec.ofNat 128 (fieldAt b 0x38 16)
           clusters := fieldAt b 0x48 2, granules := fieldAt b 0x4C 4, epoch := BitVec.ofNat 32 (fieldAt b 0x50 4)
           time := BitVec.ofNat 64 (fieldAt b 0x58 8), keyCheck := BitVec.ofNat 64 (fieldAt b 0x60 8)
           dedup := fl % 2 == 1, single := fl / 2 % 2 == 1, peerCopy := fl / 4 % 2 == 1
           tableBlocks := fieldAt b 0x68 4, imageBlocks := fieldAt b 0x6C 4, dataBlocks := fieldAt b 0x70 4 }

/-- Whether the flask stands at a step boundary with its cores stopped (R260, R483). -/
def State.atStep (s : State) (f : FlaskId) : Bool :=
  let fl := s.flask f
  let inF (c : CoreId) : Bool := fl.clusters.contains (coreCluster c)
  fl.disps.isEmpty && !(s.scor.any fun r => r.flask == f) && !(s.asks.any fun r => r.flask == f) && fl.cores.all s.quiet &&
    !(s.fab.transit.any fun t => inF t.src || inF t.dst) && !(s.fab.credits.any fun x => inF x.1)

/-- The number of the series' next ingot. -/
def State.nextNumber (s : State) (f : FlaskId) : Nat :=
  1 + ((s.series false (s.deviceId.extractLsb' 0 32) f).map fun x => (x.ingot.map fun (g : IngotHdr) => g.number).getD x.before).foldl max
    (Tab.get 0 s.ing.last f.toNat)

/-- The slot that the next ingot goes to (R481). -/
def pickSlot (xs : List IngotSlot) : Option IngotSlot :=
  match xs.find? fun x => x.ingot.isNone with
  | some x => some x
  | none => xs.foldl (fun b x => match b with
    | none => some x
    | some y => if (x.ingot.map fun (g : IngotHdr) => g.number).getD 0 < (y.ingot.map fun (g : IngotHdr) => g.number).getD 0 then some x else b) none

/-- Steps 3 to 6, and the beginning of step 7 (R481, R483, R484). -/
def State.freeze (s : State) (t : Take) (m : Mould) : State :=
  let f := t.flask
  let s := (s.flask f).cores.foldl (fun s c =>
    let r := (s.core (.core c)).a.resv
    (s.stopEngines c).modCore (.core c) fun k => { k with a := { k.a with resv := r } }) s
  let fl := s.flask f
  let gs := s.validGranules fl
  let d : IngotData := ⟨fl.clusters.map s.clusterImage, s.unitImage f gs⟩
  let bad := s.badCws gs
  let n := s.nextNumber f
  let g : IngotHdr :=
    { number := n, device := s.deviceId, flask := f.toNat, rot := fl.rot, sequence := m.sequence, mouldId := m.id
      jobGroup := m.jobGroup, clusters := fl.clusters.length, granules := fl.granules.length, epoch := s.twin.epoch
      time := s.refNow 8, keyCheck := keyCheck t.key, dedup := m.dedup, single := false, peerCopy := false
      tableBlocks := 8 * fl.granules.length, imageBlocks := 768 * fl.clusters.length
      dataBlocks := if m.dedup then 0 else 16 * d.units.length }
  let area := (fl.setup.map fun (p : IngotSetupP) => p.area.toNat).getD 0
  let x := pickSlot ((s.series false (s.deviceId.extractLsb' 0 32) f).filter fun x => decide (x.area = area))
  let s := s.tick 8
  let frozen := gs.foldl (fun t g => Tab.put none t g (some (Frozen.mk f false [] (s.mem.unitBits g)))) s.mem.frozen
  let t' := { t with ingot := some g, data := d, bad := bad, slot := (x.map fun (y : IngotSlot) => y.slot).getD 0 }
  let s := { s with
    mem := { s.mem with frozen := frozen }
    ing := { s.ing with takes := s.ing.takes.map (fun y => if y.flask = f then t' else y), last := Tab.put 0 s.ing.last f.toNat n } }
  match x with
  | none => s
  | some y => s.clearIngot y

/-- INGOT_STEP_BOUNDARY. -/
def execIngotStepBoundary (f : FlaskId) (s : State) : Host.Outcome State Fault Refusal :=
  if s.fw.down.contains .scheduler then .next s
  else
    let s := s.nextTake f
    match s.ing.takes.find? (fun t => t.flask == f && t.ingot.isNone), (s.flask f).mould with
    | some t, some m => if s.atStep f then .next (s.freeze t m) else .next s
    | _, _ => .next s

/-- INGOT_QUIET_TIMEOUT. -/
def execIngotQuietTimeout (f : FlaskId) (s : State) : Host.Outcome State Fault Refusal :=
  match s.ing.takes.find? fun t => t.flask == f && t.ingot.isNone with
  | none => .next s
  | some t => if s.fw.down.contains .scheduler then .next s else .next ((s.endTake t IngSt.quiet).nextTake f)

/-! ### The end of the stream (R486–R489, R495) -/

/-- How a copy ended. -/
def copyStatus : CopyEnd → Status
  | .written => St.success
  | .mediaError => St.mediaError
  | .driveError => StorSt.driveError
  | .absent => StorSt.absent
  | .linkLost => 0x00C0

/-- The store of an area after granules have been stored (R487, R523): the store, the last unit allocated, the units referred
to, and the granules that became new units; none where no unit is free. -/
def storeUnits (a : Area) (group : BitVec 128) : List (Nat × List Byte) → Option (Area × List Nat × List Nat)
  | [] => some (a, [], [])
  | x :: xs =>
    let hash : BitVec 256 := (Config.sha512 x.2).extractLsb' 0 256
    match a.store.find? fun u => u.hash == hash && u.group == group with
    | some u =>
      (storeUnits { a with store := a.store.map fun (v : StoreUnit) => if v.no = u.no then { v with refs := v.refs + 1 } else v } group xs).map
        fun r => (r.1, u.no :: r.2.1, r.2.2)
    | none =>
      let order := (List.range a.storeUnits).map fun i => (a.lastUnit + 1 + i) % a.storeUnits
      match order.find? fun n => !(a.store.any fun u => decide (u.no = n)) with
      | none => none
      | some n =>
        (storeUnits { a with store := a.store ++ [⟨n, hash, group, 1⟩], lastUnit := n } group xs).map
          fun r => (r.1, n :: r.2.1, x.1 :: r.2.2)

/-! ### What is written (R479, R484–R488) -/

/-- C_i as 16 bytes, first byte lowest; the two XTS keys (R485). -/
def ingotC (key : List Byte) (i : Nat) : BitVec 128 := (Config.mac 0 key (BitVec.ofNat 8 i :: ascii "olmen-ingot")).extractLsb' 0 128
def ingotKeys (key : List Byte) : BitVec 512 := ingotC key 4 ++ ingotC key 3 ++ ingotC key 2 ++ ingotC key 1

/-- The tweaks of a slot's block, and of a store unit's (R485). -/
def slotTweak (number block : Nat) : BitVec 128 := BitVec.ofNat 128 (number % 2 ^ 48 * 2 ^ 64 + block % 2 ^ 64)
def storeTweak (hash : BitVec 256) (block : Nat) : BitVec 128 := BitVec.ofNat 128 (2 ^ 126 + hash.toNat % 2 ^ 122 * 16 + block % 16)

/-- Bytes as blocks of 4,096. -/
def blocksOf (bs : List Byte) : List (List Byte) := (List.range (ceilDiv bs.length 4096)).map fun i => (bs.drop (4096 * i)).take 4096

def padTo (n : Nat) (bs : List Byte) : List Byte := (bs ++ List.replicate (n - bs.length) 0).take n

/-- The words of a store, packed as in a `PROG` record: payloads, then tags (R39, R484). -/
def storeRecord (ws : List (Nat × TWord)) (n from' : Nat) : List Byte :=
  let w (i : Nat) : TWord := ((ws.find? fun x => decide (x.1 = from' + i)).map (·.2)).getD TWord.zero
  ((List.range n).flatMap fun i => Word.bytes (w i).payload) ++
    (List.range (n / 2)).map fun i => BitVec.ofNat 8 ((w (2 * i)).tag.toNat + 16 * (w (2 * i + 1)).tag.toNat)

/-- A cluster record (R484). -/
def clusterRecord (c : ClusterImage) : List Byte :=
  ((List.range 256).flatMap fun i => storeRecord c.stores 2048 (2048 * i)) ++ storeRecord c.shared 65536 0 ++
    padTo 262144 (c.cores.flatMap fun k => padTo 1024 (Config.coreRecord k)) ++ padTo 229376 (Config.clusterRest c)

/-- The granule table; `refs` are the store units of the granules, in order (R487, R488). -/
def tableBytes (g : IngotHdr) (d : IngotData) (refs : List Nat) : List Byte :=
  (List.range (4096 * g.granules)).flatMap fun k => leBytes 8 (match d.units.findIdx? fun u => decide (u.1 = k) with
    | none => 0
    | some p => if g.dedup then 2 + refs.getD p 0 * 256 else 1 + (1 + g.tableBlocks + g.imageBlocks + 16 * p) * 256)

/-- The blocks of a slot in the order in which they are written: a zero header, the cluster records, the data, the granule table, the
header (R481, R486). -/
def slotBlocks (keys : BitVec 512) (g : IngotHdr) (d : IngotData) (refs : List Nat) : List (Nat × List Byte) :=
  let put (from' : Nat) (bs : List Byte) : List (Nat × List Byte) :=
    (blocksOf bs).zipIdx.map fun x => (from' + x.2, Config.xtsEncrypt keys (slotTweak g.number (from' + x.2)) x.1)
  [(0, List.replicate 4096 0)] ++ put (1 + g.tableBlocks) (d.records.flatMap clusterRecord) ++
    (if g.dedup then [] else put (1 + g.tableBlocks + g.imageBlocks) (d.units.flatMap (·.2))) ++ put 1 (tableBytes g d refs) ++ [(0, hdrBytes g)]

/-- The blocks of the store units that are new: those whose granules are listed. -/
def storeBlocks (keys : BitVec 512) (d : IngotData) (refs news : List Nat) : List (Nat × List (List Byte)) :=
  (d.units.zipIdx.filter fun x => news.contains x.1.1).map fun x =>
    let hash : BitVec 256 := (Config.sha512 x.1.2).extractLsb' 0 256
    (refs.getD x.2 0, (blocksOf x.1.2).zipIdx.map fun y => Config.xtsEncrypt keys (storeTweak hash y.2) y.1)

/-- The store index blocks that the units fall in, by block of the area (R479). -/
def indexBlocks (a : Area) (refs : List Nat) : List (Nat × List Byte) :=
  ((refs.map (· / 64)).eraseDups).map fun b => (2 + b, (List.range 64).flatMap fun i =>
    match a.store.find? fun u => decide (u.no = 64 * b + i) with
    | none => List.replicate 64 0
    | some u => leBytes 32 u.hash.toNat ++ leBytes 16 u.group.toNat ++ leBytes 4 u.refs ++ List.replicate 12 0)

/-- The own copy is written, its header last: its slot is complete, and its references stand. -/
def State.ownCopy (s : State) (x : IngotSlot) (g : IngotHdr) (d : IngotData) (keys : BitVec 512) : Option State :=
  if x.blocks < 1 + g.tableBlocks + g.imageBlocks + g.dataBlocks then none
  else
    let put (s : State) (refs news : List Nat) : State :=
      let index := ((s.area x.area).map fun a => indexBlocks a refs).getD []
      ({ s with ing := { s.ing with slots := s.ing.slots.map fun z => if z = x then { x with ingot := some g, refs := refs } else z } }.emit
        (.ingot x.area x.slot (slotBlocks keys g d refs) (storeBlocks keys d refs news) index)).mirrorNow (.index x.area x.slot x.flask)
    if !g.dedup then some (put s [] [])
    else match s.area x.area with
      | none => none
      | some a => (storeUnits a g.jobGroup d.units).map fun r => put (s.setArea x.area (some r.1)) r.2.1 r.2.2

/-- INGOT_STREAM_COMPLETE: the stream ends, each copy as the drives and the link report it; under a level-1 breakout it
waits. -/
def execIngotStreamComplete (f : FlaskId) (ownCopy peerCopy : CopyEnd) (s : State) : Host.Outcome State Fault Refusal :=
  match s.ing.takes.find? fun t => t.flask == f && t.ingot.isSome with
  | none => .next s
  | some t => match t.ingot with
    | none => .next s
    | some g =>
      let fl := s.flask f
      if s.breakout && decide (s.boLevel < 2) then .next s
      else if !fl.keyLoaded && !fl.granules.isEmpty then .next ((s.endTake t St.accessFault).nextTake f)
      else if !t.bad.isEmpty then
        let s := t.bad.foldl (fun s a => s.meetUe 2 (decide (s.mem.cw a = .poisoned)) .hub a) s
        .next ((s.endTake t St.uncorrectable).nextTake f)
      else
        let peerArea := (fl.setup.map fun (p : IngotSetupP) => p.peerArea).getD 0xFF
        let both := decide (peerArea ≠ 0xFF) && decide (s.twin.st ≠ .split)
        let link := decide (s.twin.st = .paired ∨ s.twin.st = .suspect) && s.twin.link
        let peer : Status := if link then copyStatus peerCopy else 0x00C0
        let single := !(both && decide (peer = St.success))
        let x := (s.series false (s.deviceId.extractLsb' 0 32) f).find? fun x => decide (x.slot = t.slot ∧ x.ingot = none)
        let done : Status × State := match x with
          | none => (StorSt.absent, s)
          | some x =>
            if copyStatus ownCopy ≠ St.success then (copyStatus ownCopy, s)
            else match s.ownCopy x { g with single := single } t.data (ingotKeys t.key) with
              | none => (StorSt.range, s)
              | some s => (St.success, s)
        let own := done.1
        let s := done.2
        let s := if both && decide (peer = St.success) then
            let refs := ((s.series false (s.deviceId.extractLsb' 0 32) f).find? fun x => decide (x.slot = t.slot)).elim [] IngotSlot.refs
            s.twinStream ((slotBlocks (ingotKeys t.key) { g with single := decide (own ≠ St.success), peerCopy := true } t.data refs).map
              fun b => .ingotStream (peerArea.extractLsb' 0 4) f (BitVec.ofNat 8 t.slot) (BitVec.ofNat 48 b.1) b.2)
          else s
        let s := if own = St.success then s else s.postOwner 0x0A03 own 0xFFF (evData [0, own.toNat])
        let s := if both && decide (peer ≠ St.success) then s.postOwner 0x0A03 peer 0xFFF (evData [1, peer.toNat]) else s
        let st : Status :=
          if own = St.success ∧ (!both ∨ peer = St.success) then St.success
          else if own = St.success ∨ (both ∧ peer = St.success) then IngSt.oneCopy
          else own
        .next ((s.endTake t st).nextTake f)

/-! ### Restoring (R490–R494) -/

def Engine.ofImage (e : EngImage) : Engine :=
  { Engine.reset with acc := e.acc, aexp := e.aexp, pinned := e.pinned, sat := e.sat, nan := e.nan, lfsr := e.lfsr, satc := e.satc
                      outc := e.outc, clipc := e.clipc, err := e.err }

/-- A core loaded from the current mould takes what its record holds: the watchdog restarts, and there is no reservation. -/
def Core.restored (k : Core) (r : CoreImage) (sent : List Nat) : Core :=
  { k with
    a := { k.a with g := r.g, pc := r.pc, stat := Stat.ofWord r.stat, trap := ⟨r.trap[0], r.trap[1], r.trap[2], r.trap[3]⟩
                    timers := { k.a.timers with armed := r.armed, count := r.timer, pending := false, wdCount := k.a.timers.wdPeriod }
                    resv := ⟨false, 0⟩ }
    inp := r.inp.map fun ws => ws.map fun w => ⟨w.1, k.flask, w.2⟩
    outp := Vector.ofFn fun i => let o := k.outp[i]; if o.dst.isNone then o else
      { o with credits := r.credits.getD i.val o.credits, sent := sent.getD i.val 0 }
    locks := r.locks.map fun l => ⟨l.1, l.2⟩
    eng := r.eng.map Engine.ofImage }

/-- A cluster record is loaded (R494). -/
def State.loadCluster (s : State) (f : FlaskId) (cl : ClusterId) (r : ClusterImage) : State :=
  let s := { s with mem := s.mem.clearCluster cl }
  let core (i : Nat) : CoreId := BitVec.ofNat 20 (cl.toNat * 256 + i)
  let m := r.stores.foldl (fun m x => m.setWord (coreBase (core (x.1 / 2048)) / 4 + x.1 % 2048) x.2) s.mem
  let m := r.shared.foldl (fun m x => m.setWord (clusterBase cl / 4 + x.1) x.2) m
  let s := { s with mem := m }
  let s := (r.cores.zipIdx).foldl (fun s x => s.modCore (.core (core x.2)) fun k => k.restored x.1 ((r.sent.drop (8 * x.2)).take 8)) s
  let ws := r.waiters.filterMap fun w => (coreAt (s.flask f).clusters w.core).map fun c =>
    Waiter.mk (.core c) (s.core (.core c)).gen w.addr w.seg w.off w.core (.barrier w.round true w.closed)
  s.setCluster cl { s.cluster cl with waiters := ws, gen := r.gen }

/-- A granule is written whole, its sixteen units valid. -/
def State.loadUnit (s : State) (f : FlaskId) (x : Nat × List Byte) : State :=
  s.writeLp (flaskDom f) (2 * 2 ^ 44 + x.1 * 65536) (x.2 ++ List.replicate (65536 - x.2.length) 0)

/-- What the flask's cores have stored and moved within the module is performed, in the order of issue (R118). -/
def State.settleStores (s : State) (f : FlaskId) : State :=
  let fl := s.flask f
  let mine (i : Nat) : Bool := s.fab.reqs.any (fun r => fl.storing r && decide (r.id = i)) ||
    (s.moveOf i).any fun m => fl.hasProc m.1 && !m.2.2.toHost
  ((List.range s.fab.nextId).filter mine).foldl (fun s i =>
    match s.fab.reqs.find? (·.id = i), s.moveOf i with
    | some r, _ => (s.performMem r .stored).1
    | none, some m => s.runMove m.1 m.2.1 m.2.2
    | none, none => s) s

/-- What an ingot's data put back: the granules of kind 1 and 2, the cluster records, and then the objects of the current mould, a
barrier with the counts of the latest update in force (R47, R494). -/
def State.putIngot (s : State) (f : FlaskId) (m : Option Mould) (d : IngotData) : State :=
  let cls := (s.flask f).clusters
  let s := d.units.foldl (fun (s : State) x => s.loadUnit f x) s
  let s := (cls.zip d.records).foldl (fun (s : State) (x : ClusterId × ClusterImage) => s.loadCluster f x.1 x.2) s
  match m with
  | none => s
  | some m => m.syncs.foldl (fun s r => s.putObject cls r) s

/-- The ingot restored into the flask, or with none read the flask left reset; the command that restores goes on through the
squash. -/
def State.restore (s : State) (f : FlaskId) (h : Option CmdHdr) (data : Option IngotData) : State :=
  let held : Option (LadleRef × Cmd) := h.bind fun h => ((s.ladle h.ladle).cmds.find? fun c => decide (c.tag = h.tag)).map fun c => (h.ladle, c)
  let s := match held with
    | none => s
    | some x => s.setLadle x.1 { s.ladle x.1 with cmds := (s.ladle x.1).cmds.filter (· ≠ x.2) }
  let s := ((s.beginStop f).settleStores f).squashWork f
  let fl := s.flask f
  let m := fl.mould.map (s.barriersInForce fl.clusters)
  let s := s.clearFlask f
  let s := match m with
    | none => s
    | some m => s.loadAll f m
  let s := match data with
    | none => s
    | some d => s.putIngot f m d
  let s := s.setFlask f { s.flask f with st := s.runState (s.flask f) }
  match held with
  | none => s
  | some x => s.setLadle x.1 { s.ladle x.1 with cmds := (s.ladle x.1).cmds ++ [x.2] }

/-- The slots of a series that the module can reach. -/
def State.ingotsOf (s : State) (fromPeer : Bool) (f pf : FlaskId) : List IngotSlot :=
  let xs := if fromPeer then s.series true (s.peerId.extractLsb' 0 32) pf else s.series false (s.deviceId.extractLsb' 0 32) f
  xs.filter fun x => ((s.area x.area).map fun a => (s.drive a.port).ready).getD false

/-- The complete ingot of the highest number, or the one named. -/
def newest (number : Nat) (xs : List IngotSlot) : Option IngotHdr :=
  (xs.filterMap (·.ingot)).foldl (fun b g =>
    if number ≠ 0 then (if g.number = number then some g else b)
    else match b with
      | none => some g
      | some y => if y.number < g.number then some g else b) none

/-- A restore into a flask (R491–R494): its status, and the state. -/
def State.restoreFrom (s : State) (f : FlaskId) (fromPeer : Bool) (pf : FlaskId) (number : Nat) (h : Option CmdHdr) (data : Option IngotData) :
    Status × State :=
  let xs := s.ingotsOf fromPeer f pf
  let best := newest number xs
  let top := (best.map fun (g : IngotHdr) => g.number).getD 0
  let s := (xs.filter fun x => x.ingot.isNone && decide (top < x.before)).foldl
    (fun s x => s.postOwner 0x0A02 St.success 0xFFF (evData [x.area, x.slot])) s
  let fl := s.flask f
  match best with
  | none => (IngSt.none', s)
  | some g =>
    let key := (fl.setup.bind fun (p : IngotSetupP) => s.ingotKey p.keySlot).map keyCheck
    let shape := fl.st.isCast && ((fl.mould.map fun m => m.id == g.mouldId && m.sequence == g.sequence).getD false) && fl.rot == g.rot
    if key ≠ some g.keyCheck then (IngSt.key, s)
    else if !shape then (St.shapeMismatch, s)
    else (if data.isSome then St.success else St.mediaError, s.restore f h data)

/-- INGOT_RESTORE; `data` is what the drives return, decrypted, or none for a read failure (R493, R494). -/
def execIngotRestore (h : CmdHdr) (flask : BitVec 16) (fromPeer resv : Byte) (peerFlask : BitVec 16) (number : BitVec 64)
    (data : Option IngotData) (s : State) : Host.Outcome State Fault Refusal :=
  s.command h (.ingotRestore h flask fromPeer resv peerFlask number data) fun s =>
    let body (f : FlaskId) (s : State) : State :=
      if resv ≠ 0 ∨ 1 < fromPeer.toNat ∨ (fromPeer = 1 ∧ (h.ladle ≠ .admin ∨ 255 < peerFlask.toNat)) then s.done h St.malformed
      else
        let r := s.restoreFrom f (fromPeer == 1) (peerFlask.extractLsb' 0 8) number.toNat (some h) data
        r.2.done h r.1
    match h.ladle with
    | .admin => s.onFlask h flask body
    | .flask f _ => body f s

end Sys2Proof.Machine
end

