-- ==== Sys2Proof/Machine/Reset.lean ====
section
/-!
DEFINITION. Reset, start-up, option words, self-test, clock domains, modes and stored-bit flips
(spec/17_reset_and_selftest.md, R497–R515; R235, R316, R317, R543, R545).
-/

namespace Sys2Proof.Machine

/-! ### The option words (R504–R506) -/

/-- The registers that the option words load: `OWN.CAP`, `SEC.BO_POLICY`, `SEC.DEBUG_CTL`, `TWIN.PEER_EID`, `NET.Pn_MAC`. -/
def optRegs : List Nat :=
  [0x2014, 0x600004, 0x600010, 0x700020] ++ (List.range 8).flatMap fun n => [0x302008 + 256 * n, 0x30200C + 256 * n]

/-- The copy with the higher `SEQ`. -/
def Options.newest (o : Options) : OptCopy := if o.c0.seq.toNat < o.c1.seq.toNat then o.c1 else o.c0

/-- The copy with the lower `SEQ` is written, with the higher `SEQ` plus 1 (R506). -/
def Options.write (o : Options) (c : OptCopy) : Options :=
  let c := { c with seq := o.newest.seq + 1 }
  if o.c0.seq.toNat < o.c1.seq.toNat then { o with c0 := c } else { o with c1 := c }

def State.setOpt (s : State) (o : Options) : State := { s with rst := { s.rst with opt := o } }

/-- The registers as they stand, put in a copy. -/
def State.optNow (s : State) : Tab Word := optRegs.foldl (fun t o => Tab.put 0 t o (s.reg o)) []

/-- OPTION_WORDS_WRITE: the management core writes what has changed. -/
def execOptionWordsWrite (s : State) : Host.Outcome State Fault Refusal :=
  let o := s.rst.opt
  if !o.dirty || !s.phase.serves then .next s
  else .next (s.setOpt { o.write { o.newest with regs := s.optNow } with dirty := false })

/-- The copy that loading takes, and whether it is copy 1; none where neither check passes (R505). -/
def Options.choose (o : Options) (ok0 ok1 : Bool) : Option (OptCopy × Bool) :=
  if ok0 && (!ok1 || decide (o.c1.seq.toNat ≤ o.c0.seq.toNat)) then some (o.c0, false)
  else if ok1 then some (o.c1, true) else none

/-! ### What a reset clears (R497) -/

/-- Registers whose values lie in fuses or flash: identity, the peer's identity, registered keys. -/
def inFlash (off : Nat) : Bool :=
  decide (off < 0x2000) || decide (0x700010 ≤ off ∧ off < 0x700020) || decide (0x600100 ≤ off ∧ off ≤ 0x600420)

/-- The module in reset. Fuses, flash and drives keep what they hold; `deep`, for power-on and brown-out, loses the log ring
and the reference counters too; `unlock` keeps a debug unlock. -/
def State.cleared (s : State) (deep unlock : Bool) : State :=
  let kp := s.twin.kp.isSome
  { State.reset with
    pending := s.pending, fresh := s.fresh, out := s.out, phase := .off
    regs := Tab.putAll 0 Regs.reset (s.regs.filter fun e => inFlash e.1)
    mem := { Mem.reset with repairs := s.mem.repairs, fused := s.mem.fused, faulty := s.mem.faulty, hardFaults := s.mem.hardFaults }
    fw := { Firmware.reset with
      running := s.fw.running, bankB := s.fw.bankB, other := s.fw.other, staged := s.fw.staged, secver := s.fw.secver, start := s.fw.start
      log := if deep then [] else s.fw.log, logNext := if deep then 0 else s.fw.logNext
      logWraps := if deep then 0 else s.fw.logWraps }
    sec := { Sec.reset with seed := s.sec.seed, duk := s.sec.duk, records := s.sec.records, unlocked := if unlock then s.sec.unlocked else 0 }
    twin := { Twin.reset with
      st := if kp then .joining else .unpaired, roleB := s.twin.roleB, cable := s.twin.cable, kp := s.twin.kp
      epoch := if kp then s.twin.epoch else 0 }
    ing := { Ingots.reset with areas := s.ing.areas, slots := s.ing.slots, last := s.ing.last }
    rst := { Rst.reset with
      pinLow := s.rst.pinLow, powered := s.rst.powered, fuseOpen := s.rst.fuseOpen, mated := s.rst.mated
      resets := s.rst.resets, loop := s.rst.loop, cause := s.rst.cause, opt := { s.rst.opt with dirty := false } }
    bg := { Bg.reset with flashErases := s.bg.flashErases, flashRetired := s.bg.flashRetired, trims := s.bg.trims, wearSeen := s.bg.wearSeen }
    refs := if deep then [] else s.refs }

/-- Reset sources, in the order of R497. -/
inductive Source where
  | powerOn | brownOut | pin | watchdog | software | debug | clock | lockUp
  deriving DecidableEq, Repr

def Source.code : Source → Nat
  | .powerOn => 0
  | .brownOut => 1
  | .pin => 2
  | .watchdog => 3
  | .software => 4
  | .debug => 5
  | .clock => 6
  | .lockUp => 7

def Source.counts : Source → Bool
  | .watchdog | .debug | .clock | .lockUp => true
  | _ => false

/-- The reset from a source, with `RST.CAUSE` and `RST.COUNT` kept as R497, R507 and R515 say: 60 s of service, a free bit,
clear the loop count. -/
def State.resetBy (s : State) (src : Source) : State :=
  let deep := decide (src = .powerOn ∨ src = .brownOut)
  let bit := BitVec.ofNat 8 (2 ^ src.code)
  let loop := if s.phase.serves && s.freeBit then 0 else s.rst.loop
  let unlock := !deep && decide (src ≠ .pin)
  let t := s.took.cleared deep unlock
  { t with rst := { t.rst with
    cause := if deep then bit else s.rst.cause ||| bit
    resets := if src = .powerOn then 0 else s.rst.resets + 1
    loop := if src.counts then BitVec.ofNat 3 (min 7 (loop.toNat + 1)) else if deep || src = .pin then 0 else loop } }

/-! ### Start-up (R502) -/

/-- The cold-shut state (R512, R514): HE0 trains at x4 and at up to 16.0 GT/s, HE1 is idle (R285), and the attention indicator
blinks at 4 Hz (R308). -/
def State.coldShut (s : State) (reason : Nat) (detail : BitVec 16) : State :=
  let s := s.setReg Reg.pciAttn (s.reg Reg.pciAttn ||| 6)
  { s with
    phase := .coldShut, rst := { s.rst with cold := reason, coldDetail := detail, env := none }
    he0 := { s.he0 with speed := if 4 < s.he0.speed.toNat then 4 else s.he0.speed, flit := false
                        width := if 4 < s.he0.width.toNat then 4 else s.he0.width }
    he1 := { s.he1 with speed := 0, width := 0, flit := false } }

/-- The outputs of the module (R513). -/
inductive Output where
  | he0Tx | he1Tx | rootTx | rootPerst | slotPower | slotInd | attnInd | lasers | twinLink | lpddrReset | lpddrClock | lpddrCa
  | lpddrDq | flashSelect | manageBus | tdo | modFault | gpio
  deriving DecidableEq, Repr

/-- What an output does before the owner or firmware first configures it (R513). -/
inductive Level where
  | electricalIdle | training | x4At16 | asserted | off | blinking4Hz | idle | low | stopped | highZ | channelDriven
  | deselected | firmwareDriven | released | answering | highZUnlessShifting | pulledLow | pulledUp | configured
  deriving DecidableEq, Repr

/-- The table of R513. From step 9 of start-up on, the owner and firmware configure the outputs; `MOD_FAULT_L` is released then. -/
def Output.level (o : Output) : Phase → Level
  | .off => match o with
    | .he0Tx | .he1Tx | .rootTx => .electricalIdle
    | .rootPerst => .asserted
    | .slotPower | .slotInd | .attnInd | .lasers => .off
    | .twinLink => .idle
    | .lpddrReset | .lpddrCa => .low
    | .lpddrClock => .stopped
    | .lpddrDq => .highZ
    | .flashSelect => .deselected
    | .manageBus => .released
    | .tdo => .highZUnlessShifting
    | .modFault => .pulledLow
    | .gpio => .pulledUp
  | .startUp => match o with
    | .he0Tx | .he1Tx => .training
    | .rootTx => .electricalIdle
    | .rootPerst => .asserted
    | .slotPower | .slotInd | .attnInd | .lasers => .off
    | .twinLink => .idle
    | .lpddrReset | .lpddrClock | .lpddrCa | .lpddrDq => .channelDriven
    | .flashSelect => .firmwareDriven
    | .manageBus => .answering
    | .tdo => .highZUnlessShifting
    | .modFault => .pulledLow
    | .gpio => .highZ
  | .coldShut => match o with
    | .he0Tx => .x4At16
    | .he1Tx | .rootTx => .electricalIdle
    | .rootPerst => .asserted
    | .slotPower | .slotInd | .lasers => .off
    | .attnInd => .blinking4Hz
    | .twinLink => .idle
    | .lpddrReset | .lpddrCa => .low
    | .lpddrClock => .stopped
    | .lpddrDq => .highZ
    | .flashSelect => .firmwareDriven
    | .manageBus => .answering
    | .tdo => .highZUnlessShifting
    | .modFault => .pulledLow
    | .gpio => .highZ
  | .service | .test | .recovery => match o with
    | .modFault => .released
    | .manageBus => .answering
    | .tdo => .highZUnlessShifting
    | _ => .configured

/-- What an output does now (R513). -/
def State.output (s : State) (o : Output) : Level := o.level s.phase

/-- The image in a flash bank; the running one was loaded from its own. -/
def Firmware.image (w : Firmware) (b : Bool) : Option ImageHdr := if b = w.bankB then some w.running else w.other

/-- What ROM finds of a bank (R316, step 2). `v` says how the bank's flash reads: as it was written, or damaged. The factory's
image, whose bytes are not known, has the form and the signature of an image. -/
def Firmware.romCheck (w : Firmware) (b : Bool) (v : ImageVerdict) : Status :=
  match w.image b with
  | none => St.malformed
  | some i => match v with
    | .malformed => St.malformed
    | .badSignature => if i.secver.toNat < w.secver then St.rollback else St.badSignature
    | .good =>
      if i.raw.isEmpty then (if i.secver.toNat < w.secver then St.rollback else St.success)
      else imageCheck i.raw w.secver (imageSigned i.raw)

/-- The firmware runs from a bank; the other bank keeps its image. -/
def Firmware.runFrom (w : Firmware) (b : Bool) : Firmware :=
  if b = w.bankB then w
  else match w.other with
    | none => w
    | some i => { w with running := i, other := some w.running, staged := false, bankB := b }

/-- ROM loads the security core's component into its store. -/
def State.loadRom (s : State) : State :=
  match imageComponent s.fw.running.raw 0 with
  | some c => if s.fw.running.raw.isEmpty then s else { s with mem := s.mem.loadStore (fwProc .security) (c.data s.fw.running.raw) }
  | none => s

/-- The lanes of a port or link in `BIST.LANE_FAIL`: Ethernet ports 0–7, the twin link 8, HE0 9, HE1 10, RP0–RP7 11–18; place
and number of bits. -/
def laneGroups : List (Nat × Nat × Nat) :=
  ((List.range 8).map fun n => (n, 8 * n, 8)) ++ [(8, 64, 16), (9, 80, 16), (10, 96, 16)] ++
    (List.range 8).map fun n => (11 + n, 112 + 4 * n, 4)

/-- The failed lanes of a group. -/
def failedLanes (v : BitVec 160) (g : Nat × Nat × Nat) : Nat := v.toNat / 2 ^ g.2.1 % 2 ^ g.2.2

/-- `BIST.STAT.STATUS` and `DONE`. -/
def State.bistStatus (s : State) (st : Status) (done : Bool) : State :=
  s.setReg Reg.bistStat (BitVec.ofNat 32 (st.toNat * 2 ^ 16 + (if done then 2 else (s.reg Reg.bistStat).toNat % 4)))

/-- What BIST measures of rails and oscillators (R508). -/
def State.bistMeasured (s : State) (b : BistReport) : State :=
  (s.setReg Reg.bistVolt (BitVec.ofNat 32 (b.railTenths.toNat + b.rail.toNat * 2 ^ 8))).setReg Reg.bistClock
    (BitVec.ofNat 32 (b.clockPpm.toNat + b.clockDie.toNat * 2 ^ 16))

/-- Step 9 (R502): the mode, and `RESET_CAUSE` in the log ring. -/
def State.enterService (s : State) (recovery : Bool) : State :=
  let s := { s with phase := if recovery then .recovery else if s.rst.straps.getLsbD 0 then .test else .service }
  s.logRecord 0x0B03 2 0 false 0x100 none (evData [s.rst.cause.toNat])

/-- Steps 8 and 9: firmware is loaded and released (R316); a component whose digest is wrong leaves no valid image. -/
def State.releaseFirmware (s : State) (recovery : Bool) : State :=
  match s.loadFirmware with
  | some s => s.enterService recovery
  | none => s.coldShut 1 St.malformed

/-- `MEM.CHK`: which kinds of checker passed, and how many instances failed (R234, R236). -/
def bistChk (b : BistReport) : Word :=
  BitVec.ofNat 32 ((0x1F &&& (0x1F ^^^ b.badCheckers.toNat)) + (if b.badCheckers = 0 then 0 else max 1 b.checkerFails.toNat) * 2 ^ 16)

/-- Soft repairs are made and recorded (R226, R508, R509). -/
def State.repairAll (s : State) (rs : List Repair) : State := rs.foldl State.repair s

/-- BIST has run its tests (R508): a failed checker or a fatal failure shuts the module; failed lanes degrade. -/
def State.bistRan (s : State) (env : StartupEnv) (recovery : Bool) : State :=
  let b := env.bist
  let checkers := decide (b.badCheckers ≠ 0)
  let fatal := (b.fatal.toNat &&& 0x77) + (if checkers then 0x80 else 0)
  let lanes := decide (b.laneFail ≠ 0)
  let ok := 0xFF - fatal - (if lanes then 8 else 0)
  let s := ((s.setReg Reg.bistResult (BitVec.ofNat 32 (ok + min 0xFFFF b.repairs.length * 2 ^ 16))).setReg Reg.memChk (bistChk b)).bistStatus
    (if fatal = 0 then St.success else 0x00E1) false
  let s := (List.range 5).foldl (fun s i => s.setReg (Reg.bistLaneFail + 4 * i) (b.laneFail.extractLsb' (32 * i) 32)) s
  let s := s.repairAll b.repairs
  let s := { s with mem := { s.mem with faulty := s.mem.faulty ++ b.faultyGranules.filter fun g => !(s.mem.faulty.contains g) } }
  let s := (laneGroups.filter fun g => decide (failedLanes b.laneFail g ≠ 0)).foldl
    (fun s g => s.postOwner 0x0B04 St.success 0xFFF (evData [g.1, failedLanes b.laneFail g])) s
  if checkers then s.coldShut 2 0x00E1
  else if fatal ≠ 0 then s.coldShut 3 0x00E1
  else s.releaseFirmware recovery

/-- Steps 6 to 9, once the option words are loaded. -/
def State.startDomains (s : State) (env : StartupEnv) (recovery : Bool) : State :=
  if !env.domainsStable then s.coldShut 6 0
  else
    let s := s.bistMeasured env.bist
    if env.refused then
      { s.bistStatus 0x00E0 false with phase := .startUp, rst := { s.rst with env := some env, refusals := 1 } }
    else s.bistRan env recovery

/-- Option loading (R504–R506): the registers, and the start-up number S, recorded with `ONCE` cleared. -/
def State.loadOptions (s : State) (env : StartupEnv) : State :=
  let o := s.rst.opt
  let x := o.choose env.option0Ok env.option1Ok
  let c := (x.map Prod.fst).getD { Options.reset.c0 with start := o.newest.start }
  let s := optRegs.foldl (fun s r => s.setReg r (Tab.get 0 c.regs r)) s
  let n := c.start + 1
  let o := { o.write { c with once := 0, start := n } with which := (x.map Prod.snd).getD false, defaulted := x.isNone, dirty := false }
  let s := (s.setOpt o)
  { s with fw := { s.fw with start := n, admin := Ladle.admin (BitVec.ofNat 32 (n.toNat * 65536)) }
           rst := { s.rst with straps := env.straps &&& 0x1F } }

/-- Start-up from step 1 (R502). -/
def State.startUp (s : State) (env : StartupEnv) : State :=
  if !env.railsOk then s.coldShut 6 0
  else
    let s := if env.fuseMajority then s.writeTrip .fuseShadow
      else ((s.count Reg.memVoteFail).setReg Reg.secBoStat (s.reg Reg.secBoStat ||| 0x100)).raiseBreakout 5 (s.triggerLevel 5)
    if 4 ≤ s.rst.loop.toNat then s.coldShut 5 0
    else
      let c := s.rst.opt.choose env.option0Ok env.option1Ok
      let want := env.straps.getLsbD 1 || (c.map fun x => x.1.bankB).getD false
      let verdict (b : Bool) : Status := s.fw.romCheck b (if b then env.bankB else env.bankA)
      let log (s : State) (b : Bool) : State := s.logRecord (verdict b) 5 3 false 0x100 none (evData [if b then 1 else 0])
      let recovery := (c.map fun x => x.1.once.getLsbD 1).getD false
      if verdict want = St.success then
        ((({ s with fw := s.fw.runFrom want }).loadRom).loadOptions env).startDomains env recovery
      else if verdict (!want) = St.success then
        ((({ s with fw := { s.fw.runFrom (!want) with fallback := true } }).loadRom).loadOptions env).startDomains env recovery
      else (log (log s want) (!want)).coldShut 1 (verdict want)

/-- A module reset while the module runs, and the start-up that follows. -/
def State.moduleReset (s : State) (src : Source) (env : StartupEnv) : State := (s.resetBy src).startUp env

/-- A breakout at level 3 has left the module unpaired (R444); any other module reset takes a running module. -/
def State.resetIf (s : State) (cond : Bool) (src : Source) (env : StartupEnv) : Answer :=
  if s.phase = .off || !cond then .next s else .next (s.moduleReset src env)

/-- POWER_ON_RESET: input power good, which needs J2 mated (R545). While the pin is low the module stays in reset (R503). -/
def execPowerOnReset (env : StartupEnv) (s : State) : Host.Outcome State Fault Refusal :=
  if s.rst.powered || !s.rst.mated then .next s
  else
    let s := { s with rst := { s.rst with powered := true, fuseOpen := false } }.resetBy .powerOn
    if s.rst.pinLow then .next s else .next (s.startUp env)

/-- Input power is lost: every domain is in reset and the rails fall (R543). -/
def State.powerDown (s : State) : State :=
  let s := s.resetBy .brownOut
  { s with rst := { s.rst with powered := false } }

/-- BROWN_OUT. -/
def execBrownOut (s : State) : Host.Outcome State Fault Refusal :=
  if s.rst.powered then .next s.powerDown else .next s

/-- INPUT_FUSE_OPEN: as a brown-out; the electronic fuse stays open until power returns. -/
def execInputFuseOpen (s : State) : Host.Outcome State Fault Refusal :=
  if s.rst.powered then
    let s := s.powerDown
    .next { s with rst := { s.rst with fuseOpen := true } }
  else .next s

/-- MATE_L_CHANGE (R545): without J2, input power good is not declared. -/
def execMateLChange (mated : Bool) (s : State) : Host.Outcome State Fault Refusal :=
  let s := { s with rst := { s.rst with mated := mated } }
  if !mated && s.rst.powered then .next s.powerDown else .next s

/-- RESET_PIN: a low of `lowNs`; between 100 ns and 1 µs it is taken or ignored, never in part (R503). -/
def execResetPin (lowNs : Nat) (taken : Bool) (s : State) : Host.Outcome State Fault Refusal :=
  if lowNs < 100 || (decide (lowNs < 1000) && !taken) || s.rst.pinLow then .next s
  else
    let s := { s with rst := { s.rst with pinLow := true } }
    .next (if s.rst.powered then s.resetBy .pin else s)

/-- MOD_RST_L_RELEASE: start-up begins at step 1. -/
def execModRstLRelease (env : StartupEnv) (s : State) : Host.Outcome State Fault Refusal :=
  if !s.rst.pinLow then .next s
  else
    let s := { s with rst := { s.rst with pinLow := false } }
    .next (if s.rst.powered then s.startUp env else s)

/-- MODULE_WATCHDOG_EXPIRY (R498). -/
def execModuleWatchdogExpiry (env : StartupEnv) (s : State) : Host.Outcome State Fault Refusal :=
  s.resetIf (decide (s.phase ≠ .coldShut)) .watchdog env

/-- LOCK_UP_RESET: a hub processor has failed two restarts in succession. -/
def execLockUpReset (env : StartupEnv) (s : State) : Host.Outcome State Fault Refusal :=
  s.resetIf s.phase.serves .lockUp env

/-- RST_SWRESET: with its key, from the owner in service; from HE0 or MGMT in start-up and in the cold-shut state; and the
security core's own request after a level-3 breakout (R444, R502, R512, R515). `ONCE` is set in the option words (R506). -/
def execRstSwreset (m : Master) (value : Word) (env : StartupEnv) (s : State) : Host.Outcome State Fault Refusal :=
  let once := BitVec.ofNat 8 (value.toNat / 2 ^ 16 % 4)
  let go (s : State) : State :=
    if value.toNat % 2 ^ 16 ≠ 0xA5C3 then s
    else
      let o := s.rst.opt
      (if once = 0 then s else s.setOpt (o.write { o.newest with once := once })).moduleReset .software env
  if s.phase = .off then .next s
  else if s.sec.erasing then .next (go s)
  else if s.phase.serves then .next (s.ownerWrite m go)
  else if m = .he0 ∨ m = .mgmt then .next (go s)
  else .next s

/-- BIST_PRECONDITION_CHECK: BIST measures again; after 2 s of refusals the module is shut (R508). -/
def execBistPreconditionCheck (env : StartupEnv) (s : State) : Host.Outcome State Fault Refusal :=
  match s.rst.env with
  | none => .next s
  | some e =>
    let recovery := (s.rst.opt.choose e.option0Ok e.option1Ok |>.map fun x => x.1.once.getLsbD 1).getD false
    let s := s.bistMeasured env.bist
    if env.refused then
      let s := { s with rst := { s.rst with refusals := s.rst.refusals + 1 } }
      .next (if 20 < s.rst.refusals then s.coldShut 4 0x00E0 else s)
    else .next ({ s with rst := { s.rst with env := none } }.bistRan env recovery)

/-! ### Clock domains (R499–R501) -/

/-- A domain's number in an event: its order in R499, and its index. -/
def domainCode : ClockDomain → Nat
  | .aon => 0x10000
  | .hubCore => 0x20000
  | .hubIsland i => 0x30000 + i.toNat
  | .dieInfra d => 0x40000 + d.toNat
  | .channels d => 0x50000 + d.toNat
  | .cluster cl => 0x60000 + cl.toNat

/-- The parents of a domain that may be held in reset. -/
def domainParents : ClockDomain → List ClockDomain
  | .channels d => [.dieInfra d]
  | .cluster cl => [.dieInfra (BitVec.ofNat 3 (cl.toNat / 512))]
  | _ => []

def dieClusters (d : Die) : List ClusterId := (List.range 512).map fun i => BitVec.ofNat 12 (d.toNat * 512 + i)

/-- What is in flight from or to the clusters and, for a die, its memory is lost with the domain. -/
def State.dropFlight (s : State) (cls : ClusterId → Bool) (die : Option Die) : State :=
  let proc : Proc → Bool
    | .core c => cls (coreCluster c)
    | .ccc cl => cls cl
    | .hub _ => false
  let home (a : BitVec 48) : Bool :=
    if space a.toNat = 2 then die.any (fun d => decide (bits a.toNat 41 39 = d.toNat))
    else decide (space a.toNat < 2) && cls (faCluster a.toNat)
  { s with fab := { s.fab with
    reqs := s.fab.reqs.filter (fun r => !(proc r.issuer || home r.addr))
    reps := s.fab.reps.filter (fun r => !(proc r.issuer || home r.fa))
    syncs := s.fab.syncs.filter (fun r => !(proc r.issuer || home r.addr))
    syncReps := s.fab.syncReps.filter (fun r => !(proc r.issuer || home r.fa))
    transit := s.fab.transit.filter (fun t => !(cls (coreCluster t.src) || cls (coreCluster t.dst)))
    credits := s.fab.credits.filter (fun x => !(cls (coreCluster x.1))) } }

/-- A cluster's stores and processors in reset. -/
def State.clusterDown (s : State) (cl : ClusterId) : State :=
  let s := { s with mem := s.mem.clearCluster cl }
  let s := s.modCore (.ccc cl) fun k => { k with run := .held, wait := none }
  s.setCluster cl { s.cluster cl with waiters := [], clock := 40 }

/-- `DOMAIN_RESET` to the owner and to each flask affected. -/
def State.postDomain (s : State) (d : ClockDomain) (src : Source) (fs : List FlaskId) : State :=
  let ev := evData [domainCode d, src.code]
  fs.foldl (fun s f => s.postFlask f 0x0B01 St.success 0xFFF ev) (s.postOwner 0x0B01 St.success 0xFFF ev)

/-- Each flask affected is reset in `MODE` 1; it finishes once its domains are released. -/
def State.resetFlasks (s : State) (fs : List FlaskId) : State := fs.foldl (fun s f => s.resetFor f 1 false []) s

/-- A die reset (R501). -/
def State.dieReset (s : State) (d : Die) (at' : ClockDomain) (src : Source) : State :=
  let fs := s.liveFlasks.filter fun f => (s.flask f).onDie d
  let inDie (x : Nat) : Bool := decide (x / 2 ^ 39 = 64 + d.toNat)
  let kept := s.rst.resetDomains.filter fun x => match x with
    | .cluster cl => decide (cl.toNat / 512 ≠ d.toNat)
    | .dieInfra e => e != d
    | .channels e => e != d
    | _ => true
  let ds := ClockDomain.dieInfra d :: .channels d :: (dieClusters d).map ClockDomain.cluster ++ kept
  let s := { s with rst := { s.rst with resetDomains := ds } }
  let s := (dieClusters d).foldl State.clusterDown (s.dropFlight (fun cl => decide (cl.toNat / 512 = d.toNat)) (some d))
  let s := { s with mem := { s.mem with lpValid := s.mem.lpValid.filter fun e => !(inDie (e.1 * 4096)) } }
  (s.resetFlasks fs).postDomain at' src fs

/-- A cluster reset (R501); a free cluster is only logged. -/
def State.clusterReset (s : State) (cl : ClusterId) (src : Source) : State :=
  let fs := s.liveFlasks.filter fun f => (s.flask f).clusters.contains cl
  let s := { s with rst := { s.rst with resetDomains := ClockDomain.cluster cl :: s.rst.resetDomains.filter (· ≠ ClockDomain.cluster cl) } }
  let s := (s.dropFlight (· == cl) none).clusterDown cl
  let s := if fs.isEmpty then s.logRecord 0x0B01 3 1 false 0x1FF none (evData [domainCode (.cluster cl), src.code]) else s
  (s.resetFlasks fs).postDomain (.cluster cl) src fs

/-- A domain and its dependants are put into reset. -/
def State.domainReset (s : State) (d : ClockDomain) (src : Source) (env : StartupEnv) : State :=
  match d with
  | .dieInfra x => s.dieReset x d src
  | .channels x => s.dieReset x d src
  | .cluster cl => s.clusterReset cl src
  | _ => s.moduleReset src env

/-- CLOCK_FAILURE. -/
def execClockFailure (domain : ClockDomain) (env : StartupEnv) (s : State) : Host.Outcome State Fault Refusal :=
  if s.phase = .off then .next s
  else if s.phase.serves then .next (s.domainReset domain .clock env)
  else .next (s.moduleReset .clock env)

/-- DEBUG_RESET: the module, or one domain, after a scope-2 unlock (R497). -/
def execDebugReset (domain : Option ClockDomain) (env : StartupEnv) (s : State) : Host.Outcome State Fault Refusal :=
  if s.phase = .off ∨ s.sec.unlocked ≠ 2 then .next s
  else match domain with
    | none => .next (s.moduleReset .debug env)
    | some d => if s.phase.serves then .next (s.domainReset d .debug env) else .next s

/-- DOMAIN_CLOCK_STABLE: the domain is released once its parent has been (R499). -/
def execDomainClockStable (domain : ClockDomain) (s : State) : Host.Outcome State Fault Refusal :=
  let ds := s.rst.resetDomains
  if !ds.contains domain || (domainParents domain).any ds.contains then .next s
  else .next { s with rst := { s.rst with resetDomains := ds.filter (· ≠ domain) } }

/-- DOMAIN_STABLE_TIMEOUT: the reset widens, a cluster's to its die, a die's to the module (R501). -/
def execDomainStableTimeout (domain : ClockDomain) (env : StartupEnv) (s : State) : Host.Outcome State Fault Refusal :=
  let ds := s.rst.resetDomains
  if !ds.contains domain then .next s
  else match domain with
    | .cluster cl =>
      let d : Die := BitVec.ofNat 3 (cl.toNat / 512)
      if ds.contains (.dieInfra d) || ds.contains (.channels d) then .next (s.moduleReset .clock env)
      else .next (s.dieReset d (.dieInfra d) .clock)
    | _ => .next (s.moduleReset .clock env)

/-- OL_DBG_RELEASE: the forced release of a domain (R500). -/
def execOlDbgRelease (domain : ClockDomain) (s : State) : Host.Outcome State Fault Refusal :=
  if s.sec.unlocked ≠ 2 ∨ !s.rst.resetDomains.contains domain then .next s
  else .next { s with rst := { s.rst with resetDomains := s.rst.resetDomains.filter (· ≠ domain), forced := domain :: s.rst.forced } }

/-! ### Modes, run-time self-test and flips (R235, R509–R511) -/

/-- RST_MODE_REQ_TEST. -/
def execRstModeReqTest (m : Master) (s : State) : Host.Outcome State Fault Refusal :=
  .next (s.ownerWrite m fun s =>
    if s.phase ≠ .service then s
    else if s.liveFlasks.isEmpty then { s with phase := .test }
    else { s with rst := { s.rst with refused := true } })

/-- RST_MODE_REQ_SERVICE: leaving test mode disarms a flip (R235). -/
def execRstModeReqService (m : Master) (s : State) : Host.Outcome State Fault Refusal :=
  .next (s.ownerWrite m fun s =>
    if s.phase ≠ .test then s else { s with phase := .service, mem := { s.mem with flip := none } })

/-- BIST_CTL_START (R510), with the `RETAIN`, `GRANULE` and `INDEX` that the registers hold. -/
def execBistCtlStart (m : Master) (s : State) : Host.Outcome State Fault Refusal :=
  .next (s.ownerWrite m fun s =>
    let ctl := s.reg Reg.bistCtl
    let i := (s.reg Reg.bistRegion).toNat
    let granule := ctl.getLsbD 2
    let retain := ctl.getLsbD 1
    let free := if granule then decide (i < 9536) && decide (s.mem.ownerOf i = 0x1FF) && !(s.granuleReserved i)
      else decide (i < 4096) && decide (s.mem.clusterOwnerOf (BitVec.ofNat 12 i) = 0x1FF)
    if s.rst.bist.isSome then s
    else if !free then s.bistStatus 0x00E2 false
    else if !retain && decide (s.phase = .service) then s.bistStatus 0x00E3 false
    else
      let s := { s with rst := { s.rst with bist := some ⟨granule, i, retain⟩ } }
      if retain then s
      else if granule then { s with mem := s.mem.clearGranule i }
      else { s with mem := s.mem.clearCluster (BitVec.ofNat 12 i) })

/-- RUN_TIME_BIST_DONE: a region that cannot be repaired stays out of the pool. -/
def execRunTimeBistDone (pass : Bool) (repairs : List Repair) (s : State) : Host.Outcome State Fault Refusal :=
  match s.rst.bist with
  | none => .next s
  | some b =>
    let st : Status := if pass then St.success else 0x00E1
    let tests := if b.granule then 4 else 3
    let ok := (s.reg Reg.bistResult).toNat % 2 ^ 8
    let ok := if pass then ok ||| tests else ok &&& (0xFF - tests)
    let s := { s.repairAll repairs with
      rst := { s.rst with bist := none, outOfPool := if pass then s.rst.outOfPool else (b.granule, b.index) :: s.rst.outOfPool } }
    .next (((s.setReg Reg.bistResult (BitVec.ofNat 32 (ok + min 0xFFFF repairs.length * 2 ^ 16))).bistStatus st true).postOwner 0x0B02 st 0xFFF
      (evData [b.index, st.toNat]))

/-- BIST_CTL_FUSE: in test mode the soft repairs become fuses (R509). -/
def execBistCtlFuse (m : Master) (s : State) : Host.Outcome State Fault Refusal :=
  .next (s.ownerWrite m fun s =>
    if s.phase ≠ .test then s else { s with mem := { s.mem with repairs := [], fused := s.mem.fused ++ s.mem.repairs } })

/-- A write of `MEM.FLIP_CTL` in service mode is refused and counted (R235). -/
def State.refuseFlip (s : State) : State :=
  let v := s.reg Reg.memFlipStat
  s.setReg Reg.memFlipStat (BitVec.ofNat 32 (v.toNat % 2 ^ 16 + min 0xFFFF (v.toNat / 2 ^ 16 + 1) * 2 ^ 16) ||| 4)

/-- The flip that the registers describe. -/
def State.armFlip (s : State) : State :=
  let hi := s.reg Reg.memFlipAddrHi
  let a := (s.reg Reg.memFlipAddrLo).toNat + hi.toNat % 2 ^ 16 * 2 ^ 32
  let t := (s.reg Reg.memFlipCtl).extractLsb' 1 3
  let mask := (s.reg Reg.memFlipMask0).toNat + (s.reg Reg.memFlipMask1).toNat * 2 ^ 32
  let x : Flip := ⟨t, (s.reg Reg.memFlipCtl).extractLsb' 4 2, if t = 2 then a / 64 * 64 + (if hi.getLsbD 16 then 32 else 0) else a, if t = 2 then mask % 2 ^ 36 else mask,
    (s.reg Reg.memFlipPat).extractLsb' 0 8, s.free⟩
  { s.took with mem := { s.mem with flip := some x } }

/-- MEM_FLIP_ARM. -/
def execMemFlipArm (m : Master) (s : State) : Host.Outcome State Fault Refusal :=
  .next (s.ownerWrite m fun s => if s.phase = .service then s.refuseFlip else s.armFlip)

end Sys2Proof.Machine
end

