-- ==== Sys2Proof/Machine/Background.lean ====
section
/-!
DEFINITION. Background work, telemetry, ceilings and performance counters (spec/18_background_and_counters.md, R516–R536).
-/

namespace Sys2Proof.Machine

/-! ### Fettling (R517–R519, R227) -/

/-- Fabric address of line i of a cluster's pass: its core stores, its cluster store, its control core's store. -/
def fettleLine (cl : ClusterId) (i : Nat) : Nat :=
  if i < 32768 then coreBase (BitVec.ofNat 20 (cl.toNat * 256 + i / 128)) + i % 128 * 64
  else if i < 36864 then clusterBase cl + (i - 32768) * 64
  else storeBase (.ccc cl) + (i - 36864) * 64

/-- A pass has found, or not found, a correctable error at a line; two passes in succession repair it (R227). -/
def State.fettled (s : State) (fa : Nat) (corrected : Bool) : State :=
  let l := fa / 64
  let before := s.mem.fettled.contains l
  let rest := s.mem.fettled.filter (· ≠ l)
  let s := { s with mem := { s.mem with fettled := if corrected && !before then l :: rest else rest } }
  if corrected && before then s.softRepair .fettle fa else s

/-- The same for the bit-column of the corrected bit; which of a word's 43 it is, the check tells and the model does not. -/
def State.fettledColumn (s : State) (fa pass : Nat) : State :=
  let b := s.free.toNat % 43
  let st := storeOf fa
  let before := s.mem.columns.contains (st, b, pass - 1) && decide (0 < pass)
  let rest := s.mem.columns.filter fun x => !(x.1 == st && x.2.1 == b)
  let s := s.took
  let s := { s with mem := { s.mem with columns := if before then rest else rest ++ [(st, b, pass)] } }
  if before then s.repair (.column fa b) else s

/-- FETTLE_SRAM_LINE: the next line of the cluster's pass; `ecc` is what the check of one of its words finds. -/
def execFettleSramLine (cl : ClusterId) (ecc : EccReport) (word : BitVec 4) (s : State) : Host.Outcome State Fault Refusal :=
  if !s.phase.serves || s.fw.down.contains (.cluster cl) then .next s
  else
    let i := Tab.get 0 s.bg.sramPos cl.toNat
    let fa := fettleLine cl i
    let pass := Tab.get 0 s.bg.sramPasses cl.toNat
    let last := decide (i + 1 = 37120)
    let s := { s with bg := { s.bg with
      sramPos := Tab.put 0 s.bg.sramPos cl.toNat (if last then 0 else i + 1)
      sramPasses := if last then Tab.put 0 s.bg.sramPasses cl.toNat (Tab.get 0 s.bg.sramPasses cl.toNat + 1) else s.bg.sramPasses } }
    if !(Tab.get false s.mem.sramValid (fa / 64)) then .next s
    else
      let found (k : Nat) : EccReport := if k = fa / 4 + word.toNat then ecc else .stored
      let ks := (List.range 16).map fun j => fa / 4 + j
      let fixed := ks.any fun k => match found k with
        | .correctable => true
        | .uncorrectable => false
        | _ => decide (s.mem.wordMark k = .correctable)
      let s := ks.foldl (fun s k =>
        if found k = .stored ∧ s.mem.wordMark k = .good then s else (s.readWord k .fettle (found k)).2.2) s
      let s := (s.clCount cl 0x0A 1).fettled fa fixed
      .next (if fixed then s.fettledColumn fa pass else s)

/-- A unit's place in its channel's pass: die offset ÷ 65,536. -/
def unitOrder (u : Nat) : Nat := u % 2 ^ 27 / 16

/-- FETTLE_LPDDR_UNIT: the next valid unit of the channel's pass; `ecc` is what the check of one of its codewords finds. Whether
a pass took longer than its 24 hours is free (R518). -/
def execFettleLpddrUnit (channel : BitVec 7) (ecc : EccReport) (codeword : BitVec 7) (s : State) :
    Host.Outcome State Fault Refusal :=
  let c := channel.toNat
  let pos := Tab.get 0 s.bg.lpPos c
  let here := (s.mem.lpValid.filter fun e => decide (pathOf (e.1 * 4096) = 2 ^ 50 + c) && decide (pos ≤ unitOrder e.1)).map Prod.fst
  let put (s : State) (n : Nat) : State := { s with bg := { s.bg with lpPos := Tab.put 0 s.bg.lpPos c n } }
  if !s.phase.serves then .next s
  else match here.find? fun u => here.all fun v => decide (unitOrder u ≤ unitOrder v) with
    | none =>
      let t := put { s with bg := { s.bg with lpPasses := Tab.put 0 s.bg.lpPasses c (Tab.get 0 s.bg.lpPasses c + 1) } } 0
      .next (if s.freeBit then t.took.postOwner 0x0C01 St.success 0xFFF (evData [2, c / 16]) else t.took)
    | some u =>
      let s := (put s (unitOrder u + 1)).hubCount 0x05 c 64
      let frozen := (Tab.get none s.mem.frozen (u / 16)).isSome
      let one (s : State) (i : Nat) : State :=
        let a := u * 4096 + 32 * i
        let r := if i = codeword.toNat then ecc else .stored
        let bad := s.mem.cw a = .correctable ∨ r = .correctable
        if s.mem.cw a = .poisoned then s.count Reg.memUeLpddr
        else
          let t := (s.readCw a 32 .fettle r).2.2
          if frozen && decide bad && decide (r ≠ .uncorrectable) then { t with mem := t.mem.setCw a .correctable } else t
      let hit (s : State) (i : Nat) : Bool := decide (i = codeword.toNat ∧ ecc ≠ .stored) || decide (s.mem.cw (u * 4096 + 32 * i) ≠ .good)
      .next ((List.range 64).foldl (fun s l =>
        let is := [2 * l, 2 * l + 1].filter (hit s)
        let fixed := is.any fun i => decide (s.mem.cw (u * 4096 + 32 * i) = .correctable) || (decide (i = codeword.toNat) && decide (ecc = .correctable))
        (is.foldl one s).fettled (u * 4096 + 64 * l) fixed) s)

/-! ### Calibration and wear (R520–R523) -/

/-- A retraining step of a channel. -/
def State.retrain (s : State) (c : Nat) (ok : Bool) : State :=
  let n := if ok then 0 else Tab.get 0 s.bg.calFails c + 1
  let s := ({ s with bg := { s.bg with calFails := Tab.put 0 s.bg.calFails c n } }).hubCount 0x0B c 1
  if n = 3 then s.postOwner 0x0C06 St.success 0xFFF (evData [c]) else s

/-- A copy of a frozen granule is under way at the channel: a granule has a unit in each channel of its die (R209). -/
def State.copyAt (s : State) (c : Nat) : Bool := s.mem.copying.any fun g => decide (granuleDie g = c / 16)

/-- LPDDR_CALIBRATION. -/
def execLpddrCalibration (channel : BitVec 7) (driftPct : BitVec 7) (stepOk : Bool) (s : State) : Host.Outcome State Fault Refusal :=
  if !s.phase.serves || s.copyAt channel.toNat || decide (driftPct.toNat ≤ 8) then .next s
  else .next (s.retrain channel.toNat stepOk)

/-- CALIBRATION_RETRY. -/
def execCalibrationRetry (channel : BitVec 7) (stepOk : Bool) (s : State) : Host.Outcome State Fault Refusal :=
  if !s.phase.serves || s.copyAt channel.toNat || decide (Tab.get 0 s.bg.calFails channel.toNat = 0) then .next s
  else .next (s.retrain channel.toNat stepOk)

/-- CALIBRATION_SAVE: the copy goes to the journal (R522); whether it erases the most worn sector, whether that leaves fewer
than four spare sectors, and how many, are free. -/
def execCalibrationSave (s : State) : Host.Outcome State Fault Refusal :=
  if !s.phase.serves || !s.free.getLsbD 0 then .next s.took
  else
    let v := s.free
    let n := s.bg.flashErases + 1
    let s := s.took
    if n < 90000 then .next { s with bg := { s.bg with flashErases := n } }
    else
      let s := { s with bg := { s.bg with flashErases := 90000, flashRetired := s.bg.flashRetired + 1 } }
      .next (if v.getLsbD 1 then s.postOwner 0x0C04 St.success 0xFFF (evData [v.toNat / 4 % 4]) else s)

/-- DRIVE_WEAR_CHECK: the drive's wear, and one deallocation of freed blocks below its foreground commands, while none is outstanding
there (R523). -/
def execDriveWearCheck (port : Port) (percentUsed : Byte) (s : State) : Host.Outcome State Fault Refusal :=
  let p := port.toNat
  let old := Tab.get 0 s.bg.wearSeen p
  let n := percentUsed.toNat
  if !s.phase.serves || !(s.drive port).ready then .next s
  else
    let s := { s with bg := { s.bg with wearSeen := Tab.put 0 s.bg.wearSeen p n } }
    let ev := leBytes 4 p ++ leBytes 4 n
    let s := if (old < 80 ∧ 80 ≤ n) ∨ (old < 100 ∧ 100 ≤ n) then
        (s.volFlasks port).foldl (fun s f => s.postFlask f 0x0705 St.success 0xFFF ev) (s.postOwner 0x0705 St.success 0xFFF ev)
      else s
    if (s.stor.cmds.any fun c => c.port == port) || (s.bg.trimBusy.any fun t => t.1 == port) || s.fenced then .next s
    else match s.bg.trims.find? fun t => t.1 == port with
      | none => .next s
      | some t =>
        let id := s.stor.nextId
        let s := s.emit (.drive port id .trim t.2.1 t.2.2 false)
        .next { s with bg := { s.bg with trims := s.bg.trims.erase t, trimBusy := s.bg.trimBusy ++ [(port, id)] }, stor := { s.stor with nextId := s.stor.nextId + 1 } }

/-! ### Ceilings and telemetry (R524–R526) -/

/-- A cluster's ceilings changed; its clock follows at once where it is above them (R14). -/
def State.setCeil (s : State) (cl : ClusterId) (f : Cluster → Cluster) : State :=
  let s := s.setCluster cl (f (s.cluster cl))
  let c := s.cluster cl
  s.setCluster cl { c with clock := min c.clock (s.ceiling cl) }

/-- CEILING_SET. -/
def execCeilingSet (h : CmdHdr) (flask mhz : BitVec 16) (s : State) : Host.Outcome State Fault Refusal :=
  s.command h (.ceilingSet h flask mhz) fun s => s.onFlask h flask fun f s =>
    let m := mhz.toNat
    let fl := s.flask f
    if m < 400 ∨ 1600 < m ∨ m % 50 ≠ 0 then s.done h St.malformed
    else if fl.st = .free then s.done h St.wrongState
    else
      let s := s.setFlask f { fl with ceil := m / 10 }
      (fl.clusters.foldl (fun s cl => s.setCeil cl fun c => { c with ceilOwner := m / 10 }) s).done h St.success

/-- The sensors (R525). -/
def isSensor (id : Nat) : Bool :=
  decide (id ≤ 8) || decide (0x10 ≤ id ∧ id ≤ 0x31) || decide (0x38 ≤ id ∧ id ≤ 0x3A)

/-- A PLDM threshold event goes to the receiver that has been set (R527). -/
def State.platformEvent (s : State) (id : Nat) (value : BitVec 16) : State :=
  if s.bg.eid = 0 ∨ s.fw.down.contains .management then s
  else s.emit (.mgmt ([s.bg.eid, 2, 0x0A, BitVec.ofNat 8 id] ++ leBytes 2 value.toNat))

/-- The last reading of the input power exceeds the budget (R24, R524). -/
def State.overBudget (s : State) : Bool :=
  decide (max 600 (min 2600 (s.reg Reg.telemBudget).toNat) < ((Tab.get none s.bg.sensors 0x3A).getD 0).toNat)

/-- The power core's ceilings. While the budget is exceeded, and on a die that has passed 100 °C, it only lowers them; where it has
lowered none and the budget is exceeded, it lowers every ceiling by 50 MHz (R24, R526; the step is a DESIGN CHOICE, log entry 104). -/
def State.powerCeilings (s : State) (id : Nat) (ceilings : List (ClusterId × Byte)) : State :=
  let down (cl : ClusterId) : Bool := s.overBudget || s.bg.warn.getLsbD (cl.toNat / 512)
  let want (x : ClusterId × Byte) : Nat := max 40 (min 160 x.2.toNat)
  let lowers := ceilings.any fun x => decide (want x < (s.cluster x.1).ceilPower)
  let t := ceilings.foldl (fun (t : State) x => t.setCeil x.1 fun c =>
    { c with ceilPower := if down x.1 then min c.ceilPower (want x) else want x }) s
  if id = 0x3A ∧ s.overBudget ∧ !lowers then
    (List.range 4096).foldl (fun (t : State) n => t.setCeil (BitVec.ofNat 12 n) fun c => { c with ceilPower := max 40 (c.ceilPower - 5) }) t
  else t

/-- TELEMETRY_SAMPLE: a reading, and the ceilings that the power core sets (R24, R524). A die that has passed 100 °C has its
ceilings lowered by 50 MHz at each sample until it is below 95 °C (R526). -/
def execTelemetrySample (id : Byte) (value : BitVec 16) (ceilings : List (ClusterId × Byte)) (s : State) :
    Host.Outcome State Fault Refusal :=
  if !s.phase.serves || s.fw.down.contains .power || !isSensor id.toNat then .next s
  else
    let s := { s with bg := { s.bg with sensors := Tab.put none s.bg.sensors id.toNat (some value) } }
    let s := s.powerCeilings id.toNat ceilings
    if 8 ≤ id.toNat then .next s
    else
      let d := id.toNat
      let bit := BitVec.ofNat 8 (2 ^ d)
      let warned := s.bg.warn.getLsbD d
      let hot := decide (value.toInt > 1000)
      let s := if hot && !warned then (s.postOwner 0x0C02 St.success 0xFFF (evData [d, value.toNat])).platformEvent d value else s
      if value.toInt < 950 then .next { s with bg := { s.bg with warn := s.bg.warn &&& ~~~bit } }
      else if hot || warned then
        let s := { s with bg := { s.bg with warn := s.bg.warn ||| bit } }
        .next ((dieClusters (BitVec.ofNat 3 d)).foldl (fun (s : State) cl =>
          s.setCeil cl fun c => { c with ceilPower := max 40 (c.ceilPower - 5) }) s)
      else .next s

/-- THERMAL_TRIP: hardware clamps every island of the die. -/
def execThermalTrip (die : Die) (s : State) : Host.Outcome State Fault Refusal :=
  if s.phase = .off ∨ s.bg.trip.getLsbD die.toNat then .next s
  else
    let s := { s with bg := { s.bg with trip := s.bg.trip ||| BitVec.ofNat 8 (2 ^ die.toNat) } }
    let s := (dieClusters die).foldl (fun (s : State) cl => s.setCluster cl { s.cluster cl with clock := 40 }) s
    .next (s.postOwner 0x0C03 St.success 0xFFF (evData [die.toNat]))

/-- THERMAL_TRIP_RELEASE: below 100 °C. -/
def execThermalTripRelease (die : Die) (s : State) : Host.Outcome State Fault Refusal :=
  .next { s with bg := { s.bg with trip := s.bg.trip &&& ~~~(BitVec.ofNat 8 (2 ^ die.toNat)) } }

/-! ### Performance counters (R528–R534) -/

/-- Core references first to last, or the logical clusters in their bits [19:8]. -/
def pmonRange (kind first last : Nat) : List Nat :=
  let upTo (a b : Nat) : List Nat := (List.range (b + 1 - a)).map fun i => a + i
  if kind = 0 then upTo (first % 2 ^ 20) (last % 2 ^ 20) else upTo (first / 256 % 4096) (last / 256 % 4096)

/-- The core that a reference names: of the ladle's flask, or for the owner of the module. -/
def State.pmCore (s : State) (l : LadleRef) (n : Nat) : Option CoreId :=
  match l with
  | .admin => some (BitVec.ofNat 20 n)
  | .flask f _ => coreRef s f n

def State.pmCluster (s : State) (l : LadleRef) (n : Nat) : Option ClusterId :=
  match l with
  | .admin => some (BitVec.ofNat 12 n)
  | .flask f _ => (s.flask f).clusters[n]?

/-- Cluster events that the model counts; the others count clocks, traffic on the way, or bank conflicts. -/
def countedCluster (e : Nat) : Bool := e == 0 || e == 2 || e == 3 || e == 6 || e == 7 || e == 8 || e == 0x0A

/-- Hub events that the model counts. -/
def countedHub (e : Nat) : Bool := e == 0 || e == 0x05 || e == 0x06 || e == 0x0A || e == 0x0B

def coreEvent (e : Nat) : Bool := decide (e ≤ 0x0B) || decide (0x10 ≤ e ∧ e ≤ 0x12) || decide (0x18 ≤ e ∧ e ≤ 0x1D)

/-- The form of a `PMON_CONFIG` (R529, R531, R533). -/
def pmonLegal (p : PmonP) : Bool :=
  let sample := p.flags.getLsbD 0
  decide (p.kind.toNat ≤ 1) && decide (p.counter.toNat < (if p.kind = 0 then 4 else 16)) && decide (p.flags.toNat < 4) &&
    (if p.kind = 0 then coreEvent p.event.toNat else decide (p.event.toNat ≤ 0x0A)) && decide (p.first.toNat ≤ p.last.toNat) &&
    (!sample || (decide (p.kind = 0) && decide (1024 ≤ p.period.toNat ∧ p.period.toNat ≤ 2 ^ 31) && decide (p.buffer.toNat % 16 = 0) &&
      decide (p.bufferBytes.toNat % 16 = 0) && decide (space p.buffer.toNat = 1 ∨ space p.buffer.toNat = 2)))

/-- PMON_CONFIG. -/
def execPmonConfig (h : CmdHdr) (p : PmonP) (s : State) : Host.Outcome State Fault Refusal :=
  s.command h (.pmonConfig h p) fun s =>
    let ns := pmonRange p.kind.toNat p.first.toNat p.last.toNat
    let flask := decide (h.ladle ≠ .admin)
    let inside := if p.kind = 0 then ns.all fun n => (s.pmCore h.ladle n).isSome else ns.all fun n => (s.pmCluster h.ladle n).isSome
    if !pmonLegal p then s.done h St.malformed
    else if (flask && decide (p.kind = 1 ∧ p.event = 4)) || !inside then s.done h St.accessFault
    else if flask && p.flags.getLsbD 0 && !inFlask s (ladleDom h.ladle) p.buffer.toNat p.bufferBytes.toNat then s.done h St.accessFault
    else
      let clear := p.flags.getLsbD 1
      let s := if p.kind = 0 then
          (ns.filterMap (s.pmCore h.ladle)).foldl (fun (s : State) c => s.modCore (.core c) fun k =>
            { k with pm := Vector.ofFn fun i => if i.val = p.counter.toNat then
                ⟨p.event, if clear then 0 else (k.pm[i]).count, p.flags, p.period, p.buffer, p.bufferBytes, 0, 0⟩ else k.pm[i] }) s
        else
          (ns.filterMap (s.pmCluster h.ladle)).foldl (fun (s : State) cl =>
            let i := cl.toNat * 16 + p.counter.toNat
            let old := Tab.get ⟨0, 0⟩ s.bg.clCtr i
            { s with bg := { s.bg with clCtr := Tab.put ⟨0, 0⟩ s.bg.clCtr i ⟨p.event, if clear then 0 else old.count⟩ } }) s
      s.done h St.success

/-- A core's counters and the time (R534). -/
def State.pmCoreBytes (s : State) (c : CoreId) : List Byte × State :=
  let r := (List.range 4).foldl (fun (r : List Byte × State) i =>
    let x := r.2.readPm (.core c) (BitVec.ofNat 2 i)
    (r.1 ++ Word.bytes x.1, x.2)) ([], s)
  let d := procDie (.core c)
  (r.1 ++ leBytes 8 (r.2.refNow d).toNat, r.2.tick d)

/-- A cluster's counters and the time. -/
def State.pmClusterBytes (s : State) (cl : ClusterId) : List Byte × State :=
  let r := (List.range 16).foldl (fun (r : List Byte × State) i =>
    let x := Tab.get ⟨0, 0⟩ r.2.bg.clCtr (cl.toNat * 16 + i)
    if countedCluster x.event.toNat then (r.1 ++ leBytes 8 x.count.toNat, r.2)
    else (r.1 ++ leBytes 8 (r.2.free.toNat % 2 ^ 48), r.2.took)) ([], s)
  let d := cl.toNat / 512
  (r.1 ++ leBytes 8 (r.2.refNow d).toNat, r.2.tick d)

/-- PMON_READ. -/
def execPmonRead (h : CmdHdr) (kind : Byte) (first last : Word) (dest : BitVec 64) (s : State) : Host.Outcome State Fault Refusal :=
  s.command h (.pmonRead h kind first last dest) fun s =>
    let ns := pmonRange kind.toNat first.toNat last.toNat
    let inside := if kind = 0 then ns.all fun n => (s.pmCore h.ladle n).isSome else ns.all fun n => (s.pmCluster h.ladle n).isSome
    if 1 < kind.toNat ∨ last.toNat < first.toNat then s.done h St.malformed
    else if !inside || !s.cmdRange h.ladle dest (ns.length * (if kind = 0 then 24 else 136)) then s.done h St.accessFault
    else
      let r : List Byte × State := if kind = 0 then
          (ns.filterMap (s.pmCore h.ladle)).foldl (fun r c => let x := r.2.pmCoreBytes c; (r.1 ++ x.1, x.2)) ([], s)
        else (ns.filterMap (s.pmCluster h.ladle)).foldl (fun r c => let x := r.2.pmClusterBytes c; (r.1 ++ x.1, x.2)) ([], s)
      let w := r.2.hubWrite (ladleDom h.ladle) .hub (cmdAddr h.ladle dest) r.1
      w.1.done h (match w.2 with
        | .ok => St.success
        | .outside => St.accessFault
        | .uncorrectable => St.uncorrectable)

/-- PMON_SAMPLE: the record of a counter that has reached its period, with `pc` the word index that the rule leaves to the
hardware; whether the ring is full, and whether a drop is posted at once, are free, since no rule names the reader's place. -/
def execPmonSample (c : CoreId) (counter : BitVec 2) (pc : BitVec 11) (s : State) : Host.Outcome State Fault Refusal :=
  let k := s.core (.core c)
  let m := k.pm[counter.toNat]'counter.isLt
  let put (s : State) (m : PmCounter) : State := s.modCore (.core c) fun k => { k with pm := k.pm.set counter.toNat m counter.isLt }
  if !m.flags.getLsbD 0 || s.fw.down.contains (.cluster (coreCluster c)) || k.flask.toNat ≥ 256 then .next s
  else
    let full := decide (m.bytes.toNat < 16) || s.freeBit
    let post := s.free.getLsbD 1
    let s := s.took
    if full then
      let n := m.lost + 1
      if post then
        .next ((put s { m with lost := 0 }).postCluster (coreCluster c) k.flask 0x0C05 St.success (evData [n.toNat]))
      else .next (put s { m with lost := n })
    else
      let v := s.readPm (.core c) counter
      let d := procDie (.core c)
      let bs := leBytes 4 (k.idx + counter.toNat * 2 ^ 20) ++ leBytes 4 pc.toNat ++ leBytes 4 (v.2.refNow d).toNat ++ Word.bytes v.1
      let s := (v.2.tick d).hubWrite k.flask .hub (m.buffer.toNat + m.next.toNat) bs
      .next (put s.1 { m with next := BitVec.ofNat 32 ((m.next.toNat + 16) % m.bytes.toNat) })

/-- The `LO` word of a hub counter; its `HI` word and the hub's time are latched (R534). -/
def State.hubLo (s : State) (i : Nat) : Word × State :=
  let c := Tab.get ⟨0, 0⟩ s.bg.hubCtr i
  let counted := countedHub ((s.reg (Reg.pmonHubSel + 4 * i)).toNat % 256)
  let v : BitVec 48 := if counted then c.count else s.free.extractLsb' 0 48
  let s := if counted then s else s.took
  (v.extractLsb' 0 32, { s with bg := { s.bg with hubHi := Tab.put 0 s.bg.hubHi i (v.extractLsb' 32 16), lastRef := s.refNow 8 } }.tick 8)

/-- PMON_HUB_LO_READ. -/
def execPmonHubLoRead (i : BitVec 6) (s : State) : Host.Outcome State Fault Refusal :=
  let r := s.hubLo i.toNat
  .next (r.2.emit (.counter i.toNat r.1))

end Sys2Proof.Machine
end

