-- ==== Sys2Proof/Machine/Twin.lean ====
section
/-!
DEFINITION. Twin pairs: pairing, policy, heartbeat and confirmation, declaration, takeover, restarts, fencing
(spec/15_twins.md, R458–R477).
-/

namespace Sys2Proof.Machine

namespace TwSt
def linkDown : Status := 0x00C0
def credential : Status := 0x00C1
def notPaired : Status := 0x00C2
end TwSt

def State.setTwin (s : State) (t : Twin) : State := { s with twin := t }

/-- What a hello tells of the module (R459, R472–R474). -/
def Twin.peerSt (t : Twin) : PeerSt :=
  match t.st with
  | .pairing => .pairing
  | .joining => .joining
  | .survivor => if t.readmitTag.isSome then .readmitting else .survivor
  | .fenced => .fenced
  | _ => .serving

def State.hello (s : State) : State := if s.twin.st = .unpaired then s else s.twinSend (.hello s.pubKey s.twin.peerSt)

/-- The twin-window reads that wait end with an error response (R457). -/
def State.dropWindow (s : State) : State :=
  { s with
    fab := { s.fab with reps := s.fab.reps ++ s.twin.reads.map fun r => r.reply .bus }
    twin := { s.twin with reads := [] } }

/-! ### Pairing (R458–R461) -/

/-- The link cannot train: no cable, or a failed lane (R508, R548). -/
def State.twinDead (s : State) : Bool := !s.twin.cable || s.laneBad 8

/-- The checks of a credential that need no key, in order (R459). -/
def pairBad (me c : List Byte) : Option Status :=
  let kind := fieldAt c 4 1
  let key := fieldAt c 5 1
  if fieldAt c 0 4 ≠ 0x52504C4F || decide (1 < kind) || decide (key ≥ (if kind = 0 then 1 else 16)) || !zerosAt c 6 8 || !zerosAt c 0x78 0x80 then
    some St.malformed
  else if (c.drop 8).take 16 ≠ me ∧ (c.drop 0x18).take 16 ≠ me then some SecSt.keyScope
  else none

/-- Whether this module is the credential's B. -/
def pairRoleB (me c : List Byte) : Bool := decide ((c.drop 8).take 16 ≠ me)

/-- Whether a credential's signature verifies: by the Haldop root key, or by the owner's key that it names (R458). -/
def State.pairSigned (s : State) (c : List Byte) : Bool :=
  let key := if fieldAt c 4 1 = 0 then some (Config.rootKey 0) else s.mouldKey (fieldAt c 5 1)
  match key with
  | none => false
  | some k => Config.edVerify k (sha512 (c.take 0x80)) (BitVec.ofNat 512 (fieldAt c 0x80 64))

/-- K_P out of the module's own wrap, under the provisioning key or the device unlock key (R458). -/
def State.pairKey (s : State) (c : List Byte) : Option (BitVec 256) :=
  let wrap := (c.drop (if pairRoleB s.ident c then 0x50 else 0x28)).take 40
  if fieldAt c 4 1 = 0 then unwrap256 s.dpk wrap else s.sec.duk.bind fun k => unwrap256 k wrap

/-- PAIRING: the link trains and a hello goes out under epoch 1. -/
def State.beginPair (s : State) (tag : Word) (roleB : Bool) (peer : List Byte) (kp : BitVec 256) : State :=
  let s := (List.range 4).foldl (fun s i => s.setReg (Reg.twinPeerId + 4 * i) (BitVec.ofNat 32 (fieldAt peer (4 * i) 4))) s
  (s.setTwin { Twin.reset with
    st := .pairing, roleB := roleB, link := true, lanes := 0xFFFF, cable := s.twin.cable, kp := some kp, pairTag := some tag }).hello

/-- The end of the checks of a credential: its signature, K_P, and whether the link trains. -/
def State.pairEnd (s : State) (h : CmdHdr) (roleB : Bool) (peer : List Byte) (sigOk : Bool) (kp : Option (BitVec 256))
    (linkTrains : Bool) : State :=
  if !sigOk then s.done h St.badSignature
  else match kp with
    | none => s.done h SecSt.unwrapFailed
    | some k => if !linkTrains || s.twinDead then s.done h TwSt.linkDown else s.beginPair h.tag roleB peer k

/-- TWIN_PAIR; `linkTrains` says whether the link comes up. -/
def execTwinPair (h : CmdHdr) (offset : Word) (linkTrains : Bool) (s : State) : Host.Outcome State Fault Refusal :=
  s.command h (.twinPair h offset linkTrains) fun s =>
    if s.twin.st ≠ .unpaired then s.done h St.wrongState
    else if 2 ^ 28 < offset.toNat + 192 then s.done h St.malformed
    else
      let r := s.hubRead 0x100 .hub (stagingBase + offset.toNat) 192
      if r.2.2 ≠ .ok then r.2.1.done h St.uncorrectable
      else match pairBad s.ident r.1 with
        | some st => r.2.1.done h st
        | none =>
          let b := pairRoleB s.ident r.1
          r.2.1.pairEnd h b ((r.1.drop (if b then 8 else 0x18)).take 16) (s.pairSigned r.1) (s.pairKey r.1) linkTrains

/-- The module is UNPAIRED: K_P, the epoch and the mirrored copy are gone, and the link is idle. -/
def State.unpair (s : State) : State :=
  let s := s.dropWindow
  s.setTwin { Twin.reset with cable := s.twin.cable }

/-- A pairing that fails ends its command, and the module is UNPAIRED again (R459, R475). -/
def State.failPair (s : State) (st : Status) : State :=
  match s.twin.pairTag with
  | none => s
  | some t => (s.unpair).complete .admin t st 0 []

/-- TWIN_UNPAIR: a pairing or readmission under way ends as aborted. -/
def execTwinUnpair (h : CmdHdr) (s : State) : Host.Outcome State Fault Refusal :=
  s.command h (.twinUnpair h) fun s =>
    if s.twin.st = .unpaired then s.done h St.wrongState
    else
      let tags := s.twin.pairTag.toList ++ s.twin.readmitTag.toList
      (tags.foldl (fun s t => s.complete .admin t St.aborted 0 []) s.unpair).done h St.success

/-- TWIN_POLICY. -/
def execTwinPolicy (h : CmdHdr) (p : TwinPolicyP) (s : State) : Host.Outcome State Fault Refusal :=
  s.command h (.twinPolicy h p) fun s =>
    if s.twin.st = .unpaired then s.done h TwSt.notPaired
    else s.onFlask h p.flask fun f s =>
      let fl := s.flask f
      if 2 < p.host.toNat ∨ (512 ≤ p.keySlot.toNat ∧ p.keySlot ≠ 0xFFFF) ∨ (16 ≤ p.area.toNat ∧ p.area ≠ 0xFF) then s.done h St.malformed
      else if fl.st = .free then s.done h St.wrongState
      else ((s.setFlask f { fl with policy := some p }).mirrorNow (.flask f)).done h St.success

/-- TWIN_READMIT: the survivor asks the fenced peer in; its hellos settle the rest (R474). -/
def execTwinReadmit (h : CmdHdr) (s : State) : Host.Outcome State Fault Refusal :=
  s.command h (.twinReadmit h) fun s =>
    if s.twin.st = .unpaired then s.done h TwSt.notPaired
    else if s.twin.st ≠ .survivor ∨ s.twin.peer ≠ some .fenced ∨ !s.twin.link ∨ s.twin.readmitTag.isSome then s.done h St.wrongState
    else (s.setTwin { s.twin with readmitTag := some h.tag }).hello

/-! ### Fencing (R471, R472) -/

/-- The module enters FENCED. -/
def State.enterFenced (s : State) : State :=
  let s := s.dropWindow
  let pair := s.twin.pairTag.toList ++ s.twin.readmitTag.toList
  let s := s.setTwin { s.twin with st := .fenced, restarts := [], pairTag := none, readmitTag := none }
  let s := pair.foldl (fun s t => s.complete .admin t St.fenced 0 []) s
  let s := s.liveFlasks.foldl State.haltCores s
  let s := s.ing.takes.foldl (fun s t => s.endTake t St.fenced) s
  (s.postOwner 0x0909 St.success 0xFFF []).emit (.mgmt (leBytes 2 0x0909))

/-! ### Declaration and takeover (R465–R470) -/

/-- The next pair epoch: 0 is skipped. -/
def nextEpoch (e : Word) : Word := if e + 1 = 0 then 1 else e + 1

/-- A rule's ports renamed through `TWIN.TAKEOVER`; a rule with none left is not in use (R468). -/
def State.remapRule (s : State) (ws : List Word) : List Word :=
  match ws with
  | [] => []
  | w :: rest =>
    let mask := ((bitsSet 8 w).filter fun p => (s.reg (Reg.twinTakeover + 4 * p)).getLsbD 3).foldl
      (fun m p => m ||| 2 ^ ((s.reg (Reg.twinTakeover + 4 * p)).toNat % 8)) 0
    let keep := w.toNat / 256 * 256
    (if mask = 0 then BitVec.ofNat 32 keep &&& ~~~(0x100 : Word) else BitVec.ofNat 32 (keep + mask)) :: rest

/-- Rules written from a place on. -/
def State.putRules (s : State) (base : Nat) (rs : List (List Word)) : State :=
  { s with net := { s.net with rules := (rs.zipIdx).foldl (fun t r =>
      (r.1.zipIdx).foldl (fun t w => Tab.put 0 t (16 * (base + r.2) + w.2) w.1) t) s.net.rules } }

/-- What the peer has mirrored of its network identity is taken over (R468). -/
def State.takeOver (s : State) : State :=
  let macs := s.twin.mirror.filterMap fun x => match x with
    | .mac p v => if (s.reg (Reg.twinTakeover + 4 * p.toNat)).getLsbD 3 then
        some ((s.reg (Reg.twinTakeover + 4 * p.toNat)).toNat % 8, v) else none
    | _ => none
  let s := macs.foldl (fun (s : State) x =>
    (s.setReg (Reg.netPnMacLo + 256 * x.1) (x.2.extractLsb' 0 32)).setReg (Reg.netPnMacHi + 256 * x.1) (BitVec.ofNat 32 (x.2.toNat / 2 ^ 32))) s
  let r := s.reg Reg.twinRulesIn
  let base := bits r.toNat 12 0
  let rules := (s.twin.mirror.flatMap fun x => match x with
    | .rules rs => rs
    | _ => []).take (min (bits r.toNat 29 16) (8192 - base))
  let s := s.putRules base (rules.map s.remapRule)
  let ips := s.twin.mirror.flatMap fun x => match x with
    | .srcIp _ a => a
    | _ => []
  let into := bitsSet 16 ((s.reg Reg.twinSrcip) >>> 16)
  let s := (into.zip ips).foldl (fun (s : State) x => ((x.2.take 4).zipIdx).foldl (fun s w => s.setReg (Reg.xportSrcIp + 16 * x.1 + 4 * w.2) w.1) s) s
  let ports := macs.foldl (fun m x => m ||| 2 ^ x.1) 0
  s.postOwner 0x0906 St.success 0xFFF (evData [ports])

/-- The peer's queue pairs that are free here are recreated in error, without a flask (R460, R469). -/
def State.takeQps (s : State) : State :=
  let theirs (n : Nat) : Bool := if s.twin.roleB then decide (n < 131072) else decide (131072 ≤ n ∧ n < 262144)
  s.twin.mirror.foldl (fun s x => match x with
    | .qp n _ true p cc =>
      let q : Qp := { Qp.reset with st := .error, conn := p, cc := cc, ccNext := cc }
      if theirs n && decide ((s.qp n).st = .free) && !q.roce then
        s.setQp n q
      else s
    | _ => s) s

/-- The peer's flasks to restart, highest priority first, ties to the lower number (R470). -/
def State.restartList (s : State) : List FlaskId :=
  let fs := s.twin.mirror.filterMap fun x => match x with
    | .flask f true _ _ (some p) => if p.priority = 0 then none else some (p.priority.toNat * 256 + (255 - f.toNat))
    | _ => none
  (fs.mergeSort (fun a b => decide (b ≤ a))).map fun k => BitVec.ofNat 8 (255 - k % 256)

/-- The peer is declared dead (R466). -/
def State.declare (s : State) : State :=
  let s := s.dropWindow
  let s := s.setTwin { s.twin with st := .survivor, epoch := nextEpoch s.twin.epoch, seqOut := 0, peer := none }
  let s := ((s.writeTrip .pairEpoch).setReg Reg.twinDeclares (s.reg Reg.twinDeclares + 1)).postOwner 0x0905 St.success 0xFFF []
  let s := s.takeOver.takeQps
  s.setTwin { s.twin with restarts := s.restartList }

/-- The states in which the module asks for, and accepts, a confirmation (R465, R467, R472). -/
def TwinSt.asks : TwinSt → Bool
  | .suspect | .split | .joining => true
  | _ => false

/-- TWIN_CONFIRM: only MGMT confirms, by the low word of the peer's identity. -/
def execTwinConfirm (m : Master) (id : Word) (s : State) : Host.Outcome State Fault Refusal :=
  if !s.phase.serves then .next s
  else if m ≠ .mgmt then .next (if s.isOwner m then s else s.observed m)
  else if s.twin.st.asks && id == s.reg Reg.twinPeerId then .next s.declare
  else .next s

/-- TWIN_MGMT_ANSWER. -/
def execTwinMgmtAnswer (a : MgmtAnswer) (s : State) : Host.Outcome State Fault Refusal :=
  if !s.phase.serves || !s.twin.st.asks || s.fw.down.contains .management then .next s
  else match a with
    | .inService survivor =>
      if s.twin.st = .suspect then .next ((s.setTwin { s.twin with st := .split }).postOwner 0x0904 St.success 0xFFF [])
      else if s.twin.st = .joining ∧ survivor then .next s.enterFenced
      else .next s
    | _ => .next s.declare

/-- TWIN_MGMT_QUERY: message type 0x7E, first byte 0x10, to `TWIN.PEER_EID`. -/
def execTwinMgmtQuery (s : State) : Host.Outcome State Fault Refusal :=
  if !s.phase.serves || !s.twin.st.asks || s.fw.down.contains .management then .next s
  else .next (s.emit (.mgmt [BitVec.ofNat 8 (s.reg Reg.twinPeerEid).toNat, 0x7E, 0x10]))

def phaseCode : Phase → Byte
  | .service => 0
  | .startUp => 1
  | .test => 2
  | .recovery => 3
  | .coldShut => 4
  | .off => 5

def twinCode : TwinSt → Byte
  | .unpaired => 0
  | .pairing => 1
  | .joining => 2
  | .paired => 3
  | .suspect => 4
  | .split => 5
  | .survivor => 6
  | .fenced => 7

/-- PEER_MANAGEMENT_QUERY: the answer tells the module's mode, its pair state and whether its scheduler core runs; the
manual lays no bytes out. -/
def execPeerManagementQuery (s : State) : Host.Outcome State Fault Refusal :=
  if s.phase = .off ∨ s.fw.down.contains .management then .next s
  else .next (s.emit (.mgmt [0x7E, 0x10, phaseCode s.phase, twinCode s.twin.st, if s.fw.down.contains .scheduler then 0 else 1]))

/-- TWIN_PULSE_LAPSE: no valid message for 50 ms (R464). -/
def execTwinPulseLapse (s : State) : Host.Outcome State Fault Refusal :=
  if s.twin.st ≠ .paired then .next s
  else .next ((s.setTwin { s.twin with st := .suspect }).postOwner 0x0902 St.success 0xFFF [])

/-- TWIN_UNCONFIRMED_TICK. -/
def execTwinUnconfirmedTick (s : State) : Host.Outcome State Fault Refusal :=
  .next (if s.twin.st = .suspect then s.postOwner 0x0903 St.success 0xFFF [] else s)

/-- TWIN_HEARTBEAT_SEND: in PAIRED while the scheduler core is current, or an activation runs; a FENCED module's carry its
epoch (R464, R471). A breakout stops the link's cipher (R444). -/
def execTwinHeartbeatSend (s : State) : Host.Outcome State Fault Refusal :=
  let current := !s.fw.down.contains .scheduler || s.fw.act.isSome
  .next (if (s.twin.st = .paired ∨ s.twin.st = .fenced) ∧ current ∧ !s.breakout then s.twinSend .heartbeat else s)

/-- MIRROR_SEND. -/
def execMirrorSend (item : MirrorSel) (s : State) : Host.Outcome State Fault Refusal := .next (if s.breakout then s else s.mirrorNow item)

/-- The link is lost (R475). -/
def State.twinDown (s : State) : State :=
  let s := (s.setTwin { s.twin with link := false, lanes := 0 }).dropWindow
  s.failPair St.timeout

/-- TWIN_LINK_CHANGE: a paired module's link trains, and a hello goes out; or it is lost. -/
def execTwinLinkChange (up : Bool) (s : State) : Host.Outcome State Fault Refusal :=
  if !s.phase.serves then .next s
  else if !up then .next s.twinDown
  else if s.twin.st = .unpaired || s.twinDead then .next s
  else .next (s.setTwin { s.twin with link := true, lanes := 0xFFFF }).hello

/-- TWIN_CABLE_PRESENCE: removing the cable acts as link loss (R548). -/
def execTwinCablePresence (present : Bool) (s : State) : Host.Outcome State Fault Refusal :=
  let s := s.setTwin { s.twin with cable := present }
  .next (if present then s else s.twinDown)

/-! ### Restarts (R470) -/

/-- What a restart finds missing: 1 a flask ID, 2 quotas, 3 granules, 4 clusters, 5 KEY. -/
inductive Lack where
  | id | quotas | granules | clusters | key
  deriving DecidableEq, Repr

def Lack.code : Lack → Nat
  | .id => 1
  | .quotas => 2
  | .granules => 3
  | .clusters => 4
  | .key => 5

/-- What the peer has mirrored of one of its flasks. -/
structure Mirrored where
  p : CreateP
  ladles : List LadleP
  policy : TwinPolicyP
  key : Bool
  moulds : List (List Byte)
  rot : BitVec 3
  setup : Option (IngotSetupP × Option (List Byte))

def State.mirrored (s : State) (f : FlaskId) : Option Mirrored :=
  let head := s.twin.mirror.findSome? fun x => match x with
    | .flask g true p ls (some y) => if g = f then some (p, ls, y) else none
    | _ => none
  let m := s.twin.mirror.findSome? fun x => match x with
    | .moulds g raw r _ => if g = f then some (raw, r) else none
    | _ => none
  let setup := s.twin.mirror.findSome? fun x => match x with
    | .setup g (some y) k => if g = f then some (y, k) else none
    | _ => none
  head.map fun h => ⟨h.1, h.2.1, h.2.2, (s.peerKey f).isSome, (m.map (·.1)).getD [], (m.map (·.2)).getD 0, setup⟩

/-- The mirrored moulds cast in order, at the recorded rotation; or what is not free. -/
def State.recast (s : State) (f : FlaskId) (r : Nat) : List (List Byte) → Except Lack State
  | [] => .ok s
  | raw :: rest =>
    let c := Container.read raw
    let fl := s.flask f
    let dies := c.newGranuleDies fl r
    if !((List.range 8).all fun d => decide (dies.countP (· == d) ≤ (s.freeGranules d).length)) then .error .granules
    else if !(c.newClusters.all fun p => s.clusterFree (p.cluster r)) then .error .clusters
    else State.recast (if c.isPartial then s.castPartial f c r else s.castFull f c r) f r rest

/-- The slot and area that a restart with ingots needs; none where the policy names none that fits. -/
def State.restartKey (s : State) (m : Mirrored) : Option Lack :=
  if !m.key then some .key
  else match m.setup with
    | none => none
    | some (_, none) => some .key
    | some (_, some _) =>
      let k := m.policy.keySlot.toNat
      let own := ((s.area m.policy.area.toNat).map fun (a : Area) => !a.peer).getD false
      if k < 512 ∧ (s.slot k).assigned = 0x100 ∧ own = true then none else some .key

/-- The ingot key loaded, the setup made, and the newest complete ingot of the flask restored (steps 4 and 5). -/
def State.restartIngot (s : State) (f old : FlaskId) (m : Mirrored) (data : Option IngotData) : State :=
  match m.setup with
  | some (p, some k) =>
    let s := s.setSlot m.policy.keySlot.toNat ⟨1, 2, 0x100, 0, k⟩
    match s.trySetup f { p with flask := f.setWidth 16, keySlot := m.policy.keySlot, area := m.policy.area, peerArea := 0xFF } with
    | .error _ => s
    | .ok s => (s.restoreFrom f true old 0 none data).2
  | _ => s

/-- A flask created for one of the peer's, with the mirrored key in place of a new one (R470 step 1). -/
def State.newKeyed (s : State) (f old : FlaskId) (p : CreateP) : State :=
  let s := s.newFlask f p
  s.setFlask f { s.flask f with key := s.peerKey old }

/-- A flask of the peer is restarted, or the first condition that fails. -/
def State.restart (s : State) (old : FlaskId) (m : Mirrored) (data : Option IngotData) : Except Lack (FlaskId × State) :=
  match s.freeFlask with
  | none => .error .id
  | some f =>
    let host := m.policy.host
    let p := { m.p with flask := f.setWidth 16, host := host, vectors := if host = 2 then 0 else m.p.vectors }
    if !s.quotasFit p then .error .quotas
    else match (s.newKeyed f old p).recast f m.rot.toNat m.moulds with
      | .error e => .error e
      | .ok s => match s.restartKey m with
        | some e => .error e
        | none =>
          let s := m.ladles.foldl (fun s l => s.setupLadle f (BitVec.ofNat 4 l.ladle.toNat) l) s
          let s := s.twin.mirror.foldl (fun (s : State) x => match x with
            | .qp n g _ _ _ => if g = flaskDom old ∧ (s.qp n).flask = 0x1FF ∧ (s.qp n).st = .error then
                s.setQp n { s.qp n with flask := flaskDom f } else s
            | _ => s) s
          .ok (f, s.restartIngot f old m data)

/-- TWIN_FLASK_RESTART: the next flask of the list; `data` is what the drive holds of its ingot. Restarts wait while a
level-1 breakout holds (R475). -/
def execTwinFlaskRestart (data : Option IngotData) (s : State) : Host.Outcome State Fault Refusal :=
  match s.twin.restarts with
  | [] => .next s
  | old :: rest =>
    if s.twin.st ≠ .survivor ∨ !s.phase.serves ∨ s.fw.down.contains .scheduler ∨ s.fw.act.isSome ∨ (s.breakout ∧ s.boLevel = 1) then .next s
    else
      let s := s.setTwin { s.twin with restarts := rest }
      let skip (e : Lack) : State := s.postOwner 0x0908 St.success 0xFFF (evData [old.toNat, e.code])
      match s.mirrored old with
      | none => .next s
      | some m => match s.restart old m data with
        | .error e => .next (skip e)
        | .ok x => .next (x.2.postOwner 0x0907 St.success 0xFFF (evData [old.toNat, x.1.toNat]))

end Sys2Proof.Machine
end

