-- ==== Sys2Proof/Machine/Firmware.lean ====
section
/-!
DEFINITION. The firmware processors: the operations of `sys` (R312), staging and activation of firmware (R315, R336–R338), and
what follows when a processor fails (R339).
-/

namespace Sys2Proof.Machine

/-! ### sys (R312) -/

/-- `SOURCE` of a processor's log records (R334). -/
def procSource : Proc → Nat
  | .hub k => k.toNat
  | _ => 4

/-- A firmware operation: `PRIV` on a flask core (R94), `ILLEGAL` for imm[3:0] above 7. -/
def State.sysOp (s : State) (p : Proc) (f : SysF) (body : State → Body) : State :=
  s.issue p f.cond (procIsCore p || decide (f.imm.toNat % 16 < 8)) .next fun s =>
    if procIsCore p then .trap s (trapOf Vec.priv) else body s

/-- 0x0: the entry in the processor's cluster store, for the flask of the cluster or for the owner. The hub's processors have
no cluster store: the access gets the error response. -/
def sysPostEventBody (p : Proc) (f : SysF) (s : State) : Body :=
  withInt p f s fun off =>
    match p with
    | .ccc cl =>
      if off.toNat % 4 ≠ 0 then .trap s { trapOf Vec.align with eaddr := off }
      else if 262144 < off.toNat + 64 then .trap s { trapOf Vec.bus with eaddr := off }
      else
        let r := s.hubRead 0x100 .core (clusterBase cl + off.toNat) 64
        if r.2.2 ≠ .ok then .trap r.2.1 { trapOf Vec.ecc with eaddr := off }
        else
          let e := r.1
          .ok (r.2.1.postCluster cl (r.2.1.mem.clusterOwnerOf cl) (BitVec.ofNat 16 (fieldAt e 14 2)) (BitVec.ofNat 16 (fieldAt e 4 2))
            ((e.drop 16).take 48))
    | _ => .trap s { trapOf Vec.bus with eaddr := off }

def execSysPostEvent (p : Proc) (f : SysF) (s : State) : Host.Outcome State Fault Refusal :=
  .next (s.sysOp p f (sysPostEventBody p f))

/-- The descriptor that four words lay out (R100). -/
def descOf (w0 w1 w2 w3 : Word) : Desc :=
  { base := BitVec.ofNat 48 (w0.toNat / 64 * 64 + w1.toNat % 2 ^ 16 * 2 ^ 32), lines := w2
    pr := w3.getLsbD 0, pw := w3.getLsbD 1, px := w3.getLsbD 2, pa := w3.getLsbD 3, deftag := w3.extractLsb' 4 4
    flask := w3.extractLsb' 16 9 }

/-- 0x3, on cluster control cores only; `ra` is the core number. A descriptor outside the flask domains is none of a flask
core's (R102), and is not written. -/
def sysWriteDescriptorBody (p : Proc) (f : SysF) (s : State) : Body :=
  withInt p f s fun n =>
    match p with
    | .ccc cl =>
      let c : CoreId := BitVec.ofNat 20 n.toNat
      let k := s.core p
      let d := descOf (k.reg 8).payload (k.reg 9).payload (k.reg 10).payload (k.reg 11).payload
      if 2 ^ 20 ≤ n.toNat ∨ coreCluster c ≠ cl then .trap s { trapOf Vec.access with eaddr := n }
      else if 256 ≤ d.flask.toNat then .ok s
      else .ok (s.modCore (.core c) fun x => { x with a := { x.a with sg := x.a.sg.set (f.rd.toNat % 8) d (by omega) } })
    | _ => .trap s (trapOf Vec.priv)

def execSysWriteDescriptor (p : Proc) (f : SysF) (s : State) : Host.Outcome State Fault Refusal :=
  .next (s.sysOp p f (sysWriteDescriptorBody p f))

/-- A core stopped, released or probed. A core that has stopped stays so until a flask reset or a partial cast (R115), and one that
was declared failed stays fenced (R196). A core that is released looks again at what it waited for. -/
def State.control (s : State) (c : CoreId) (action : Nat) : State :=
  let k := s.core (.core c)
  if k.failed then s
  else if action = 0 ∧ k.run = .running then s.setCore (.core c) { k with run := .held }
  else if action = 1 ∧ k.run = .held ∧ k.hasImage then (s.setCore (.core c) { k with run := .running }).rerun (.core c)
  else s

/-- 0x4: how `ra` tells the three actions apart, and how rd tells the state, the manual does not say. -/
def sysCoreControlBody (p : Proc) (f : SysF) (s : State) : Body :=
  withInt p f s fun n =>
    let v := s.free.extractLsb' 0 32
    giveInt p f (s.took.took.control (BitVec.ofNat 20 n.toNat) (s.took.free.toNat % 3)) v

def execSysCoreControl (p : Proc) (f : SysF) (s : State) : Host.Outcome State Fault Refusal :=
  .next (s.sysOp p f (sysCoreControlBody p f))

/-- 0x5: the heartbeat is written; only its absence does anything (R310). -/
def execSysHeartbeat (p : Proc) (f : SysF) (s : State) : Host.Outcome State Fault Refusal :=
  .next (s.sysOp p f fun s => .ok s)

/-- 0x6: the tap whose number is in ra (R335). -/
def execSysTapRecord (p : Proc) (f : SysF) (s : State) : Host.Outcome State Fault Refusal :=
  .next (s.sysOp p f fun s => withInt p f s fun n =>
    .ok (if n.toNat < 32 then s.tapBy (procSource p) (procCluster p) n.toNat 0x100 else s))

/-- 0x7. -/
def execSysWait (p : Proc) (f : SysF) (s : State) : Host.Outcome State Fault Refusal :=
  .next (s.sysOp p f fun s => if (s.core p).a.timers.pending then .ok s else .wait s (waitFor (.sysWait p f)))

/-! ### Staging and activation (R315, R336–R338) -/

/-- The image goes into the inactive bank, and is checked as ROM checks it; `signed` says what verifying a signature gives. -/
def State.performStageAs (s : State) (tag : Word) (offset length : Word) (signed : List Byte → Bool) : State :=
  if offset.toNat % 4096 ≠ 0 ∨ 2 ^ 28 < offset.toNat + length.toNat ∨ 234881024 < length.toNat then s.complete .admin tag St.malformed 0 []
  else
    let r := s.hubRead 0x100 .hub (stagingBase + offset.toNat) length.toNat
    let s := r.2.1
    let st := if r.2.2 ≠ .ok then St.uncorrectable else imageCheck r.1 s.fw.secver (signed r.1)
    let good := decide (st = St.success)
    ({ s with fw := { s.fw with other := if good then some (imageHdr r.1) else none, staged := good } }).complete .admin tag st 0 []

/-- The signature is verified under the root key that the image names (R315). -/
def State.performStage (s : State) (tag : Word) (offset length : Word) : State := s.performStageAs tag offset length imageSigned

/-- FW_STAGE, in its turn among the casts (R27). -/
def execFwStage (h : CmdHdr) (offset length : Word) (s : State) : Host.Outcome State Fault Refusal :=
  s.command h (.fwStage h offset length) fun s =>
    if !s.fw.waiting.isEmpty then s.queueCast h.tag else s.performStage h.tag offset length

/-- QUEUED_CAST_START: the head of the queue, once it can be performed; a breakout ends a cast (R64). -/
def execQueuedCastStart (s : State) : Host.Outcome State Fault Refusal :=
  match s.fw.waiting with
  | [] => .next s
  | t :: rest =>
    if !s.phase.serves || s.fw.down.contains .scheduler then .next s
    else
      let popped (s : State) : State := { s with fw := { s.fw with waiting := rest } }
      match (s.fw.admin.cmds.find? fun (c : Cmd) => decide (c.tag = t)).map Cmd.instr with
      | some (Instr.cast _ flask env) =>
        if s.breakout then
          let f := if flask.toNat < 256 then some (BitVec.ofNat 8 flask.toNat) else none
          .next ((popped s).castDone t f St.aborted nowhere)
        else
          let r := (popped s).performCast t flask env
          .next (if r.2 then { r.1 with fw := { r.1.fw with waiting := t :: r.1.fw.waiting } } else r.1)
      | some (Instr.fwStage _ offset length) => 
        if s.breakout || s.fw.down.contains .security then .next s else .next ((popped s).performStage t offset length)
      | _ => .next (popped s)

/-- FW_ACTIVATE: step 1's checks; then commands drain. -/
def execFwActivate (h : CmdHdr) (drainMs flags : Word) (s : State) : Host.Outcome State Fault Refusal :=
  s.command h (.fwActivate h drainMs flags) fun s =>
    if s.breakout then s.done h St.wrongState
    else if 2 ≤ flags.toNat then s.done h St.malformed
    else match (if s.fw.staged then s.fw.other else none) with
      | none => s.done h St.imageIncompatible
      | some i =>
        let run := s.fw.running.handMax.toNat
        if !(decide (i.handMin.toNat ≤ run) && decide (run ≤ i.handMax.toNat)) then s.done h St.imageIncompatible
        else if i.secver.toNat < s.fw.secver then s.done h St.rollback
        else { s with fw := { s.fw with act := some ⟨h.tag, if drainMs = 0 then 10000 else drainMs, flags⟩ } }

/-! ### Failures and restarts (R339) -/

def fwCluster : FwProc → Nat
  | .cluster cl => cl.toNat
  | _ => 0xFFF

/-- Restarts of the processor, or of all cluster control cores. -/
def State.restartsOf (s : State) (fp : FwProc) : Nat :=
  match fp with
  | .cluster _ => (s.reg Reg.ladleCccRestarts).toNat
  | _ => s.fw.restarts.getD (fwNo fp) 0

/-- A restart is counted. -/
def State.countRestart (s : State) (fp : FwProc) : State :=
  match fp with
  | .cluster _ => s.count Reg.ladleCccRestarts
  | _ => { s with fw := { s.fw with restarts := s.fw.restarts.set (fwNo fp) (min 255 (s.restartsOf fp + 1)) } }

/-- A processor reset and reloaded from its copy runs again: counted and posted; a cluster control core then delivers what its
cluster has buffered, the scheduler core takes up the resets that pages have asked for meanwhile (R275), and the security core the
claims, accepts and handovers (R441). -/
def State.restartProc (s : State) (fp : FwProc) : State :=
  let s := { s with fw := { s.fw with down := s.fw.down.filter (· ≠ fp), late := s.fw.late && decide (fp ≠ FwProc.power) } }
  let s := ((s.loadProc fp).setCore (fwProc fp) Core.firmware).countRestart fp
  let ev := evData [fwNo fp, fwCluster fp, s.restartsOf fp]
  let s := s.postOwner 0x0203 St.success (fwCluster fp) ev
  match fp with
  | .cluster cl =>
    let d := s.mem.clusterOwnerOf cl
    let s := if d.toNat < 256 then s.postFlask (BitVec.ofNat 8 d.toNat) 0x0203 St.success cl.toNat ev else s
    let q := (s.cluster cl).evq
    let s := s.setCluster cl { s.cluster cl with evq := [] }
    q.foldl (fun s x => s.postFlask x.1 x.2.code x.2.status x.2.detail.toNat x.2.result) s
  | .scheduler =>
    (s.liveFlasks.filter fun f => (s.flask f).ctlReset && (s.flask f).job.isNone).foldl (fun s f => s.askReset f 0 none) s
  | .security => s.own.queued.foldl State.takeAsk { s with own := { s.own with queued := [] } }
  | _ => s

/-- What a processor's failure does at once: a third lock-up of the security core within 60 s, a free bit, raises a level-1
breakout; the power core may stay away past 20 ms. -/
def State.procLost (s : State) : FwProc → State
  | .security =>
    let n := if s.freeBit then s.fw.lockups + 1 else 1
    let s := { s.took with fw := { s.fw with lockups := if n = 3 then 0 else n } }
    if n = 3 then s.raiseBreakout 6 (s.triggerLevel 6) else s
  | .power =>
    let s' := { s.took with fw := { s.fw with late := s.freeBit } }
    if s'.fw.late then s'.mapClusters fun c => { c with clock := min 60 c.clock } else s'
  | _ => s

/-- FIRMWARE_HEARTBEAT_LAPSE. -/
def execFirmwareHeartbeatLapse (fp : FwProc) (s : State) : Host.Outcome State Fault Refusal :=
  if !s.phase.serves || s.fw.down.contains fp then .next s
  else
    let s := { s with fw := { s.fw with down := s.fw.down ++ [fp] } }
    let s := s.tapBy (if procCluster (fwProc fp) = none then fwNo fp else 2) none 9 0x100
    .next ((s.setCore (fwProc fp) { Core.firmware with run := .held }).procLost fp)

/-- The restarted scheduler core undoes the cast that was under way, and completes it with INTERNAL; one that had not been begun goes on
(R64, R339). -/
def State.journalCast (s : State) : State :=
  match s.fw.waiting with
  | [] => s
  | t :: rest => match (s.fw.admin.cmds.find? fun (c : Cmd) => decide (c.tag = t)).map Cmd.instr with
    | some (Instr.cast _ flask _) =>
      if s.fw.castCopy.any fun x => decide (x.1 = t) then
        ({ s with fw := { s.fw with waiting := rest } }).castDone t (flaskOf flask.toNat) St.internal nowhere
      else s
    | _ => s

/-- FIRMWARE_PROCESSOR_RESTARTED: released once its copy's digest has been found right (R317). -/
def execFirmwareProcessorRestarted (fp : FwProc) (s : State) : Host.Outcome State Fault Refusal :=
  if !s.phase.serves || !s.fw.down.contains fp || !s.copyOk fp then .next s
  else
    let s := s.restartProc fp
    .next (if fp = .scheduler then s.journalCast else s)

/-- The hub's processors restart, in the order of step 5, on the copies that stand in LPDDR. -/
def State.restartHub (s : State) : State :=
  [FwProc.power, .management, .security, .scheduler].foldl (fun s fp => (s.loadProc fp).setCore (fwProc fp) Core.firmware) s

/-- The new image runs: its processors restart on it, the cluster control cores each as after a crash; its bank is marked
preferred; the fused counter follows under `COMMIT_SECVER` (steps 4 to 8). -/
def State.activate (s : State) (a : Activation) (i : ImageHdr) : State :=
  let old := s.fw.running
  let s := { s with fw := { s.fw with
    running := i, copies := imageCopies i.raw, other := some old, staged := false, bankB := !s.fw.bankB, act := none, down := [], late := false
    secver := if a.flags.getLsbD 0 then max s.fw.secver i.secver.toNat else s.fw.secver } }
  let s := s.restartHub
  let s := ((List.range 4096).map fun n => FwProc.cluster (BitVec.ofNat 12 n)).foldl State.restartProc s
  let s := s.setOpt (s.rst.opt.write { s.rst.opt.newest with bankB := s.fw.bankB })
  let ev := evData [old.version.toNat, i.version.toNat]
  let s := s.liveFlasks.foldl (fun s f => s.postFlask f 0x0204 St.success 0xFFF ev) (s.postOwner 0x0204 St.success 0xFFF ev)
  s.complete .admin a.tag St.success 0 []

/-- Whether commands other than the activation are started. -/
def State.othersStarted (s : State) (a : Activation) : Bool :=
  (s.fw.admin.cmds.any fun c => c.started && decide (c.tag ≠ a.tag)) ||
    s.liveFlasks.any fun f => (s.flask f).ladles.any fun e => e.2.cmds.any (·.started)

/-- ACTIVATION_DRAIN_END: the time is over, or the drain is complete; `accepted` says whether the new processors came up and
took the tables. They come up only on components whose digests are right; else the old image restarts from its copies. -/
def execActivationDrainEnd (expired accepted : Bool) (s : State) : Host.Outcome State Fault Refusal :=
  match s.fw.act, s.fw.other with
  | some a, some i =>
    if !s.phase.serves || s.fw.down.contains .scheduler || s.fw.down.contains .security then .next s
    else if s.othersStarted a then .next (if expired then s.endActivation St.timeout else s)
    else if accepted && imageDigestsOk i.raw then .next (s.activate a i)
    else .next (({ s with fw := { s.fw with other := none, staged := false } }).restartHub.endActivation St.internal)
  | _, _ => .next s

end Sys2Proof.Machine
end

