-- ==== Sys2Proof/Machine/Vote.lean ====
section
/-!
DEFINITION. Votes on triplicated words (R225).
-/

namespace Sys2Proof.Machine

/-- A flask that has lost its mould root descriptor is stopped as if reset, and enters FAILED; a destruction asked for goes
on, and a reset under way ends (R225, R262). -/
def State.failFlask (s : State) (f : FlaskId) : State :=
  let job := (s.flask f).job
  let s := if job.isSome then s else s.beginStop f
  let s := (s.squashWork f).clearFlask f
  let s := s.setFlask f { s.flask f with
    st := .failed, job := none, mould := none, mouldBytes := [], ctlReset := false, paused := false }
  let s := s.postOwner 0x0209 St.uncorrectable 0xFFF (evData [f.toNat])
  match job with
  | none => s
  | some j =>
    let s := if j.destroy then s else j.asked.foldl (fun s t => s.complete .admin t St.uncorrectable 0 []) s
    let next := if j.destroy then j.asked else j.destroyNext
    if next.isEmpty then s else s.startDestroy f next

/-- Whether the module holds the word: a FREE flask has no mould, an unpaired module no epoch. -/
def State.holdsWord (s : State) : TripWord → Bool
  | .mouldRoot f => decide ((s.flask f).st ≠ .free)
  | .pairEpoch => decide (s.twin.st ≠ .unpaired)
  | _ => true

/-- What the loss of a triplicated word does (R225, R439, R472). -/
def State.loseWord (s : State) : TripWord → State
  | .fuseShadow => (s.setReg Reg.secBoStat (s.reg Reg.secBoStat ||| 0x100)).raiseBreakout 5 (s.triggerLevel 5)
  | .mouldRoot f => if (s.flask f).st = .failed then s else s.failFlask f
  | .keySlot i => s.loseSlot i.toNat
  | .ownerRecord =>
    if s.own.valid then { s with own := { s.own with valid := false, holding := true, hand := none } } else s
  | .pairEpoch => if s.twin.st = .fenced then s else s.enterFenced

/-- A read of a triplicated word whose copies differ: the third copy is repaired, or the word is lost; either is counted and
logged (R225). -/
def State.voted (s : State) (w : TripWord) (majority : Bool) : State :=
  if s.phase = .off || !s.holdsWord w then s
  else if majority then ((s.repairTrip w).count Reg.memVoteFix).logVote false (tripDom w)
  else (((s.repairTrip w).count Reg.memVoteFail).logVote true (tripDom w)).loseWord w

end Sys2Proof.Machine
end

