-- ==== Sys2Proof/Machine/Registers.lean ====
section
/-!
DEFINITION. Reads and writes of registers: the BAR0 view of every block, the access codes, the masters that reach it, and
fabric spaces 0x3 and 0x4 (R6–R10, R197, R287, R312, R313, R434, R435, R457, R502, R512, R527).
-/

namespace Sys2Proof.Machine

/-! ### Register words -/

/-- A word put together from values and their lowest bits. -/
def pack (fs : List (Nat × Nat)) : Word := BitVec.ofNat 32 (fs.map fun x => x.1 * 2 ^ x.2).sum

def flag (b : Bool) (n : Nat) : Nat × Nat := (if b then 1 else 0, n)

/-- The row of the register tables that holds an offset. -/
def rowOf (off : Nat) : Option RegRow :=
  regRows.find? fun r => decide (r.off ≤ off) &&
    (if r.stride = 0 then decide (off = r.off) else decide ((off - r.off) % r.stride = 0 ∧ (off - r.off) / r.stride < r.count))

/-- The index of an offset in an array of registers. -/
def indexIn (off base stride count : Nat) : Option Nat :=
  if base ≤ off ∧ (off - base) % stride = 0 ∧ (off - base) / stride < count then some ((off - base) / stride) else none

/-- Values of registers, the first that applies. -/
def valueAt (off : Nat) : List (Nat × Word) → Option Word
  | [] => none
  | (o, v) :: rest => if off = o then some v else valueAt off rest

/-- R511: `MEM.MODE`; it reads 1 before step 9 of start-up. -/
def Phase.mode : Phase → Nat
  | .service => 0
  | .test => 2
  | .recovery => 3
  | _ => 1

/-! ### Blocks of computed registers -/

/-- Whether a key of a table lies in the n keys from a on, with a value that fits. -/
def anyIn {α : Type} (t : Tab α) (a n : Nat) (p : α → Bool) : Bool := t.any fun e => decide (a ≤ e.1 ∧ e.1 < a + n) && p e.2

/-- `MEM.GRAN_INFO` (R236). -/
def State.granInfo (s : State) (g : Nat) : Word :=
  let base := dieBase (g / 1192) + g % 1192 * 2 ^ 28
  if 9536 ≤ g then 0x1FF
  else pack [((s.mem.ownerOf g).toNat, 0), flag (anyIn s.mem.lpValid (base / 4096) 65536 id) 9,
    flag (anyIn s.mem.frozen (base / 65536) 4096 Option.isSome) 10, flag (s.mem.lpMark.any fun e => decide (base / 32 ≤ e.1 ∧ e.1 < base / 32 + 2 ^ 23) && e.2 == .poisoned &&
      Tab.get false s.mem.lpValid (e.1 / 128)) 11,
    flag (s.mem.faulty.contains g) 12]

def State.memBlock (s : State) (off : Nat) : Option Word :=
  let bad := (s.mem.faulty.filter fun g => !firmwareGranule g).length
  match indexIn off Reg.memKeys 4 8 with
  | some w => some (pack ((List.range 32).map fun i => flag (s.flask (BitVec.ofNat 8 (32 * w + i))).keyLoaded i))
  | none => valueAt off
      [(Reg.memCap, pack [(9504 - bad, 0), (128, 16)]), (Reg.memMode, BitVec.ofNat 32 s.phase.mode),
       (Reg.memRepairs, pack [(min 0xFFFF s.mem.repairs.length, 0), (s.mem.faulty.length, 16)]),
       (Reg.memFlipStat, (s.reg Reg.memFlipStat &&& 0xFFFF0004) ||| pack [flag s.mem.flip.isSome 0, flag s.mem.flipDone 1]),
       (Reg.memGranInfo, s.granInfo (s.reg Reg.memGranSel).toNat)]

/-- R261. -/
def FState.code : FState → Nat
  | .free => 0
  | .empty => 1
  | .running => 2
  | .held => 3
  | .resetting => 4
  | .destroying => 5
  | .failed => 6

/-- `FLASK.SIZE` (R268). -/
def Flask.sizeWord (fl : Flask) : Word := pack [(fl.clusters.length, 0), (fl.rot.toNat, 13), (fl.granules.length, 16)]

/-- The registers of one flask, by word (R270). -/
def Flask.word (fl : Flask) (casting : Bool) (w : Nat) : Word :=
  match w with
  | 0 => pack [(fl.st.code, 0), flag casting 3, flag fl.ingot 4, flag fl.paused 5, (fl.host.toNat, 6), (fl.vectors, 8), (fl.nladles, 12)]
  | 1 => fl.sizeWord
  | 2 => (fl.mould.map fun m => m.sequence).getD 0
  | 3 => fl.drainUs.setWidth 32
  | 4 => pack [(fl.lastStatus.toNat, 0), flag fl.lastSquashed 16, flag fl.lastByTenant 17]
  | 5 => BitVec.ofNat 32 fl.qpQuota
  | 6 => BitVec.ofNat 32 fl.mrQuota
  | _ => BitVec.ofNat 32 fl.shQuota

def State.flaskBlock (s : State) (off : Nat) : Option Word :=
  let live (f : Nat) : Bool := decide ((s.flask (BitVec.ofNat 8 f)).st ≠ .free)
  match indexIn off Reg.flaskState 4 2048, indexIn off Reg.flaskAlloc 4 8 with
  | some i, _ =>
    let fl := s.flask (BitVec.ofNat 8 (i / 8))
    some (if fl.st = .free ∧ i % 8 ≠ 3 ∧ i % 8 ≠ 4 then 0 else fl.word (s.castUnderWay (BitVec.ofNat 8 (i / 8))) (i % 8))
  | none, some w => some (pack ((List.range 32).map fun i => flag (live (32 * w + i)) i))
  | none, none => valueAt off
      [(Reg.flaskCap, pack [(256, 0), (256 - s.liveFlasks.length, 16)]), (Reg.flaskQpFree, BitVec.ofNat 32 (262144 - s.reserved (·.qpQuota))),
       (Reg.flaskMrFree, BitVec.ofNat 32 (1048576 - s.reserved (·.mrQuota))), (Reg.flaskShFree, BitVec.ofNat 32 (65536 - s.reserved (·.shQuota)))]

/-- The registers of an endpoint and its windows (R309), HE1's at the HE0 offsets plus 0x100; the tables in 0x30000 each. -/
def State.epBlock (s : State) (off : Nat) : Option Word :=
  let at' (e : Ep) : List (Nat × Word) :=
    let x := s.ep e
    [(epReg Reg.pciHe0Link e, pack [(x.speed.toNat, 0), (x.width.toNat, 3), flag x.flit 8, flag x.bme 9, flag x.flr 10, (x.downs.toNat, 16)]),
     (epReg Reg.pciHe0OnoteCtl e, pack [flag x.noteEn 0, flag x.missed 2] ||| (s.reg (epReg Reg.pciHe0OnoteCtl e) &&& 2)),
     (epReg Reg.winHe0Stat e, pack [flag (!(x.commitIn || x.commitOut)) 0, flag x.late 1, flag x.collide 2, (x.winGen.toNat, 16)])]
  if 0x110000 ≤ off ∧ off < 0x170000 then
    let x := s.ep (BitVec.ofNat 1 ((off - 0x110000) / 0x30000))
    let o := (off - 0x110000) % 0x30000
    some (Tab.get 0 (if o < 0x8000 then x.inShadow else if o < 0x10000 then x.inActive else if o < 0x20000 then x.outShadow else x.outActive)
      ((if o < 0x8000 then o else if o < 0x10000 then o - 0x8000 else if o < 0x20000 then o - 0x10000 else o - 0x20000) / 4))
  else valueAt off (at' 0 ++ at' 1)

/-- The MSI-X table and the pending bits of the endpoint that reads (R300). -/
def State.msixBlock (s : State) (e : Ep) (off : Nat) : Word :=
  let t := (s.ep e).msix
  if off < 0x188000 then
    let m := Tab.get MsixEntry.reset t ((off - 0x180000) / 16)
    match off % 16 / 4 with
    | 0 => m.addr.extractLsb' 0 32
    | 1 => m.addr.extractLsb' 32 32
    | 2 => m.data
    | _ => if m.masked then 1 else 0
  else if off < 0x188100 then
    pack ((List.range 32).map fun i => flag (Tab.get MsixEntry.reset t ((off - 0x188000) * 8 + i)).pending i)
  else 0

def State.ladleBlock (s : State) (off : Nat) : Option Word :=
  let w := s.fw
  if 0x210000 ≤ off ∧ off < 0x220000 then some (Tab.get 0 w.admSq ((off - 0x210000) / 4))
  else if 0x220000 ≤ off ∧ off < 0x230000 then some (Tab.get 0 w.admCq ((off - 0x220000) / 4))
  else if 0x240000 ≤ off ∧ off < 0x260000 then some (Tab.get 0 w.log ((off - 0x240000) / 4))
  else match indexIn off Reg.ladleFq 4 8192 with
  | some i =>
    let d := s.ladle (.flask (BitVec.ofNat 8 (i / 32)) (BitVec.ofNat 4 (i / 2)))
    some (if !d.enabled then 0 else if i % 2 = 0 then pack [(d.sqHead, 0), (d.cqTail, 16)]
      else pack [flag d.enabled 0, flag d.phase 1, flag (!d.held.isEmpty) 2])
  | none => valueAt off
      [(Reg.ladleAdmGen, w.admin.gen), (Reg.ladleAdmStat, pack [(w.admin.sqHead, 0), (w.admin.cqTail, 16), flag w.admin.phase 26]),
       (Reg.ladleFwVer, w.running.version),
       (Reg.ladleFwStat, pack [flag w.bankB 0, flag w.staged 1, flag w.act.isSome 2, flag w.fallback 3, (w.secver % 256, 16)]),
       (Reg.ladleStagedVer, if w.staged then (w.other.map fun i => i.version).getD 0 else 0),
       (Reg.ladleProcAlive, pack [flag (!w.down.contains .security) 0, flag (!w.down.contains .power) 1, flag (!w.down.contains .scheduler) 2,
         flag (!w.down.contains .management) 3, flag (!(w.down.any fun x => decide (fwNo x = 4))) 4]),
       (Reg.ladleProcRestarts, pack ((w.restarts.zipIdx).map fun x => (x.1, 8 * x.2))),
       (Reg.ladleLogHead, pack [(w.logNext, 0), (w.logWraps, 12)]), (Reg.ladleStart, w.start.setWidth 32),
       (Reg.hostStat, pack [flag s.live0.lapsed 0, flag s.live1.lapsed 1, (s.live0.lapses.toNat, 16), (s.live1.lapses.toNat, 24)])]

def State.netBlock (s : State) (off : Nat) : Option Word :=
  let x := s.shaper (s.reg Reg.netShaperSel).toNat
  match (List.range 8).find? fun n => decide (off = Reg.netPnStat + 256 * n) with
  | some n =>
    let p := Tab.get NetPort.reset s.net.ports n
    some (pack [flag p.up 0, (p.lanes.toNat, 1), (p.paused.toNat, 16)])
  | none => valueAt off
      [(Reg.netCap, 0x20000008), (Reg.netFragStat, pack [(s.net.frags.length, 0), (s.net.held.length, 16)]),
       (Reg.netShaperInfo, pack [(x.flask.toNat, 0), (x.ovh, 9)]), (Reg.netShaperRate, BitVec.ofNat 32 x.rate),
       (Reg.netShaperCredit, BitVec.ofInt 32 (x.credit / 8))]

def QpSt.code : QpSt → Nat
  | .free => 0
  | .idle => 1
  | .active => 2
  | .draining => 3
  | .error => 4

def State.xportBlock (s : State) (off : Nat) : Option Word :=
  let q := s.qp (s.reg Reg.xportQpSel).toNat
  let peer := (q.conn.map fun (c : ConnectP) => c.peerQpn.toNat % 2 ^ 18).getD 0
  valueAt off
    [(Reg.xportCap, 0x40000), (Reg.xportMrCap, 0x100000), (Reg.xportEpoch, s.twin.epoch),
     (Reg.xportFaultBuf, BitVec.ofNat 32 ((s.faultBufUsed + 1023) / 1024)),
     (Reg.xportQpInfo, pack [(q.st.code, 0), (q.flask.toNat, 3), flag q.delay 12, flag q.roce 13]), (Reg.xportQpPeer, BitVec.ofNat 32 peer),
     (Reg.xportQpPsn, BitVec.ofNat 32 (q.nextPsn % 2 ^ 24)),
     (Reg.xportQpWnd, BitVec.ofNat 32 (if q.delay then q.wnd.floor.toNat else q.grant - q.sentBytes)),
     (Reg.xportQpRtt, BitVec.ofNat 32 q.srtt.floor.toNat), (Reg.xportQpPaths, pack ((List.range 32).map fun i => flag (q.failed.contains i) i))]

def State.storBlock (s : State) (off : Nat) : Option Word :=
  if off = Reg.storCap then some 0x488
  else
    let d := s.drive (BitVec.ofNat 3 ((off - 0x501000) / 256))
    if off < 0x501000 ∨ 0x501800 ≤ off then none
    else match off % 256 with
    | 4 => some (pack [flag d.present 0, flag d.powerGood 1, flag d.powerFault 2, flag d.link 3, flag d.ready 4, flag d.unsupported 5,
        flag d.pressed 6, flag d.vwc 7, (d.ps.toNat, 8), (d.speed.toNat, 13), (d.presses.toNat, 16)])
    | 8 => some (BitVec.ofNat 32 d.blocks)
    | 12 => some (BitVec.ofNat 32 (d.blocks / 2 ^ 32))
    | _ => none

def State.ownBlock (s : State) (off : Nat) : Option Word :=
  let o := s.own
  match indexIn off Reg.idIdent 4 4, indexIn off Reg.idPubkey 4 8 with
  | some i, _ => some (s.identWord i)
  | none, some i => some (s.pubKeyWord i)
  | none, none => valueAt off
    [(Reg.idDevice, 0x0A101F3C), (Reg.idRev, 0xA1),
     (Reg.ownStat, pack [(if o.valid then masterIndex o.master else 0, 0), flag o.valid 2, flag o.holding 3, flag o.electing 4, flag o.hand.isSome 5,
       flag o.handFailed 6, (o.nonce.toNat, 8), (o.changes.toNat, 24)]),
     (Reg.ownClaims, pack (o.claims.map fun c => (c.2.1.toNat, 8 * masterIndex c.1)))]

def State.secBlock (s : State) (off : Nat) : Option Word :=
  let k := s.slot (s.reg Reg.secSlotSel).toNat
  match indexIn off Reg.secSlotLabel 4 3 with
  | some i => some (k.label.extractLsb' (32 * i) 32)
  | none => valueAt off
      [(Reg.secProv, pack [flag s.sec.duk.isSome 0, (s.sec.unlocked.toNat, 1)]),
       (Reg.secSlotInfo, pack [flag (decide (k.type ≠ 0)) 0, (k.type.toNat, 1), (k.usage.toNat, 3), (k.assigned.toNat, 7)]),
       (Reg.secCvStat, pack ((s.sec.cvq.length, 0) :: (List.range 16).map fun i =>
         flag (s.sec.cvRuns.any fun r => decide (r.engine.toNat = i)) (16 + i)))]

def State.twinBlock (s : State) (off : Nat) : Option Word :=
  let t := s.twin
  valueAt off
    [(Reg.twinStat, pack [((twinCode t.st).toNat, 0), flag t.roleB 3, flag t.link 4, (t.lanes.toNat, 16)]), (Reg.twinEpoch, t.epoch),
     (Reg.twinPeerEpoch, t.peerEpoch)]

def State.rstBlock (s : State) (off : Nat) : Option Word :=
  let r := s.rst
  let o := if r.opt.which then r.opt.c1 else r.opt.c0
  valueAt off
    [(Reg.rstCause, r.cause.setWidth 32), (Reg.rstCount, pack [(r.resets.toNat, 0), (r.loop.toNat, 16)]),
     (Reg.rstMode, pack [(s.phase.mode, 0), flag r.refused 3]), (Reg.rstCold, pack [(r.cold, 0), (r.coldDetail.toNat, 16)]),
     (Reg.rstOpt, pack [flag r.opt.which 0, flag r.opt.defaulted 1, (r.straps.toNat, 8), (o.seq.toNat % 2 ^ 16, 16)]),
     (Reg.bistStat, s.reg Reg.bistStat ||| pack [flag (r.bist.isSome || r.env.isSome) 0])]

/-- The least of the values of a table over its keys 0 to n − 1. -/
def leastOf (t : Tab Nat) (n : Nat) : Nat := ((List.range n).map (Tab.get 0 t)).foldl min (Tab.get 0 t 0)

def State.telemBlock (s : State) (off : Nat) : Option Word :=
  let cl : ClusterId := BitVec.ofNat 12 (s.reg Reg.telemCeilSel).toNat
  let c := s.cluster cl
  let x := Tab.get none s.bg.sensors (s.reg Reg.telemSensorSel).toNat
  let hot (d : Nat) : Bool := match Tab.get none s.bg.sensors d with
    | some v => decide (v.toInt > 1000)
    | none => false
  match indexIn off Reg.pmonHubHi 8 64 with
  | some i => some ((Tab.get 0 s.bg.hubHi i).setWidth 32)
  | none => valueAt off
      [(Reg.telemCeil, pack [(c.ceilOwner, 0), (s.ceiling cl, 8), (c.clock, 16)]),
       (Reg.telemFettleSram, BitVec.ofNat 32 (leastOf s.bg.sramPasses 4096)), (Reg.telemFettleLpddr, BitVec.ofNat 32 (leastOf s.bg.lpPasses 128)),
       (Reg.telemSensor, (x.map fun v => pack [(v.toNat, 0), (1, 16)]).getD 0),
       (Reg.telemFlashWear, pack [(min 0xFFFF (s.bg.flashErases / 16), 0), (min 0xFFFF s.bg.flashRetired, 16)]),
       (Reg.telemThermal, pack ((s.bg.trip.toNat, 8) :: (List.range 8).map fun d => flag (hot d) d)),
       (Reg.pmonLastRefLo, s.bg.lastRef.extractLsb' 0 32), (Reg.pmonLastRefHi, s.bg.lastRef.extractLsb' 32 32)]

/-- The value of a register, without what reading it does. -/
def State.regValue (s : State) (off : Nat) : Word :=
  let computed : Option Word :=
    match off / 2 ^ 20 with
    | 0 => s.ownBlock off
    | 1 => s.epBlock off
    | 2 => s.ladleBlock off
    | 3 => s.netBlock off
    | 4 => s.xportBlock off
    | 5 => s.storBlock off
    | 6 => s.secBlock off
    | 7 => s.twinBlock off
    | 8 => s.rstBlock off
    | 9 => s.memBlock off
    | 10 => s.telemBlock off
    | 11 => s.flaskBlock off
    | 12 => s.ladleBlock off
    | _ => none
  match computed with
  | some v => v
  | none => if (rowOf off).isSome || decide (Reg.idCert ≤ off ∧ off < 0x1800) then s.reg off else 0

/-- What BAR0 answers before step 9 of start-up and in the cold-shut state (R502, R512). -/
def readsEarly (off : Nat) : Bool :=
  decide (off < 0x2000) || decide (off / 2 ^ 20 = 8) || decide (off = Reg.memChk) || decide (off = Reg.memMode) ||
    decide (0x240000 ≤ off ∧ off < 0x260000)

/-- The endpoint that a master is; MGMT and PEER reach no BAR but BAR0. -/
def epOf : Master → Option Ep
  | .he0 => some 0
  | .he1 => some 1
  | _ => none

/-- A word of a flask's page (R267, R268): zero where the page is not this endpoint's, and at undefined offsets. -/
def State.pageWord (s : State) (e : Ep) (f : FlaskId) (off : Nat) : Word :=
  if !s.pageLive e f then 0
  else
    let fl := s.flask f
    match indexIn off 0x104 8 16 with
    | some n => (s.ladle (.flask f (BitVec.ofNat 4 n))).gen
    | none => (valueAt off
      [(0x00, pack [(f.toNat, 0), (1, 8)]),
       (0x04, pack [(fl.st.code, 0), flag (s.castUnderWay f) 3, flag fl.ingot 4, flag fl.paused 5]),
       (0x08, (fl.mould.map fun m => m.sequence).getD 0), (0x0C, fl.sizeWord), (0x10, pack [flag fl.ctlReset 0]),
       (0x14, pack [(fl.resetStatus.toNat, 0), flag (decide (fl.st = .resetting)) 16, flag fl.resetSquashed 17]),
       (0x18, pack [(fl.vectors, 0), (fl.vecFirst, 16)]), (0x1C, fl.events), (0x20, fl.stray)]).getD 0

/-- A read of BAR0: a read-to-clear register is cleared; `PMON.HUB_LO` latches (R9, R534). -/
def State.busRead (s : State) (m : Master) (off : Nat) : Word × State :=
  if !s.phase.serves && !readsEarly off then (0, s)
  else if 2 ^ 26 ≤ off then
    (match epOf m with
      | some e => s.pageWord e (BitVec.ofNat 8 (off / 2 ^ 16)) (off % 2 ^ 16)
      | none => 0, s)
  else if off / 2 ^ 16 = 0x18 then (if m = .he0 ∨ m = .he1 then s.msixBlock (BitVec.ofNat 1 (masterIndex m)) off else 0, s)
  else match indexIn off Reg.pmonHubLo 8 64 with
  | some i => s.hubLo i
  | none =>
    if off = Reg.twinHbAge then (if s.twin.st = .unpaired then (0, s) else (s.free.extractLsb' 0 32, s.took))
    else
      let s := if off = Reg.ownStat then s.readTrip .ownerRecord else s
      let v := s.regValue off
      match rowOf off with
      | some r => (v, if r.rc = 0 then s else s.setReg off (s.reg off &&& ~~~(BitVec.ofNat 32 r.rc)))
      | none => (v, s)

/-! ### Writes -/

/-- The ranges of R10. -/
def clampRange (lo hi v : Nat) : Nat := max lo (min hi v)

/-- What a plain register takes of a value (R10; R345, R442, R453, R477, R498, R524). -/
def clampReg (off : Nat) (v : Word) : Word :=
  let c (w lo hi : Nat) : Word := BitVec.ofNat 32 (clampRange lo hi (v.toNat % 2 ^ w))
  if off = Reg.hostTimeout0 ∨ off = Reg.hostTimeout1 ∨ off = Reg.ownMgmtTimeout then c 20 100 600000
  else if off = Reg.hostHold then c 16 0 60000
  else if off = Reg.telemBudget then c 12 600 2600
  else if off = Reg.rstWdog then c 14 100 10000
  else if off = Reg.twinRules then BitVec.ofNat 32 (v.toNat % 2 ^ 13 + min 8192 (bits v.toNat 29 16) * 2 ^ 16)
  else if off = Reg.pciHe0OnoteAddrLo ∨ off = Reg.pciHe0OnoteAddrLo + 0x100 then v &&& 0xFFFFFFFC
  else v

/-- A write of a register that is plain storage, by its access codes. -/
def State.plainWrite (s : State) (off : Nat) (v : Word) : State :=
  match rowOf off with
  | none => s
  | some r =>
    let rw := BitVec.ofNat 32 r.rw
    let old := s.reg off
    let new := (((old &&& ~~~rw) ||| (clampReg off v &&& rw)) &&& ~~~(v &&& BitVec.ofNat 32 r.w1c)) ||| (v &&& BitVec.ofNat 32 r.w1s)
    if new = old then s
    else
      let s := s.setReg off new
      if optRegs.contains off then s.setOpt { s.rst.opt with dirty := true } else s

/-- The notification registers of an endpoint (R301). -/
def State.onoteWrite (s : State) (e : Ep) (off : Nat) (v : Word) : State :=
  if off = epReg Reg.pciHe0OnoteCtl e then
    let s := (s.modEp e fun x => { x with noteEn := v.getLsbD 0, missed := x.missed && !v.getLsbD 2 }).setReg off (s.reg off ||| (v &&& 2))
    if v.getLsbD 1 then s.rearm e else s
  else s.plainWrite off v

def isOnote (e : Ep) (off : Nat) : Bool := decide (epReg Reg.pciHe0OnoteAddrLo e ≤ off ∧ off ≤ epReg Reg.pciHe0OnoteCtl e)

/-- A write in the window and endpoint blocks; none for the others. -/
def State.epWrite (s : State) (m : Master) (off : Nat) (v : Word) : Option Answer :=
  let at' (e : Ep) : Option Answer :=
    if off = epReg Reg.winHe0Ctl e then
      let t := s.plainWrite off v
      some (.next { t with sec := { t.sec with winDirect := t.sec.winDirect || v.getLsbD 0 } })
    else if off = epReg Reg.winHe0Commit e then
      some (if v.getLsbD 0 && v.getLsbD 1 then .next (s.commit e true true)
        else if v.getLsbD 0 then execWinCommitIn m e s
        else if v.getLsbD 1 then execWinCommitOut m e s else .next s)
    else if off = epReg Reg.winHe0Stat e then
      some (.next (s.modEp e fun x => { x with late := x.late && !v.getLsbD 1, collide := x.collide && !v.getLsbD 2 }))
    else if isOnote e off then some (.next (s.onoteWrite e off v))
    else none
  if 0x110000 ≤ off ∧ off < 0x170000 then
    let e : Ep := BitVec.ofNat 1 ((off - 0x110000) / 0x30000)
    let o := (off - 0x110000) % 0x30000
    some (if o < 0x8000 then execWinShadowWrite m e false (BitVec.ofNat 11 (o / 32)) (BitVec.ofNat 3 (o / 4)) v s
      else if 0x10000 ≤ o ∧ o < 0x20000 then execWinShadowWrite m e true (BitVec.ofNat 11 ((o - 0x10000) / 32)) (BitVec.ofNat 3 (o / 4)) v s
      else .next s)
  else match at' 0 with
  | some a => some a
  | none => at' 1

/-- Writes that set off a reset's, self-test's or flip's work. -/
def State.testWrite (s : State) (m : Master) (off : Nat) (v : Word) : Option Answer :=
  let seq (a : Answer) (go : Bool) (f : State → Answer) : Answer := match a with
    | .next s => if go then f s else .next s
    | x => x
  if off = Reg.rstCause then some (.next { s with rst := { s.rst with cause := s.rst.cause &&& ~~~(v.extractLsb' 0 8) } })
  else if off = Reg.rstMode then some (.next { s with rst := { s.rst with refused := s.rst.refused && !v.getLsbD 3 } })
  else if off = Reg.rstModeReq then
    some (seq (seq (.next s) (v.getLsbD 0) (execRstModeReqTest m)) (v.getLsbD 1 && !v.getLsbD 0) (execRstModeReqService m))
  else if off = Reg.rstSwreset then some (.next s)
  else if off = Reg.bistCtl then
    some (seq (seq (.next (s.plainWrite off v)) (v.getLsbD 0) (execBistCtlStart m)) (v.getLsbD 3) (execBistCtlFuse m))
  else if off = Reg.bistStat then some (.next (if v.getLsbD 1 then s.setReg off (s.reg off &&& 0xFFFFFFFD) else s))
  else if off = Reg.memFlipCtl then
    some (.next (if s.phase = .service then s.refuseFlip
      else
        let s := s.plainWrite off v
        if v.getLsbD 0 then s.armFlip else s))
  else if off = Reg.memFlipStat then
    some (.next { s.plainWrite off v with mem := { s.mem with flipDone := s.mem.flipDone && !v.getLsbD 1 } })
  else none

/-- A write that takes effect: of the owner, or of firmware. -/
def State.regEffect (s : State) (m : Master) (off : Nat) (v : Word) : Answer :=
  match s.epWrite m off v with
  | some a => a
  | none => match s.testWrite m off v with
  | some a => a
  | none =>
    let port : Port := BitVec.ofNat 3 (off / 256)
    if 0x210000 ≤ off ∧ off < 0x220000 then .next { s with fw := { s.fw with admSq := Tab.put 0 s.fw.admSq ((off - 0x210000) / 4) v } }
    else if off = Reg.ladleAdmSqdb then .next (s.ringSq .admin (v.toNat % 1024))
    else if off = Reg.ladleAdmCqdb then .next (s.ringCq .admin (v.toNat % 1024))
    else if off = Reg.netRuleWrite then execNetRuleWrite m (v.extractLsb' 0 13) s
    else if off = Reg.netRuleRead then execNetRuleRead m (v.extractLsb' 0 13) s
    else if 0x501000 ≤ off ∧ off < 0x501800 ∧ off % 256 = 0 then
      let on := v.getLsbD 0
      let t := s.setReg off ((s.reg off &&& 1) ||| (v &&& 6))
      if on = (s.reg off).getLsbD 0 then .next t else execStorPowerEn m port on t
    else if 0x501000 ≤ off ∧ off < 0x501800 ∧ off % 256 = 4 then
      let d := s.drive port
      .next (s.setDrive port { d with powerFault := d.powerFault && !v.getLsbD 2, pressed := d.pressed && !v.getLsbD 6 })
    else if off = Reg.ownHandover then execOwnHandover m (v.extractLsb' 0 2) (v.extractLsb' 8 16) s
    else if off = Reg.ownStat then .next { s with own := { s.own with handFailed := s.own.handFailed && !v.getLsbD 6 } }
    else if off = Reg.telemCeil then
      .next (s.setCeil (BitVec.ofNat 12 (s.reg Reg.telemCeilSel).toNat) fun c => { c with ceilOwner := clampRange 40 160 (v.toNat % 256) })
    else match indexIn off Reg.flaskDrain 32 256, indexIn off Reg.pmonHubSel 4 64 with
    | some f, _ =>
      let id : FlaskId := BitVec.ofNat 8 f
      .next (s.setFlask id { s.flask id with drainUs := BitVec.ofNat 16 (clampRange 100 50000 (v.toNat % 2 ^ 16)) })
    | none, some i =>
      let s := s.plainWrite off v
      .next (if v.getLsbD 16 then { s with bg := { s.bg with hubCtr := Tab.put ⟨0, 0⟩ s.bg.hubCtr i ⟨0, 0⟩ } } else s)
    | none, none => .next (s.plainWrite off v)

/-- A write of a flask's page through an endpoint (R267, R268): `FP.CTL` and the doorbells act as their rows say, a read-only
register ignores it, and at an undefined offset, or where the page is not this endpoint's, it is counted. -/
def State.pageWrite (s : State) (e : Ep) (f : FlaskId) (off : Nat) (v : Word) : Answer :=
  match indexIn off 0x100 8 16, indexIn off 0x200 8 16 with
  | some n, _ => execFpSqdb e f (BitVec.ofNat 4 n) (v.extractLsb' 0 16) s
  | none, some n => execFpCqdb e f (BitVec.ofNat 4 n) (v.extractLsb' 0 16) s
  | none, none =>
    if off = 0x10 ∧ v.getLsbD 0 then execFpCtlReset e f s
    else if !s.reaches e then .next s
    else if !s.pageLive e f || !(decide (off ≤ 0x20) || (indexIn off 0x104 8 16).isSome) then .next (s.strayWrite f)
    else .next s

/-- A write of BAR0, or of a flask's page, by a master (R267, R287, R435); `epoch` is the pair epoch that a peer's message carries. `RST.SWRESET` with its
key is RST_SWRESET, whose row carries the start-up that follows. -/
def State.busWrite (s : State) (m : Master) (off : Nat) (v : Word) (epoch : Word) : Answer :=
  if !s.phase.serves || !s.arrives m then .next s
  else if 2 ^ 26 ≤ off then
    match epOf m with
    | some e => s.pageWrite e (BitVec.ofNat 8 (off / 2 ^ 16)) (off % 2 ^ 16) v
    | none => .next s
  else if off = Reg.ownClaim then execOwnClaim m (v.extractLsb' 0 8) (v.extractLsb' 8 16) epoch s
  else if off = Reg.ownAccept then execOwnAccept m (v.extractLsb' 8 16) s
  else if off = Reg.hostBeat0 then execHostBeat m 0 s
  else if off = Reg.hostBeat1 then execHostBeat m 1 s
  else if off = Reg.twinConfirm then execTwinConfirm m v s
  else if (isOnote 0 off && decide (m = .he0)) || (isOnote 1 off && decide (m = .he1)) then
    .next (s.onoteWrite (BitVec.ofNat 1 (masterIndex m)) off v)
  else if off / 2 ^ 16 = 0x18 then
    if m ≠ .he0 ∧ m ≠ .he1 then .next s
    else if off < 0x188000 then
      execMsixVectorControlWrite (BitVec.ofNat 1 (masterIndex m)) (BitVec.ofNat 11 ((off - 0x180000) / 16)) (BitVec.ofNat 2 (off / 4)) v s
    else .next s
  else if s.isOwner m then s.regEffect m off v
  else .next (s.observed m)

/-- A write that may be unaligned (R287): unpredictable for the master alone (R3), it is ignored, or performed at the word that
holds its first byte. -/
def State.anyWrite (s : State) (m : Master) (off : Nat) (v epoch : Word) : Answer :=
  if off % 4 = 0 then s.busWrite m off v epoch
  else if s.freeBit then s.took.busWrite m (off / 4 * 4) v epoch else .next s.took

/-- A read that may be unaligned: its value is then any (R287, R3). -/
def State.anyRead (s : State) (m : Master) (off : Nat) : Word × State :=
  if off % 4 = 0 then s.busRead m off else (s.free.extractLsb' 0 32, s.took)

/-- REGISTER_WRITE. -/
def execRegisterWrite (m : Master) (offset : BitVec 27) (value : Word) (s : State) : Host.Outcome State Fault Refusal :=
  s.anyWrite m offset.toNat value s.twin.peerEpoch

/-- REGISTER_READ_CLEAR: a read of BAR0 or of a flask's page; the value goes to the master. -/
def execRegisterReadClear (m : Master) (offset : BitVec 27) (s : State) : Host.Outcome State Fault Refusal :=
  if s.phase = .off || !s.arrives m then .next s
  else
    let r := s.anyRead m offset.toNat
    .next (r.2.emit (.value m r.1))

/-- MCTP_READ (R434): the management port answers while the management core runs. -/
def execMctpRead (offset : BitVec 26) (s : State) : Host.Outcome State Fault Refusal :=
  if s.phase = .off ∨ s.fw.down.contains .management then .next s
  else
    let r := s.anyRead .mgmt offset.toNat
    .next (r.2.emit (.value .mgmt r.1))

/-- MCTP_WRITE (R434). -/
def execMctpWrite (offset : BitVec 26) (value : Word) (s : State) : Host.Outcome State Fault Refusal :=
  if s.phase = .off ∨ s.fw.down.contains .management then .next s
  else s.anyWrite .mgmt offset.toNat value s.twin.peerEpoch

/-! ### Fabric space 0x3 (R197, R312, R313) -/

/-- The cluster whose `CL` registers an address names, and the register, in the order of R197. -/
def clRegAt (fa : Nat) : Option (ClusterId × Nat) :=
  if space fa = 3 ∧ bits fa 31 24 = 1 ∧ bits fa 23 12 = 0 then some (faCluster fa, bits fa 11 0) else none

def Cluster.regAt (c : Cluster) (off : Nat) : Word :=
  if off = 0 then pack [(c.gen.toNat, 0), (c.spares, 8), (c.last.toNat, 16)]
  else if off = 4 then c.streamDrops else if off = 8 then c.fenceDrops else 0

/-- Whether a space 0x3 address names the BAR0 view. -/
def inBar0View (fa : Nat) : Bool := decide (space fa = 3 ∧ bits fa 31 24 = 0 ∧ bits fa 43 32 = 0)

/-- A read in space 0x3; none for the error response. -/
def State.regSpaceRead (s : State) (fa : Nat) : Option (Word × State) :=
  if fa % 4 ≠ 0 then none
  else if inBar0View fa then some (s.busRead .mgmt (bits fa 23 0))
  else (clRegAt fa).map fun x => ((s.cluster x.1).regAt x.2, s)

/-- A write in space 0x3: as the owner's in the BAR0 view, and of plain registers alone while there is none; the `CL` registers
are read-only. -/
def State.regSpaceWrite (s : State) (fa : Nat) (v : Word) : Option Answer :=
  if fa % 4 ≠ 0 then none
  else if inBar0View fa then some (if s.own.valid then s.regEffect s.own.master (bits fa 23 0) v else .next (s.plainWrite (bits fa 23 0) v))
  else (clRegAt fa).map fun _ => .next s

/-- sys 0x1: the address is in ra and g13, low word first. -/
def execSysRegRead (p : Proc) (f : SysF) (s : State) : Host.Outcome State Fault Refusal :=
  .next (s.sysOp p f fun s => withInt p f s fun lo =>
    match s.regSpaceRead (lo.toNat + ((s.core p).reg 13).payload.toNat * 2 ^ 32) with
    | some r => giveInt p f r.2 r.1
    | none => .trap s { trapOf Vec.bus with eaddr := lo })

/-- sys 0x2: ra goes to the address in g12 and g13. -/
def execSysRegWrite (p : Proc) (f : SysF) (s : State) : Host.Outcome State Fault Refusal :=
  .next (s.sysOp p f fun s => withInt p f s fun v =>
    let k := s.core p
    match s.regSpaceWrite ((k.reg 12).payload.toNat + (k.reg 13).payload.toNat * 2 ^ 32) v with
    | some (.next t) => .ok t
    | some _ => .ok s
    | none => .trap s { trapOf Vec.bus with eaddr := (k.reg 12).payload })

/-! ### Accesses at their homes, with spaces 0x3 and 0x4 (R313, R457) -/

/-- A request of a firmware descriptor in space 0x3 or 0x4, off its list: the state, and its reply unless it waits for the
peer. Only whole words of space 0x3 are accessed; a store in space 0x4 is answered at once. -/
def State.farAccess (s : State) (r : MemReq) : State × Option Reply :=
  let fa := r.addr.toNat
  if r.dom.toNat ≠ 0x100 then (s, some .accessFault)
  else if space fa = 3 then
    match r.op with
    | .load 4 => match s.regSpaceRead fa with
      | some x => (x.2, some (.data ⟨x.1, Tag.int⟩))
      | none => (s, some .bus)
    | .store 4 v => match s.regSpaceWrite fa v.payload with
      | some (.next t) => (t, some .done)
      | some _ => (s, some .done)
      | none => (s, some .bus)
    | _ => (s, some .bus)
  else if s.twin.st ≠ .paired then (s, some .bus)
  else
    let a : BitVec 44 := BitVec.ofNat 44 fa
    match r.op with
    | .load _ =>
      let s := s.twinSend (.windowRead (BitVec.ofNat 44 (fa / 4 * 4)) 4)
      (s.setTwin { s.twin with reads := s.twin.reads ++ [r] }, none)
    | .store n v => (s.twinSend (.windowWrite none a ((Word.bytes v.payload).take n)), some .done)
    | _ => (s, some .bus)

/-- MEMORY_ACCESS_AT_HOME: an access of a request, or the hub's vote on a triplicated word (R225). -/
def execMemoryAccessAtHome (req : Nat) (ecc : EccReport) (s : State) : Host.Outcome State Fault Refusal :=
  match ecc with
  | .vote w majority => .next (s.voted w majority)
  | _ =>
  match s.fab.reqs.find? (·.id = req) with
  | none => .next s
  | some r =>
    if (space r.addr.toNat ≠ 3 ∧ space r.addr.toNat ≠ 4) ∨ s.stale r.issuer r.gen then s.accessHome req ecc
    else if !s.memTurn r then .next s
    else
      let x := ({ s with fab := { s.fab with reqs := s.fab.reqs.filter (·.id ≠ req) } }).farAccess r
      .next (match x.2 with
        | some y => { x.1 with fab := { x.1.fab with reps := x.1.fab.reps ++ [r.reply y] } }
        | none => x.1)

/-! ### PLDM and MCTP control (R527) -/

/-- PLDM_COMMAND: the type, the command code and the completion code of the answer, then its data: a sensor's reading, or
contents that the manual leaves to the PLDM and MCTP documents. -/
def execPldmCommand (req : PldmReq) (s : State) : Host.Outcome State Fault Refusal :=
  if s.phase = .off ∨ s.fw.down.contains .management then .next s
  else
    let open' (type code : Byte) : Answer := .next (s.took.emit (.mgmt ([type, code, 0] ++ leBytes 8 s.free.toNat)))
    match req with
    | .getTid => open' 0 0x02
    | .getVersion => open' 0 0x03
    | .getTypes => open' 0 0x04
    | .getCommands => open' 0 0x05
    | .getSensorReading id => .next (s.emit (.mgmt (match Tab.get none s.bg.sensors id.toNat with
        | some v => [2, 0x11, 0] ++ leBytes 2 v.toNat
        | none => if isSensor id.toNat then [2, 0x11, 0, 0xFF] else [2, 0x11, 0x80])))
    | .getPdr _ => open' 2 0x51
    | .getPdrRepositoryInfo => open' 2 0x50
    | .setEventReceiver eid => .next ({ s with bg := { s.bg with eid := eid } }.emit (.mgmt [2, 0x04, 0]))
    | .mctpControl code => open' 0xFF code
    | .other type code => .next (s.emit (.mgmt [type, code, 0x05]))

end Sys2Proof.Machine
end

