-- ==== Sys2Proof/Machine/Link.lean ====
section
/-!
DEFINITION. What the module makes of its peer's messages (spec/15_twins.md, R455–R464, R467, R472–R475).
-/

namespace Sys2Proof.Machine

/-- The module's whole mirrored state is sent (R459, R463). -/
def State.mirrorAll (s : State) : State :=
  let ofFlask (f : FlaskId) : List MirrorSel :=
    [.flask f, .key f, .moulds f, .setup f, .flaskNet f] ++ (s.flask f).ladleNos.map fun n => .heads (.flask f n)
  let items : List MirrorSel := [.pair] ++ s.liveFlasks.flatMap ofFlask ++
    ((s.xport.qps.filter fun e => decide (e.2.st ≠ .free)).map fun e => .qp e.1) ++
    ((s.ing.slots.filter fun x => ((s.area x.area).map fun (a : Area) => !a.peer).getD false).map fun x => .index x.area x.slot x.flask) ++
    ((List.range 8).map fun p => .mac (BitVec.ofNat 3 p)) ++ [.rules, .srcIp]
  items.foldl (fun s x => s.twinSend (.mirror (s.mirrorItem x))) s

/-- The module enters PAIRED once its state is copied. -/
def State.enterPaired (s : State) : State :=
  let s := s.mirrorAll
  s.setTwin { s.twin with st := .paired }

/-- A message that is dropped (R455). -/
def State.rxBad (s : State) : State := s.count Reg.twinRxBad

/-- The peer's mirrored item replaces what it sent before. -/
def State.keepMirror (s : State) (x : MirrorItem) : State :=
  s.setTwin { s.twin with mirror := s.twin.mirror.filter (fun y => itemSel y != itemSel x) ++ [x] }

/-- The fenced module's part of a readmission (R474): its flasks are destroyed, squashing at once; it takes the survivor's epoch,
and clears the rules in the range of `TWIN.RULES_IN`. -/
def State.readmitted (s : State) (epoch : Word) : State :=
  let s := s.liveFlasks.foldl (fun (s : State) f =>
    let s := if (s.flask f).job.isNone then s.startDestroy f [] else s
    let s := s.setFlask f { s.flask f with st := .destroying, job := (s.flask f).job.map fun (j : FlaskJob) => { j with destroy := true, mode := 1 } }
    s.finishJob f) s
  let r := s.reg Reg.twinRulesIn
  let base := bits r.toNat 12 0
  let s := s.putRules base (List.replicate (min (bits r.toNat 29 16) (8192 - base)) (List.replicate 16 0))
  let s := ((s.setTwin { s.twin with epoch := epoch, seqOut := 0 }).writeTrip .pairEpoch).enterPaired
  (s.postOwner 0x090A St.success 0xFFF []).hello

/-- Whether a public key hashes to the peer identity of the credential (R459). -/
def State.peerKnown (s : State) (pub : BitVec 256) : Bool :=
  (sha512 (leBytes 32 pub.toNat)).take 16 == (List.range 4).flatMap fun i => Word.bytes (s.reg (Reg.twinPeerId + 4 * i))

/-- A hello under the module's own epoch; `idOk` says whether its key is the peer's. -/
def State.helloEqual (s : State) (idOk : Bool) (peer : PeerSt) : State :=
  let s := s.setTwin { s.twin with peer := some peer }
  match s.twin.st with
  | .pairing =>
    if !idOk then s.failPair TwSt.credential
    else
      let tag := s.twin.pairTag
      let s := s.hello
      let s := ((s.setTwin { s.twin with epoch := 1, pairTag := none }).writeTrip .pairEpoch).enterPaired
      let s := s.postOwner 0x0901 St.success 0xFFF []
      match tag with
      | some t => s.complete .admin t St.success 0 []
      | none => s
  | .joining => if peer = .survivor then s.enterFenced else s.hello.enterPaired
  | .paired => if peer = .joining then s.hello.mirrorAll else s
  | .suspect => s.setTwin { s.twin with st := .paired }
  | .split => s.hello.enterPaired.postOwner 0x090B St.success 0xFFF []
  | .survivor => match s.twin.readmitTag with
    | some t =>
      let s := (s.setTwin { s.twin with readmitTag := none }).enterPaired
      (s.postOwner 0x090A St.success 0xFFF []).complete .admin t St.success 0 []
    | none => if peer = .survivor ∧ s.twin.roleB then s.enterFenced else s.hello
  | .fenced => if peer = .readmitting then s.readmitted s.twin.epoch else s
  | .unpaired => s

/-- A hello of an older epoch: a module that was joining is the survivor, and tells the peer so (R472, R473). -/
def State.helloOlder (s : State) (peer : PeerSt) : State :=
  let s := s.setTwin { s.twin with peer := some peer, st := if s.twin.st = .joining then .survivor else s.twin.st }
  if peer = .fenced then s else s.hello

/-- A hello of a newer epoch reaches a fenced module. -/
def State.helloNewer (s : State) (epoch : Word) (peer : PeerSt) : State :=
  let s := s.setTwin { s.twin with peer := some peer }
  if peer = .readmitting then s.readmitted epoch else s.hello

/-- A block of a peer's ingot (R480, R481): the first ingot of a series allocates its slots, by the setup that the peer has
mirrored; the header block makes the slot complete or incomplete. -/
def State.ingotBlock (s : State) (area : Nat) (f : FlaskId) (slot block : Nat) (bytes : List Byte) : State :=
  let dev : Word := s.peerId.extractLsb' 0 32
  let mine (s : State) : Option IngotSlot := s.ing.slots.find? fun x => decide (x.area = area ∧ x.slot = slot) && x.device == dev && x.flask == f
  let setup := s.twin.mirror.findSome? fun x => match x with
    | .setup g (some p) _ => if g = f then some p else none
    | _ => none
  match s.area area with
  | none => s
  | some a =>
    if !a.peer then s
    else
      let s := if (mine s).isSome then s else match setup with
        | none => s
        | some p => (s.giveSlots area p.slotBlocks.toNat dev f (List.range p.slots.toNat)).getD s
      match mine s with
      | none => s
      | some x =>
        if x.blocks ≤ block then s
        else
          let s := s.emit (.ingotBlock a.port (x.start + block) bytes)
          if block ≠ 0 then s
          else match hdrRead bytes with
            | none => s.clearIngot x
            | some g => { s with ing := { s.ing with slots := s.ing.slots.map fun z => if z = x then { z with ingot := some g } else z } }

/-- The flask whose granule a window address lies in: what is read there is that flask's data (R456). -/
def State.windowFlask (s : State) (a : BitVec 44) : Option FlaskId :=
  let d := s.mem.ownerOf (faGranule (2 * 2 ^ 44 + a.toNat))
  if d.toNat < 256 then some (BitVec.ofNat 8 d.toNat) else none

/-- A message under the module's own epoch is acted on by its type, its body opened. -/
def State.twinBody (s : State) (epoch : Word) (b : TwinBody) : Answer :=
  let s := if s.twin.st = .suspect then s.setTwin { s.twin with st := .paired } else s
  let live := decide (s.twin.st = .paired)
  match b with
  | .heartbeat => .next s
  | .hello pub peer => .next (s.helloEqual (s.peerKnown pub) peer)
  | .mirror x => .next (if s.twin.st = .unpaired ∨ s.twin.st = .fenced then s else s.keepMirror x)
  | .windowWrite _ addr bytes =>
    if !live then .next s.rxBad else .next (s.hubWrite 0x100 .hub (2 * 2 ^ 44 + addr.toNat) bytes).1
  | .windowRead addr len =>
    if !live then .next s.rxBad
    else
      let r := s.hubRead 0x100 .hub (2 * 2 ^ 44 + addr.toNat) len.toNat
      .next (r.2.1.twinSend (.readResp (s.windowFlask addr) (if r.2.2 = .ok then r.1 else [])))
  | .readResp _ bytes => match s.twin.reads with
    | [] => .next s.rxBad
    | r :: rest =>
      let y : Reply := if bytes.length < 4 then .bus else .data ⟨BitVec.ofNat 32 (leNat (bytes.take 4)), Tag.raw⟩
      let s := s.setTwin { s.twin with reads := rest }
      .next { s with fab := { s.fab with reps := s.fab.reps ++ [r.reply y] } }
  | .ingotStream area f slot block bytes =>
    .next (if live then s.ingotBlock area.toNat f slot.toNat block.toNat bytes else s.rxBad)
  | .register write off v =>
    if write then s.anyWrite .peer off.toNat v epoch
    else
      let r := s.anyRead .peer off.toNat
      .next ((r.2.emit (.value .peer r.1)).twinSend (.readResp none (Word.bytes r.1)))

/-- Whether a message's number passes the check of R455, under the last epoch accepted. -/
def Twin.accepts (t : Twin) (m : TwinMsg) : Bool :=
  !(decide (t.peerEpoch ≠ 0) && serialOlder m.epoch t.peerEpoch) &&
    !(decide (m.epoch = t.peerEpoch) && (t.seqIn.map fun n => decide (m.seq.toNat ≤ n)).getD false)

/-- Whether a write through the window must wait for the copy of a frozen granule (R22). -/
def State.windowWaits (s : State) : TwinBody → Bool × State
  | .windowWrite _ addr bytes => if s.twin.st = .paired then s.writeWaits 0x100 (2 * 2 ^ 44 + addr.toNat) bytes.length else (false, s)
  | _ => (false, s)

/-- TWIN_MESSAGE_RECEIVE. While a breakout holds, the link's cipher stands (R444) and the message waits. -/
def execTwinMessageReceive (msg : TwinMsg) (s : State) : Host.Outcome State Fault Refusal :=
  let t := s.twin
  let own : Word := if t.st = .pairing then 1 else t.epoch
  if !s.phase.serves || decide (t.st = .unpaired) || t.kp.isNone || !t.link || s.breakout then .next s
  else if !s.tagged msg || !t.accepts msg || (decide (t.st = .pairing) && decide (msg.epoch ≠ 1)) then .next s.rxBad
  else
    let w := s.windowWaits msg.body
    if w.1 then .next w.2
    else
      let s := s.setTwin { t with peerEpoch := msg.epoch, seqIn := some msg.seq.toNat }
      if msg.epoch = own then match s.openBody msg with
        | none => .next s.rxBad
        | some b => s.twinBody msg.epoch b
      else if serialOlder own msg.epoch then
        let s := if t.st = .fenced then s else s.enterFenced
        .next (match msg.body with
          | .hello _ peer => s.helloNewer msg.epoch peer
          | _ => s)
      else match msg.body with
        | .hello _ peer => .next (s.helloOlder peer)
        | .heartbeat => .next s
        | _ => .next s.rxBad

end Sys2Proof.Machine
end

