-- ==== Sys2Proof/Machine/Dispatch.lean ====
section
/-!
DEFINITION. Which meaning each command has.
-/

namespace Sys2Proof.Machine

def exec (i : Instr) (s : State) : Host.Outcome State Fault Refusal :=
  match i with
  | .add p f => Sys2Proof.Machine.execAdd p f s
  | .sub p f => Sys2Proof.Machine.execSub p f s
  | .and p f => Sys2Proof.Machine.execAnd p f s
  | .or p f => Sys2Proof.Machine.execOr p f s
  | .xor p f => Sys2Proof.Machine.execXor p f s
  | .andn p f => Sys2Proof.Machine.execAndn p f s
  | .shl p f => Sys2Proof.Machine.execShl p f s
  | .shr p f => Sys2Proof.Machine.execShr p f s
  | .sar p f => Sys2Proof.Machine.execSar p f s
  | .rol p f => Sys2Proof.Machine.execRol p f s
  | .mul p f => Sys2Proof.Machine.execMul p f s
  | .mulhs p f => Sys2Proof.Machine.execMulhs p f s
  | .mulhu p f => Sys2Proof.Machine.execMulhu p f s
  | .divs p f => Sys2Proof.Machine.execDivs p f s
  | .divu p f => Sys2Proof.Machine.execDivu p f s
  | .rems p f => Sys2Proof.Machine.execRems p f s
  | .remu p f => Sys2Proof.Machine.execRemu p f s
  | .min p f => Sys2Proof.Machine.execMin p f s
  | .max p f => Sys2Proof.Machine.execMax p f s
  | .minu p f => Sys2Proof.Machine.execMinu p f s
  | .maxu p f => Sys2Proof.Machine.execMaxu p f s
  | .clz p f => Sys2Proof.Machine.execClz p f s
  | .popc p f => Sys2Proof.Machine.execPopc p f s
  | .mov p f => Sys2Proof.Machine.execMov p f s
  | .adc p f => Sys2Proof.Machine.execAdc p f s
  | .sbc p f => Sys2Proof.Machine.execSbc p f s
  | .addi p f => Sys2Proof.Machine.execAddi p f s
  | .andi p f => Sys2Proof.Machine.execAndi p f s
  | .ori p f => Sys2Proof.Machine.execOri p f s
  | .xori p f => Sys2Proof.Machine.execXori p f s
  | .shli p f => Sys2Proof.Machine.execShli p f s
  | .shri p f => Sys2Proof.Machine.execShri p f s
  | .sari p f => Sys2Proof.Machine.execSari p f s
  | .muli p f => Sys2Proof.Machine.execMuli p f s
  | .movi p f => Sys2Proof.Machine.execMovi p f s
  | .movui p f => Sys2Proof.Machine.execMovui p f s
  | .movhi p f => Sys2Proof.Machine.execMovhi p f s
  | .cmp p f => Sys2Proof.Machine.execCmp p f s
  | .cmpi p f => Sys2Proof.Machine.execCmpi p f s
  | .fcmp p f => Sys2Proof.Machine.execFcmp p f s
  | .tcmp p f => Sys2Proof.Machine.execTcmp p f s
  | .tchk p f => Sys2Proof.Machine.execTchk p f s
  | .tget p f => Sys2Proof.Machine.execTget p f s
  | .tset p f => Sys2Proof.Machine.execTset p f s
  | .tsetr p f => Sys2Proof.Machine.execTsetr p f s
  | .fadd p f => Sys2Proof.Machine.execFadd p f s
  | .fsub p f => Sys2Proof.Machine.execFsub p f s
  | .fmul p f => Sys2Proof.Machine.execFmul p f s
  | .fma p f => Sys2Proof.Machine.execFma p f s
  | .fmin p f => Sys2Proof.Machine.execFmin p f s
  | .fmax p f => Sys2Proof.Machine.execFmax p f s
  | .fneg p f => Sys2Proof.Machine.execFneg p f s
  | .i2f p f => Sys2Proof.Machine.execI2f p f s
  | .f2i p f => Sys2Proof.Machine.execF2i p f s
  | .fxadd p f => Sys2Proof.Machine.execFxadd p f s
  | .fxsub p f => Sys2Proof.Machine.execFxsub p f s
  | .fxmul p f => Sys2Proof.Machine.execFxmul p f s
  | .fx2f p f => Sys2Proof.Machine.execFx2f p f s
  | .f2fx p f => Sys2Proof.Machine.execF2fx p f s
  | .fdiv p f => Sys2Proof.Machine.execFdiv p f s
  | .fsqrt p f => Sys2Proof.Machine.execFsqrt p f s
  | .ld p f => Sys2Proof.Machine.execLd p f s
  | .ldc p f => Sys2Proof.Machine.execLdc p f s
  | .lea p f => Sys2Proof.Machine.execLea p f s
  | .ldsub p f => Sys2Proof.Machine.execLdsub p f s
  | .st p f => Sys2Proof.Machine.execSt p f s
  | .stb p f => Sys2Proof.Machine.execStb p f s
  | .sth p f => Sys2Proof.Machine.execSth p f s
  | .tas p f => Sys2Proof.Machine.execTas p f s
  | .lres p f => Sys2Proof.Machine.execLres p f s
  | .scond p f => Sys2Proof.Machine.execScond p f s
  | .b p f => Sys2Proof.Machine.execB p f s
  | .bl p f => Sys2Proof.Machine.execBl p f s
  | .call p f => Sys2Proof.Machine.execCall p f s
  | .ret p f => Sys2Proof.Machine.execRet p f s
  | .jr p f => Sys2Proof.Machine.execJr p f s
  | .recv p f => Sys2Proof.Machine.execRecv p f s
  | .rtry p f => Sys2Proof.Machine.execRtry p f s
  | .peek p f => Sys2Proof.Machine.execPeek p f s
  | .send p f => Sys2Proof.Machine.execSend p f s
  | .stry p f => Sys2Proof.Machine.execStry p f s
  | .waitany p f => Sys2Proof.Machine.execWaitany p f s
  | .pstat p f => Sys2Proof.Machine.execPstat p f s
  | .tdec p f => Sys2Proof.Machine.execTdec p f s
  | .tinc p f => Sys2Proof.Machine.execTinc p f s
  | .twait p f => Sys2Proof.Machine.execTwait p f s
  | .barr p f => Sys2Proof.Machine.execBarr p f s
  | .barw p f => Sys2Proof.Machine.execBarw p f s
  | .lock p f => Sys2Proof.Machine.execLock p f s
  | .trylock p f => Sys2Proof.Machine.execTrylock p f s
  | .unlock p f => Sys2Proof.Machine.execUnlock p f s
  | .fence p f => Sys2Proof.Machine.execFence p f s
  | .edot p f => Sys2Proof.Machine.execEdot p f s
  | .epack p f => Sys2Proof.Machine.execEpack p f s
  | .emx p f => Sys2Proof.Machine.execEmx p f s
  | .ezero p f => Sys2Proof.Machine.execEzero p f s
  | .erd p f => Sys2Proof.Machine.execErd p f s
  | .ewait p f => Sys2Proof.Machine.execEwait p f s
  | .edrift p f => Sys2Proof.Machine.execEdrift p f s
  | .bmv p f => Sys2Proof.Machine.execBmv p f s
  | .bwait p f => Sys2Proof.Machine.execBwait p f s
  | .rdref p f => Sys2Proof.Machine.execRdref p f s
  | .rdrefh p f => Sys2Proof.Machine.execRdrefh p f s
  | .rdctr p f => Sys2Proof.Machine.execRdctr p f s
  | .rdsys p f => Sys2Proof.Machine.execRdsys p f s
  | .wrsys p f => Sys2Proof.Machine.execWrsys p f s
  | .tmset p f => Sys2Proof.Machine.execTmset p f s
  | .tmclr p f => Sys2Proof.Machine.execTmclr p f s
  | .wdkick p f => Sys2Proof.Machine.execWdkick p f s
  | .trapret p f => Sys2Proof.Machine.execTrapret p f s
  | .ifence p f => Sys2Proof.Machine.execIfence p f s
  | .halt p f => Sys2Proof.Machine.execHalt p f s
  | .rdseg p f => Sys2Proof.Machine.execRdseg p f s
  | .raise p f => Sys2Proof.Machine.execRaise p f s
  | .rdid p f => Sys2Proof.Machine.execRdid p f s
  | .coreNop p f => Sys2Proof.Machine.execCoreNop p f s
  | .sysPostEvent p f => Sys2Proof.Machine.execSysPostEvent p f s
  | .cast h flask env => Sys2Proof.Machine.execCast h flask env s
  | .create h p => Sys2Proof.Machine.execCreate h p s
  | .reset h flask mode resv => Sys2Proof.Machine.execReset h flask mode resv s
  | .destroy h flask => Sys2Proof.Machine.execDestroy h flask s
  | .ladleConfig h p => Sys2Proof.Machine.execLadleConfig h p s
  | .abort h tag flask ladle => Sys2Proof.Machine.execAbort h tag flask ladle s
  | .nop h => Sys2Proof.Machine.execNop h s
  | .dispatch h p => Sys2Proof.Machine.execDispatch h p s
  | .fwStage h offset length => Sys2Proof.Machine.execFwStage h offset length s
  | .fwActivate h drainMs flags => Sys2Proof.Machine.execFwActivate h drainMs flags s
  | .netClassOpen h cls slotLog2 => Sys2Proof.Machine.execNetClassOpen h cls slotLog2 s
  | .netClassClose h cls => Sys2Proof.Machine.execNetClassClose h cls s
  | .netSend h p => Sys2Proof.Machine.execNetSend h p s
  | .shaperSet h p => Sys2Proof.Machine.execShaperSet h p s
  | .qpCreate h qpn => Sys2Proof.Machine.execQpCreate h qpn s
  | .qpConnect h p resv => Sys2Proof.Machine.execQpConnect h p resv s
  | .qpCcSet h qpn p => Sys2Proof.Machine.execQpCcSet h qpn p s
  | .qpClose h qpn => Sys2Proof.Machine.execQpClose h qpn s
  | .qpReset h qpn => Sys2Proof.Machine.execQpReset h qpn s
  | .qpDestroy h qpn => Sys2Proof.Machine.execQpDestroy h qpn s
  | .mrRegister h p => Sys2Proof.Machine.execMrRegister h p s
  | .mrPages h key first count present => Sys2Proof.Machine.execMrPages h key first count present s
  | .mrRevoke h key => Sys2Proof.Machine.execMrRevoke h key s
  | .xpSend h p => Sys2Proof.Machine.execXpSend h p s
  | .xpWrite h p => Sys2Proof.Machine.execXpWrite h p s
  | .xpRead h p => Sys2Proof.Machine.execXpRead h p s
  | .volCreate h flask volume port start blocks => Sys2Proof.Machine.execVolCreate h flask volume port start blocks s
  | .volDestroy h flask volume => Sys2Proof.Machine.execVolDestroy h flask volume s
  | .drivePower h port ps => Sys2Proof.Machine.execDrivePower h port ps s
  | .storRead h p => Sys2Proof.Machine.execStorRead h p s
  | .storWrite h p => Sys2Proof.Machine.execStorWrite h p s
  | .storFlush h volume => Sys2Proof.Machine.execStorFlush h volume s
  | .storTrim h p => Sys2Proof.Machine.execStorTrim h p s
  | .ingest h binding src length => Sys2Proof.Machine.execIngest h binding src length s
  | .keyUnwrap h p => Sys2Proof.Machine.execKeyUnwrap h p s
  | .keyClear h slot => Sys2Proof.Machine.execKeyClear h slot s
  | .keyAssign h flask first count => Sys2Proof.Machine.execKeyAssign h flask first count s
  | .cvCompute h p => Sys2Proof.Machine.execCvCompute h p s
  | .attest h nonce dest flask => Sys2Proof.Machine.execAttest h nonce dest flask s
  | .mouldKeySet h keyId clear pubkey => Sys2Proof.Machine.execMouldKeySet h keyId clear pubkey s
  | .debugKeySet h clear pubkey => Sys2Proof.Machine.execDebugKeySet h clear pubkey s
  | .dukProvision h offset => Sys2Proof.Machine.execDukProvision h offset s
  | .dukRotate h offset => Sys2Proof.Machine.execDukRotate h offset s
  | .breakoutRaise h level => Sys2Proof.Machine.execBreakoutRaise h level s
  | .breakoutClear h => Sys2Proof.Machine.execBreakoutClear h s
  | .twinPair h offset linkTrains => Sys2Proof.Machine.execTwinPair h offset linkTrains s
  | .twinPolicy h p => Sys2Proof.Machine.execTwinPolicy h p s
  | .twinReadmit h => Sys2Proof.Machine.execTwinReadmit h s
  | .twinUnpair h => Sys2Proof.Machine.execTwinUnpair h s
  | .ingotArea h p => Sys2Proof.Machine.execIngotArea h p s
  | .ingotSetup h p => Sys2Proof.Machine.execIngotSetup h p s
  | .ingotTake h flask => Sys2Proof.Machine.execIngotTake h flask s
  | .ingotRestore h flask fromPeer resv peerFlask number data => Sys2Proof.Machine.execIngotRestore h flask fromPeer resv peerFlask number data s
  | .ceilingSet h flask mhz => Sys2Proof.Machine.execCeilingSet h flask mhz s
  | .pmonConfig h p => Sys2Proof.Machine.execPmonConfig h p s
  | .pmonRead h kind first last dest => Sys2Proof.Machine.execPmonRead h kind first last dest s
  | .sysRegRead p f => Sys2Proof.Machine.execSysRegRead p f s
  | .sysRegWrite p f => Sys2Proof.Machine.execSysRegWrite p f s
  | .sysWriteDescriptor p f => Sys2Proof.Machine.execSysWriteDescriptor p f s
  | .sysCoreControl p f => Sys2Proof.Machine.execSysCoreControl p f s
  | .sysHeartbeat p f => Sys2Proof.Machine.execSysHeartbeat p f s
  | .sysTapRecord p f => Sys2Proof.Machine.execSysTapRecord p f s
  | .sysWait p f => Sys2Proof.Machine.execSysWait p f s
  | .memoryResponse p => Sys2Proof.Machine.execMemoryResponse p s
  | .postedStoreError p => Sys2Proof.Machine.execPostedStoreError p s
  | .writeAcknowledgement p => Sys2Proof.Machine.execWriteAcknowledgement p s
  | .memoryAccessAtHome req ecc => Sys2Proof.Machine.execMemoryAccessAtHome req ecc s
  | .cowCopyComplete granule => Sys2Proof.Machine.execCowCopyComplete granule s
  | .streamWordArrival a => Sys2Proof.Machine.execStreamWordArrival a s
  | .creditReturn src port n => Sys2Proof.Machine.execCreditReturn src port n s
  | .syncOpAtHome req => Sys2Proof.Machine.execSyncOpAtHome req s
  | .syncReply p => Sys2Proof.Machine.execSyncReply p s
  | .syncWaitRetry p => Sys2Proof.Machine.execSyncWaitRetry p s
  | .lockAbandon c => Sys2Proof.Machine.execLockAbandon c s
  | .blockMoveComplete p slot => Sys2Proof.Machine.execBlockMoveComplete p slot s
  | .engineOpComplete c e => Sys2Proof.Machine.execEngineOpComplete c e s
  | .operandTimeout c e => Sys2Proof.Machine.execOperandTimeout c e s
  | .coreTimerExpiry p => Sys2Proof.Machine.execCoreTimerExpiry p s
  | .watchdogExpiry p => Sys2Proof.Machine.execWatchdogExpiry p s
  | .reservationTimeout p => Sys2Proof.Machine.execReservationTimeout p s
  | .islandClockAdjust cl sharePct => Sys2Proof.Machine.execIslandClockAdjust cl sharePct s
  | .coreFailureDeclare c cause => Sys2Proof.Machine.execCoreFailureDeclare c cause s
  | .queuedCastStart => Sys2Proof.Machine.execQueuedCastStart s
  | .fpCtlReset ep f => Sys2Proof.Machine.execFpCtlReset ep f s
  | .flaskDrainComplete f => Sys2Proof.Machine.execFlaskDrainComplete f s
  | .flaskDrainTimeout f => Sys2Proof.Machine.execFlaskDrainTimeout f s
  | .fpSqdb ep f n tail => Sys2Proof.Machine.execFpSqdb ep f n tail s
  | .fpCqdb ep f n head => Sys2Proof.Machine.execFpCqdb ep f n head s
  | .admSqdb m tail => Sys2Proof.Machine.execAdmSqdb m tail s
  | .admCqdb m head => Sys2Proof.Machine.execAdmCqdb m head s
  | .commandTimeout l tag => Sys2Proof.Machine.execCommandTimeout l tag s
  | .dispatchDone f n tag => Sys2Proof.Machine.execDispatchDone f n tag s
  | .activationDrainEnd expired accepted => Sys2Proof.Machine.execActivationDrainEnd expired accepted s
  | .firmwareHeartbeatLapse fp => Sys2Proof.Machine.execFirmwareHeartbeatLapse fp s
  | .firmwareProcessorRestarted fp => Sys2Proof.Machine.execFirmwareProcessorRestarted fp s
  | .hostBeat m n => Sys2Proof.Machine.execHostBeat m n s
  | .hostLivenessLapse ep => Sys2Proof.Machine.execHostLivenessLapse ep s
  | .hostHoldExpiry ep => Sys2Proof.Machine.execHostHoldExpiry ep s
  | .configRequest ep offset write => Sys2Proof.Machine.execConfigRequest ep offset write s
  | .initiateFlr ep => Sys2Proof.Machine.execInitiateFlr ep s
  | .flrReady ep => Sys2Proof.Machine.execFlrReady ep s
  | .busMasterEnableChange ep on => Sys2Proof.Machine.execBusMasterEnableChange ep on s
  | .powerStateChange ep d3 => Sys2Proof.Machine.execPowerStateChange ep d3 s
  | .linkDown ep => Sys2Proof.Machine.execLinkDown ep s
  | .inboundWriteTlp ep offset bytes ro => Sys2Proof.Machine.execInboundWriteTlp ep offset bytes ro s
  | .inboundReadTlp ep offset len ro => Sys2Proof.Machine.execInboundReadTlp ep offset len ro s
  | .inboundAtomicop ep offset ro => Sys2Proof.Machine.execInboundAtomicop ep offset ro s
  | .winCommitIn m ep => Sys2Proof.Machine.execWinCommitIn m ep s
  | .winCommitOut m ep => Sys2Proof.Machine.execWinCommitOut m ep s
  | .commitPoint ep => Sys2Proof.Machine.execCommitPoint ep s
  | .winShadowWrite m ep outbound entry word value => Sys2Proof.Machine.execWinShadowWrite m ep outbound entry word value s
  | .outboundRequest req => Sys2Proof.Machine.execOutboundRequest req s
  | .outboundReadCompletion ep req cpl => Sys2Proof.Machine.execOutboundReadCompletion ep req cpl s
  | .completionTimeout ep req => Sys2Proof.Machine.execCompletionTimeout ep req s
  | .msixVectorControlWrite ep entry word value => Sys2Proof.Machine.execMsixVectorControlWrite ep entry word value s
  | .onoteAck m ep => Sys2Proof.Machine.execOnoteAck m ep s
  | .attentionButtonPress sinceLastMs => Sys2Proof.Machine.execAttentionButtonPress sinceLastMs s
  | .frameReceive port bytes fcsOk => Sys2Proof.Machine.execFrameReceive port bytes fcsOk s
  | .frameRelease port => Sys2Proof.Machine.execFrameRelease port s
  | .fragmentHoldExpiry idx => Sys2Proof.Machine.execFragmentHoldExpiry idx s
  | .fragmentEntryExpiry idx => Sys2Proof.Machine.execFragmentEntryExpiry idx s
  | .netRuleWrite m index => Sys2Proof.Machine.execNetRuleWrite m index s
  | .netRuleRead m index => Sys2Proof.Machine.execNetRuleRead m index s
  | .frameTransmitComplete port => Sys2Proof.Machine.execFrameTransmitComplete port s
  | .shaperRefill index => Sys2Proof.Machine.execShaperRefill index s
  | .portLinkChange port up lanes => Sys2Proof.Machine.execPortLinkChange port up lanes s
  | .pfcFrameReceive port paused => Sys2Proof.Machine.execPfcFrameReceive port paused s
  | .xpRxDataPacket port hdr kind payload env => Sys2Proof.Machine.execXpRxDataPacket port hdr kind payload env s
  | .xpRxReadReq port hdr key remote length env => Sys2Proof.Machine.execXpRxReadReq port hdr key remote length env s
  | .xpRxAck hdr ack rttNs cutDue => Sys2Proof.Machine.execXpRxAck hdr ack rttNs cutDue s
  | .xpRxNak hdr ack code => Sys2Proof.Machine.execXpRxNak hdr ack code s
  | .xpRxProbe port hdr => Sys2Proof.Machine.execXpRxProbe port hdr s
  | .xpRetransmitTimeout qpn psn => Sys2Proof.Machine.execXpRetransmitTimeout qpn psn s
  | .xpRnrResend qpn psn => Sys2Proof.Machine.execXpRnrResend qpn psn s
  | .xpFaultResend qpn psn => Sys2Proof.Machine.execXpFaultResend qpn psn s
  | .xpPathProbe qpn path => Sys2Proof.Machine.execXpPathProbe qpn path s
  | .xpStallLimit idx => Sys2Proof.Machine.execXpStallLimit idx s
  | .xpPlacementRetire idx => Sys2Proof.Machine.execXpPlacementRetire idx s
  | .driveCompletion port id r => Sys2Proof.Machine.execDriveCompletion port id r s
  | .driveMemoryRequest port f addr len write => Sys2Proof.Machine.execDriveMemoryRequest port f addr len write s
  | .driveAsyncEvent port logData => Sys2Proof.Machine.execDriveAsyncEvent port logData s
  | .drivePresenceDetect port => Sys2Proof.Machine.execDrivePresenceDetect port s
  | .storPowerEn m port on => Sys2Proof.Machine.execStorPowerEn m port on s
  | .slotPowerGood port good => Sys2Proof.Machine.execSlotPowerGood port good s
  | .driveReady port ident => Sys2Proof.Machine.execDriveReady port ident s
  | .slotAttentionPress port sinceLastMs => Sys2Proof.Machine.execSlotAttentionPress port sinceLastMs s
  | .driveSurpriseRemoval port => Sys2Proof.Machine.execDriveSurpriseRemoval port s
  | .ingestJobStart f binding => Sys2Proof.Machine.execIngestJobStart f binding s
  | .ingestJobEnd f binding => Sys2Proof.Machine.execIngestJobEnd f binding s
  | .scorerScore f region slot => Sys2Proof.Machine.execScorerScore f region slot s
  | .scorerReset f region slot => Sys2Proof.Machine.execScorerReset f region slot s
  | .scorerRebuild f region slot => Sys2Proof.Machine.execScorerRebuild f region slot s
  | .scorerScanComplete f region slot channel => Sys2Proof.Machine.execScorerScanComplete f region slot channel s
  | .summaryFill f region head block => Sys2Proof.Machine.execSummaryFill f region head block s
  | .cvRequestStart engine => Sys2Proof.Machine.execCvRequestStart engine s
  | .cvRequestComplete engine => Sys2Proof.Machine.execCvRequestComplete engine s
  | .breakoutTrigger trigger asserts => Sys2Proof.Machine.execBreakoutTrigger trigger asserts s
  | .ownClaim m priority nonce epoch => Sys2Proof.Machine.execOwnClaim m priority nonce epoch s
  | .electionWindowClose => Sys2Proof.Machine.execElectionWindowClose s
  | .ownHandover m target nonce => Sys2Proof.Machine.execOwnHandover m target nonce s
  | .ownAccept m nonce => Sys2Proof.Machine.execOwnAccept m nonce s
  | .handoverExpiry => Sys2Proof.Machine.execHandoverExpiry s
  | .ownerLost => Sys2Proof.Machine.execOwnerLost s
  | .ownerHoldExpiry => Sys2Proof.Machine.execOwnerHoldExpiry s
  | .mctpRead offset => Sys2Proof.Machine.execMctpRead offset s
  | .mctpWrite offset value => Sys2Proof.Machine.execMctpWrite offset value s
  | .mctpHeartbeat => Sys2Proof.Machine.execMctpHeartbeat s
  | .mgmtLivenessLapse => Sys2Proof.Machine.execMgmtLivenessLapse s
  | .olChal scope => Sys2Proof.Machine.execOlChal scope s
  | .olResp keyIndex scope sig ageMs => Sys2Proof.Machine.execOlResp keyIndex scope sig ageMs s
  | .debugLockoutExpiry => Sys2Proof.Machine.execDebugLockoutExpiry s
  | .twinMessageReceive msg => Sys2Proof.Machine.execTwinMessageReceive msg s
  | .twinHeartbeatSend => Sys2Proof.Machine.execTwinHeartbeatSend s
  | .mirrorSend item => Sys2Proof.Machine.execMirrorSend item s
  | .twinPulseLapse => Sys2Proof.Machine.execTwinPulseLapse s
  | .twinMgmtQuery => Sys2Proof.Machine.execTwinMgmtQuery s
  | .twinMgmtAnswer a => Sys2Proof.Machine.execTwinMgmtAnswer a s
  | .twinConfirm m id => Sys2Proof.Machine.execTwinConfirm m id s
  | .twinFlaskRestart data => Sys2Proof.Machine.execTwinFlaskRestart data s
  | .twinUnconfirmedTick => Sys2Proof.Machine.execTwinUnconfirmedTick s
  | .twinLinkChange up => Sys2Proof.Machine.execTwinLinkChange up s
  | .ingotStepBoundary f => Sys2Proof.Machine.execIngotStepBoundary f s
  | .ingotQuietTimeout f => Sys2Proof.Machine.execIngotQuietTimeout f s
  | .ingotStreamComplete f ownCopy peerCopy => Sys2Proof.Machine.execIngotStreamComplete f ownCopy peerCopy s
  | .powerOnReset env => Sys2Proof.Machine.execPowerOnReset env s
  | .brownOut => Sys2Proof.Machine.execBrownOut s
  | .inputFuseOpen => Sys2Proof.Machine.execInputFuseOpen s
  | .resetPin lowNs taken => Sys2Proof.Machine.execResetPin lowNs taken s
  | .moduleWatchdogExpiry env => Sys2Proof.Machine.execModuleWatchdogExpiry env s
  | .rstSwreset m value env => Sys2Proof.Machine.execRstSwreset m value env s
  | .debugReset domain env => Sys2Proof.Machine.execDebugReset domain env s
  | .clockFailure domain env => Sys2Proof.Machine.execClockFailure domain env s
  | .lockUpReset env => Sys2Proof.Machine.execLockUpReset env s
  | .domainClockStable domain => Sys2Proof.Machine.execDomainClockStable domain s
  | .domainStableTimeout domain env => Sys2Proof.Machine.execDomainStableTimeout domain env s
  | .bistPreconditionCheck env => Sys2Proof.Machine.execBistPreconditionCheck env s
  | .optionWordsWrite => Sys2Proof.Machine.execOptionWordsWrite s
  | .rstModeReqTest m => Sys2Proof.Machine.execRstModeReqTest m s
  | .rstModeReqService m => Sys2Proof.Machine.execRstModeReqService m s
  | .bistCtlStart m => Sys2Proof.Machine.execBistCtlStart m s
  | .bistCtlFuse m => Sys2Proof.Machine.execBistCtlFuse m s
  | .runTimeBistDone pass repairs => Sys2Proof.Machine.execRunTimeBistDone pass repairs s
  | .memFlipArm m => Sys2Proof.Machine.execMemFlipArm m s
  | .fettleSramLine cl ecc word => Sys2Proof.Machine.execFettleSramLine cl ecc word s
  | .fettleLpddrUnit channel ecc codeword => Sys2Proof.Machine.execFettleLpddrUnit channel ecc codeword s
  | .lpddrCalibration channel driftPct stepOk => Sys2Proof.Machine.execLpddrCalibration channel driftPct stepOk s
  | .calibrationRetry channel stepOk => Sys2Proof.Machine.execCalibrationRetry channel stepOk s
  | .calibrationSave => Sys2Proof.Machine.execCalibrationSave s
  | .driveWearCheck port percentUsed => Sys2Proof.Machine.execDriveWearCheck port percentUsed s
  | .telemetrySample id value ceilings => Sys2Proof.Machine.execTelemetrySample id value ceilings s
  | .thermalTrip die => Sys2Proof.Machine.execThermalTrip die s
  | .pmonSample c counter pc => Sys2Proof.Machine.execPmonSample c counter pc s
  | .pmonHubLoRead idx => Sys2Proof.Machine.execPmonHubLoRead idx s
  | .mateLChange mated => Sys2Proof.Machine.execMateLChange mated s
  | .twinCablePresence present => Sys2Proof.Machine.execTwinCablePresence present s
  | .registerReadClear m offset => Sys2Proof.Machine.execRegisterReadClear m offset s
  | .registerWrite m offset value => Sys2Proof.Machine.execRegisterWrite m offset value s
  | .endpointLinkUp ep speed width flit => Sys2Proof.Machine.execEndpointLinkUp ep speed width flit s
  | .hostPerst ep => Sys2Proof.Machine.execHostPerst ep s
  | .modRstLRelease env => Sys2Proof.Machine.execModRstLRelease env s
  | .peerManagementQuery => Sys2Proof.Machine.execPeerManagementQuery s
  | .pldmCommand req => Sys2Proof.Machine.execPldmCommand req s
  | .thermalTripRelease die => Sys2Proof.Machine.execThermalTripRelease die s
  | .xpGrantProbe qpn => Sys2Proof.Machine.execXpGrantProbe qpn s
  | .xpRxCnp qpn rttNs => Sys2Proof.Machine.execXpRxCnp qpn rttNs s
  | .olDbgRelease domain => Sys2Proof.Machine.execOlDbgRelease domain s

end Sys2Proof.Machine
end

