-- ==== Sys2Proof/Safety.lean ====
section
/-!
DEFINITION. What counts as a safe state and a safe run, in the terms that statements use: the canonical form of the stores,
when a processor issues an instruction unhindered, and what a completed instruction leaves as it was.
-/

namespace Sys2Proof

/-! ### The instructions of the processors -/

/-- The processor that issues a row, its condition, and how it stands to the end of the store; none for the ladle commands and
the events. -/
def Instr.issuedBy : Instr → Option (Proc × BitVec 4 × Machine.Flow)
  | .add p f => some (p, f.cond, .next) | .sub p f => some (p, f.cond, .next) | .and p f => some (p, f.cond, .next)
  | .or p f => some (p, f.cond, .next) | .xor p f => some (p, f.cond, .next) | .andn p f => some (p, f.cond, .next)
  | .shl p f => some (p, f.cond, .next) | .shr p f => some (p, f.cond, .next) | .sar p f => some (p, f.cond, .next)
  | .rol p f => some (p, f.cond, .next) | .mul p f => some (p, f.cond, .next) | .mulhs p f => some (p, f.cond, .next)
  | .mulhu p f => some (p, f.cond, .next) | .divs p f => some (p, f.cond, .next) | .divu p f => some (p, f.cond, .next)
  | .rems p f => some (p, f.cond, .next) | .remu p f => some (p, f.cond, .next) | .min p f => some (p, f.cond, .next)
  | .max p f => some (p, f.cond, .next) | .minu p f => some (p, f.cond, .next) | .maxu p f => some (p, f.cond, .next)
  | .clz p f => some (p, f.cond, .next) | .popc p f => some (p, f.cond, .next) | .mov p f => some (p, f.cond, .next)
  | .adc p f => some (p, f.cond, .next) | .sbc p f => some (p, f.cond, .next) | .addi p f => some (p, f.cond, .next)
  | .andi p f => some (p, f.cond, .next) | .ori p f => some (p, f.cond, .next) | .xori p f => some (p, f.cond, .next)
  | .shli p f => some (p, f.cond, .next) | .shri p f => some (p, f.cond, .next) | .sari p f => some (p, f.cond, .next)
  | .muli p f => some (p, f.cond, .next) | .movi p f => some (p, f.cond, .next) | .movui p f => some (p, f.cond, .next)
  | .movhi p f => some (p, f.cond, .next) | .cmp p f => some (p, f.cond, .next) | .cmpi p f => some (p, f.cond, .next)
  | .fcmp p f => some (p, f.cond, .next) | .tcmp p f => some (p, f.cond, .next) | .tchk p f => some (p, f.cond, .next)
  | .tget p f => some (p, f.cond, .next) | .tset p f => some (p, f.cond, .next) | .tsetr p f => some (p, f.cond, .next)
  | .fadd p f => some (p, f.cond, .next) | .fsub p f => some (p, f.cond, .next) | .fmul p f => some (p, f.cond, .next)
  | .fma p f => some (p, f.cond, .next) | .fmin p f => some (p, f.cond, .next) | .fmax p f => some (p, f.cond, .next)
  | .fneg p f => some (p, f.cond, .next) | .i2f p f => some (p, f.cond, .next) | .f2i p f => some (p, f.cond, .next)
  | .fxadd p f => some (p, f.cond, .next) | .fxsub p f => some (p, f.cond, .next)
  | .fxmul p f => some (p, f.cond, .next) | .fx2f p f => some (p, f.cond, .next) | .f2fx p f => some (p, f.cond, .next)
  | .fdiv p f => some (p, f.cond, .next) | .fsqrt p f => some (p, f.cond, .next) | .ld p f => some (p, f.cond, .next)
  | .ldc p f => some (p, f.cond, .next) | .lea p f => some (p, f.cond, .next) | .ldsub p f => some (p, f.cond, .next)
  | .st p f => some (p, f.cond, .next) | .stb p f => some (p, f.cond, .next) | .sth p f => some (p, f.cond, .next)
  | .tas p f => some (p, f.cond, .next) | .lres p f => some (p, f.cond, .next) | .scond p f => some (p, f.cond, .next)
  | .b p f => some (p, f.cond, .transfer) | .bl p f => some (p, f.cond, .transfer)
  | .call p f => some (p, f.cond, .call) | .ret p f => some (p, f.cond, .transfer)
  | .jr p f => some (p, f.cond, .transfer) | .recv p f => some (p, f.cond, .next)
  | .rtry p f => some (p, f.cond, .next) | .peek p f => some (p, f.cond, .next) | .send p f => some (p, f.cond, .next)
  | .stry p f => some (p, f.cond, .next) | .waitany p f => some (p, f.cond, .next)
  | .pstat p f => some (p, f.cond, .next) | .tdec p f => some (p, f.cond, .next) | .tinc p f => some (p, f.cond, .next)
  | .twait p f => some (p, f.cond, .next) | .barr p f => some (p, f.cond, .next) | .barw p f => some (p, f.cond, .next)
  | .lock p f => some (p, f.cond, .next) | .trylock p f => some (p, f.cond, .next)
  | .unlock p f => some (p, f.cond, .next) | .fence p f => some (p, f.cond, .next)
  | .edot p f => some (p, f.cond, .next) | .epack p f => some (p, f.cond, .next) | .emx p f => some (p, f.cond, .next)
  | .ezero p f => some (p, f.cond, .next) | .erd p f => some (p, f.cond, .next) | .ewait p f => some (p, f.cond, .next)
  | .edrift p f => some (p, f.cond, .next) | .bmv p f => some (p, f.cond, .next)
  | .bwait p f => some (p, f.cond, .next) | .rdref p f => some (p, f.cond, .next)
  | .rdrefh p f => some (p, f.cond, .next) | .rdctr p f => some (p, f.cond, .next)
  | .rdsys p f => some (p, f.cond, .next) | .wrsys p f => some (p, f.cond, .next)
  | .tmset p f => some (p, f.cond, .next) | .tmclr p f => some (p, f.cond, .next)
  | .wdkick p f => some (p, f.cond, .next) | .trapret p f => some (p, f.cond, .transfer)
  | .ifence p f => some (p, f.cond, .next) | .halt p f => some (p, f.cond, .next)
  | .rdseg p f => some (p, f.cond, .next) | .raise p f => some (p, f.cond, .next)
  | .rdid p f => some (p, f.cond, .next) | .coreNop p f => some (p, f.cond, .next)
  | .sysPostEvent p f => some (p, f.cond, .next) | .sysRegRead p f => some (p, f.cond, .next)
  | .sysRegWrite p f => some (p, f.cond, .next) | .sysWriteDescriptor p f => some (p, f.cond, .next)
  | .sysCoreControl p f => some (p, f.cond, .next) | .sysHeartbeat p f => some (p, f.cond, .next)
  | .sysTapRecord p f => some (p, f.cond, .next) | .sysWait p f => some (p, f.cond, .next)
  | .cast _ _ _ | .create _ _ | .reset _ _ _ _ | .destroy _ _ | .ladleConfig _ _ | .abort _ _ _ _ | .nop _
  | .dispatch _ _ | .fwStage _ _ _ | .fwActivate _ _ _ | .netClassOpen _ _ _ | .netClassClose _ _ | .netSend _ _
  | .shaperSet _ _ | .qpCreate _ _ | .qpConnect _ _ _ | .qpCcSet _ _ _ | .qpClose _ _ | .qpReset _ _ | .qpDestroy _ _
  | .mrRegister _ _ | .mrPages _ _ _ _ _ | .mrRevoke _ _ | .xpSend _ _ | .xpWrite _ _ | .xpRead _ _
  | .volCreate _ _ _ _ _ _ | .volDestroy _ _ _ | .drivePower _ _ _ | .storRead _ _ | .storWrite _ _ | .storFlush _ _
  | .storTrim _ _ | .ingest _ _ _ _ | .keyUnwrap _ _ | .keyClear _ _ | .keyAssign _ _ _ _ | .cvCompute _ _
  | .attest _ _ _ _ | .mouldKeySet _ _ _ _ | .debugKeySet _ _ _ | .dukProvision _ _ | .dukRotate _ _
  | .breakoutRaise _ _ | .breakoutClear _ | .twinPair _ _ _ | .twinPolicy _ _ | .twinReadmit _ | .twinUnpair _
  | .ingotArea _ _ | .ingotSetup _ _ | .ingotTake _ _ | .ingotRestore _ _ _ _ _ _ _ | .ceilingSet _ _ _
  | .pmonConfig _ _ | .pmonRead _ _ _ _ _ | .memoryResponse _ | .postedStoreError _ | .writeAcknowledgement _
  | .memoryAccessAtHome _ _ | .cowCopyComplete _ | .streamWordArrival _ | .creditReturn _ _ _ | .syncOpAtHome _
  | .syncReply _ | .syncWaitRetry _ | .lockAbandon _ | .blockMoveComplete _ _ | .engineOpComplete _ _
  | .operandTimeout _ _ | .coreTimerExpiry _ | .watchdogExpiry _ | .reservationTimeout _ | .islandClockAdjust _ _
  | .coreFailureDeclare _ _ | .queuedCastStart | .fpCtlReset _ _ | .flaskDrainComplete _ | .flaskDrainTimeout _
  | .fpSqdb _ _ _ _ | .fpCqdb _ _ _ _ | .admSqdb _ _ | .admCqdb _ _ | .commandTimeout _ _ | .dispatchDone _ _ _
  | .activationDrainEnd _ _ | .firmwareHeartbeatLapse _ | .firmwareProcessorRestarted _ | .hostBeat _ _
  | .hostLivenessLapse _ | .hostHoldExpiry _ | .configRequest _ _ _ | .initiateFlr _ | .flrReady _
  | .busMasterEnableChange _ _ | .powerStateChange _ _ | .linkDown _ | .inboundWriteTlp _ _ _ _ | .inboundReadTlp _ _ _ _
  | .inboundAtomicop _ _ _ | .winCommitIn _ _ | .winCommitOut _ _ | .commitPoint _ | .winShadowWrite _ _ _ _ _ _
  | .outboundRequest _ | .outboundReadCompletion _ _ _ | .completionTimeout _ _ | .msixVectorControlWrite _ _ _ _
  | .onoteAck _ _ | .attentionButtonPress _ | .frameReceive _ _ _ | .frameRelease _ | .fragmentHoldExpiry _
  | .fragmentEntryExpiry _ | .netRuleWrite _ _ | .netRuleRead _ _ | .frameTransmitComplete _ | .shaperRefill _
  | .portLinkChange _ _ _ | .pfcFrameReceive _ _ | .xpRxDataPacket _ _ _ _ _ | .xpRxReadReq _ _ _ _ _ _ | .xpRxAck _ _ _ _
  | .xpRxNak _ _ _ | .xpRxProbe _ _ | .xpRetransmitTimeout _ _ | .xpRnrResend _ _ | .xpFaultResend _ _
  | .xpPathProbe _ _ | .xpStallLimit _ | .xpPlacementRetire _ | .driveCompletion _ _ _ | .driveMemoryRequest _ _ _ _ _
  | .driveAsyncEvent _ _ | .drivePresenceDetect _ | .storPowerEn _ _ _ | .slotPowerGood _ _ | .driveReady _ _
  | .slotAttentionPress _ _ | .driveSurpriseRemoval _ | .ingestJobStart _ _ | .ingestJobEnd _ _ | .scorerScore _ _ _
  | .scorerReset _ _ _ | .scorerRebuild _ _ _ | .scorerScanComplete _ _ _ _ | .summaryFill _ _ _ _ | .cvRequestStart _
  | .cvRequestComplete _ | .breakoutTrigger _ _ | .ownClaim _ _ _ _ | .electionWindowClose | .ownHandover _ _ _
  | .ownAccept _ _ | .handoverExpiry | .ownerLost | .ownerHoldExpiry | .mctpRead _ | .mctpWrite _ _ | .mctpHeartbeat
  | .mgmtLivenessLapse | .olChal _ | .olResp _ _ _ _ | .debugLockoutExpiry | .twinMessageReceive _ | .twinHeartbeatSend
  | .mirrorSend _ | .twinPulseLapse | .twinMgmtQuery | .twinMgmtAnswer _ | .twinConfirm _ _ | .twinFlaskRestart _
  | .twinUnconfirmedTick | .twinLinkChange _ | .ingotStepBoundary _ | .ingotQuietTimeout _ | .ingotStreamComplete _ _ _
  | .powerOnReset _ | .brownOut | .inputFuseOpen | .resetPin _ _ | .moduleWatchdogExpiry _ | .rstSwreset _ _ _
  | .debugReset _ _ | .clockFailure _ _ | .lockUpReset _ | .domainClockStable _ | .domainStableTimeout _ _
  | .bistPreconditionCheck _ | .optionWordsWrite | .rstModeReqTest _ | .rstModeReqService _ | .bistCtlStart _
  | .bistCtlFuse _ | .runTimeBistDone _ _ | .memFlipArm _ | .fettleSramLine _ _ _ | .fettleLpddrUnit _ _ _
  | .lpddrCalibration _ _ _ | .calibrationRetry _ _ | .calibrationSave | .driveWearCheck _ _ | .telemetrySample _ _ _
  | .thermalTrip _ | .pmonSample _ _ _ | .pmonHubLoRead _ | .mateLChange _ | .twinCablePresence _
  | .registerReadClear _ _ | .registerWrite _ _ _ | .endpointLinkUp _ _ _ _ | .hostPerst _ | .modRstLRelease _
  | .peerManagementQuery | .pldmCommand _ | .thermalTripRelease _ | .xpGrantProbe _ | .xpRxCnp _ _ | .olDbgRelease _ =>
    none

/-- The firmware operations of `sys` (R312). -/
def Instr.firmwareOp : Instr → Bool
  | .sysPostEvent .. | .sysRegRead .. | .sysRegWrite .. | .sysWriteDescriptor .. | .sysCoreControl .. | .sysHeartbeat ..
  | .sysTapRecord .. | .sysWait .. => true
  | _ => false

end Sys2Proof

namespace Sys2Proof.Machine

/-! ### The stores in canonical form -/

/-- LPDDR: addresses strictly rising, and no byte listed that equals what an unlisted one reads as. -/
def Memory.wf (m : Memory) : Bool := Tab.wf 0 m

/-- Every store and table of `Mem` in its canonical form. -/
def Mem.wf (m : Mem) : Bool :=
  Memory.wf m.lp && Tab.wf TWord.zero m.sram && Tab.wf false m.sramValid && Tab.wf WordMark.good m.sramMark &&
    Tab.wf false m.lpValid && Tab.wf CwMark.good m.lpMark

/-! ### Outcomes -/

/-- The command is carried out, and its next state is as `P` says. -/
def Answers (o : Host.Outcome State Fault Refusal) (P : State → Prop) : Prop := ∃ t, o = .next t ∧ P t

/-! ### The issue of an instruction -/

/-- The word at index i of the processor's store is fetched without a trap and without a correction (R95, R104, R553). -/
def State.fetches (s : State) (p : Proc) (i : Nat) : Bool :=
  decide (i < procWords p) && (s.core p).mayFetch p i && (!s.holdsImage p ||
    match (s.core p).ahead.find? (·.1 = i) with
    | some e => decide (e.2.tag = Tag.code)
    | none => decide (s.mem.wordMark (storeBase p / 4 + i) = .good) &&
        decide ((s.mem.word (storeBase p / 4 + i)).tag = Tag.code))

/-- The processor reaches an instruction: it runs, waits for nothing, meets no trap of a boundary, and fetches the
instruction's words, which do not run off its store (R110, R112, R118, R553). -/
def State.atIssue (s : State) (p : Proc) (flow : Flow) : Bool :=
  let k := s.core p
  decide (k.run = .running) && k.wait.isNone && decide (s.phase ≠ .off) && k.postErr.isEmpty &&
    !(k.a.timers.pending && k.a.stat.te) && s.fetches p k.a.pc && (decide (flow ≠ .call) || s.fetches p (k.a.pc + 1)) &&
    decide (k.a.pc + flow.len < procWords p)

/-- The processor issues an instruction whose condition holds. -/
def State.issues (s : State) (p : Proc) (cond : BitVec 4) (flow : Flow) : Bool :=
  s.atIssue p flow && decide (cond ≠ 0xF) && condHolds cond (s.core p).a.stat

/-- The state in which the body of an instruction runs: the words after it are fetched ahead (R95). -/
def State.fetched (s : State) (p : Proc) (flow : Flow) : State := s.fetchAhead p ((s.core p).a.pc + flow.len - 1)

/-! ### Frames -/

/-- Everything but the processors' own state is as it was, and of the processors only p may differ. -/
def OnlyCore (s t : State) (p : Proc) : Prop :=
  { t with cores := s.cores, fwCores := s.fwCores } = s ∧ ∀ q, q ≠ p → t.core q = s.core q

/-- The core's timers at an instruction's end: in stall mode the watchdog restarts (R117). -/
def Arch.timersAfter (a : Arch) : Timers :=
  if a.stat.wdm then a.timers else { a.timers with wdCount := a.timers.wdPeriod }

/-- An instruction completes on p: what its program reaches of the core is `a`; everything else, but the words fetched ahead
and the performance counters, as before. -/
def RetiresAs (s t : State) (p : Proc) (a : Arch) : Prop :=
  OnlyCore s t p ∧
    t.core p = { s.core p with ahead := (t.core p).ahead, pm := (t.core p).pm, a := { a with timers := a.timersAfter } }

/-- An instruction completes on p: pc, registers and `STAT` as given, the rest as `RetiresAs` says. -/
def Retires (s t : State) (p : Proc) (pc : Nat) (g : Vector TWord 16) (stat : Stat) : Prop :=
  RetiresAs s t p { (s.core p).a with pc := pc, g := g, stat := stat }

/-- The registers with one written. -/
def Arch.gSet (a : Arch) (r : RegNo) (w : TWord) : Vector TWord 16 := (a.setReg r w).g

/-! ### Accesses at the processor's own stores -/

/-- No message is being placed in the word at fa (R18). -/
def State.unplaced (s : State) (fa : Nat) : Prop := s.fab.landing.any (fun l => l.2.1 == fa / 4) = false

/-- The word of a store at fa is w, whole and not tagged POISON, no message is being placed in it, and it is visible to its
processor (R18, R85, R133). -/
def State.reads (s : State) (p : Proc) (fa : Nat) (w : TWord) : Prop :=
  (s.core p).unseenAt (fa / 4) = false ∧ s.unplaced fa ∧ s.mem.wordMark (fa / 4) = .good ∧ s.mem.word (fa / 4) = w ∧
    w.tag ≠ Tag.poison

/-- A store at fa meets a whole word, no block move of the processor is outstanding, and no flip waits (R98, R171, R235). -/
def State.meets (s : State) (p : Proc) (fa : Nat) : Prop :=
  s.mem.wordMark (fa / 4) = .good ∧ (s.core p).moves.toList.all Option.isNone = true ∧ s.mem.flip = none

/-- The word that a store meets is tagged neither LOCK nor POISON (R98, R222). -/
def State.stores (s : State) (p : Proc) (fa : Nat) : Prop :=
  s.meets p fa ∧ (s.mem.word (fa / 4)).tag ≠ Tag.lock ∧ (s.mem.word (fa / 4)).tag ≠ Tag.poison

/-- A reservation after a write to a line (R109). -/
def Resv.after (r : Resv) (line : Nat) : Resv := ⟨r.valid && r.line != line, r.line⟩

/-- What a store of the processor leaves: the word at fa holds w, every other word of tagged memory and every byte of LPDDR
reads as before; every reservation on the line is over; registers, `STAT`, segments and the rest of every program's state
are as before, but for pc. -/
def Stored (s t : State) (p : Proc) (fa : Nat) (w : TWord) : Prop :=
  t.mem.word (fa / 4) = w ∧ (∀ i, i ≠ fa / 4 → t.mem.word i = s.mem.word i) ∧ (∀ a, t.mem.byte a = s.mem.byte a) ∧
    (t.core p).a = { (s.core p).a with
      pc := (s.core p).a.pc + 1, timers := (s.core p).a.timersAfter, resv := (s.core p).a.resv.after (fa / 64) } ∧
    (∀ q, q ≠ p → (t.core q).a = { (s.core q).a with resv := (s.core q).a.resv.after (fa / 64) }) ∧
    t.flasks = s.flasks ∧ t.regs = s.regs ∧ t.out = s.out

/-- An instruction waits for the home's answer to the request that it has sent: no register of any processor and no memory
has changed. -/
def Asked (s t : State) (p : Proc) (i : Instr) (fa : Nat) (seg : BitVec 3) (off : Int) (op : MemOp) : Prop :=
  (t.core p).wait = some ⟨i, true, fa, []⟩ ∧ (t.core p).a = (s.core p).a ∧ (∀ q, q ≠ p → t.core q = s.core q) ∧
    t.mem = s.mem ∧ t.fab.reqs = s.fab.reqs ++
      [⟨s.fab.nextId, p, (s.core p).gen, BitVec.ofNat 48 fa, ((s.core p).a.desc seg).flask, seg, BitVec.ofInt 32 off, false, op⟩]

/-! ### Ports, synchronisation and engines -/

/-- An instruction completes on p that also changes ports or engines: the core is `k` but for the words fetched ahead and the
performance counters; memory and the other processors as before. -/
def RetiresCore (s t : State) (p : Proc) (k : Core) : Prop :=
  t.core p = { k with ahead := (t.core p).ahead, pm := (t.core p).pm, a := { k.a with timers := k.a.timersAfter } } ∧
    (∀ q, q ≠ p → t.core q = s.core q) ∧ t.mem = s.mem

/-- A core with pc at the next word, and with a register and `Z` as given. -/
def Core.goes (k : Core) (g : Vector TWord 16) (stat : Stat) : Core :=
  { k with a := { k.a with pc := k.a.pc + 1, g := g, stat := stat } }

/-- No word waits at an input port. -/
def Core.portsEmpty (k : Core) : Bool := allPorts.all fun q => (k.inport q).isEmpty

/-! ### Ladle commands -/

/-- The state in which a command's entry has been read: as it is, where the scheduler core returns to one read before
(R325). -/
def State.withEntry (s : State) (h : CmdHdr) (i : Instr) : State :=
  if (s.ladle h.ladle).cmds.any fun c => c.tag = h.tag then s else s.readEntry h i

/-- The scheduler core serves the ladle, and the command is the next to be read, or one read and not started; nothing keeps
it from starting, and its ladle is of the kind that takes it (R318, R321, R325, R327). -/
def State.starts (s : State) (h : CmdHdr) (i : Instr) : Bool :=
  let d := s.ladle h.ladle
  let r := s.withEntry h i
  s.phase.serves && !s.fw.down.contains .scheduler && d.enabled &&
    (match d.cmds.find? fun c => c.tag = h.tag with
      | some c => decide (c.instr = i) && !c.started
      | none => decide (d.sqHead ≠ d.sqTail)) &&
    (r.unstartable h.ladle i).isNone && r.mayStart h i &&
    match ladleOp i with
      | some (_, k) => kindFits h.ladle k
      | none => false

/-- The state in which the command has started. -/
def State.begun (s : State) (h : CmdHdr) (i : Instr) : State := (s.withEntry h i).startEntry h

/-- The command has its effect, a state as `P` says, and completes in it with the status, detail and result
given. -/
def Completes (s : State) (i : Instr) (h : CmdHdr) (status : Status) (detail : Word) (result : List Byte)
    (P : State → Prop) : Prop :=
  ∃ e, exec i s = .next (e.complete h.ladle h.tag status detail result) ∧ P e

end Sys2Proof.Machine
end

