-- ==== Sys2Proof/WellFormed.lean ====
section
/-!
DEFINITION. The well-formed commands: what the encodings of the core (R71, R72, R75–R94, R129) and the command entries
(R321, R325) allow. A word that breaks them still has a meaning (`ILLEGAL`, `MALFORMED`), which the machine gives it.
-/

namespace Sys2Proof

/-- The header of a command entry: its reserved flag bits are zero, and its timeout is at most 60,000 ms (R321). -/
def CmdHdr.wf (h : CmdHdr) : Bool := h.flags &&& 0x00FC == 0 && decide (h.timeoutMs.toNat ≤ 60000)

/-- The check of a command. -/
def Instr.wf : Instr → Bool
  | .add _ f | .sub _ f | .and _ f | .or _ f | .xor _ f | .andn _ f | .shl _ f | .shr _ f | .sar _ f | .rol _ f
  | .mul _ f | .mulhs _ f | .mulhu _ f | .divs _ f | .divu _ f | .rems _ f | .remu _ f | .min _ f | .max _ f
  | .minu _ f | .maxu _ f | .clz _ f | .popc _ f => f.cond != 0xF && f.resv == 0
  | .mov _ f => f.cond != 0xF && f.resv == 0 && !f.s
  | .adc _ f | .sbc _ f => f.cond != 0xF && f.resv == 0
  | .addi _ f | .andi _ f | .ori _ f | .xori _ f | .shli _ f | .shri _ f | .sari _ f | .muli _ f | .movi _ f
  | .movui _ f | .movhi _ f | .cmp _ f | .cmpi _ f | .fcmp _ f | .tcmp _ f => f.cond != 0xF
  | .tchk _ f => f.cond != 0xF && !Tag.reserved (f.operand.extractLsb' 0 4)
  | .tget _ f => f.cond != 0xF
  | .tset _ f => f.cond != 0xF && !Tag.reserved (f.operand.extractLsb' 0 4)
  | .tsetr _ f => f.cond != 0xF
  | .fadd _ f | .fsub _ f | .fmul _ f | .fma _ f | .fmin _ f | .fmax _ f | .fneg _ f | .i2f _ f | .f2i _ f | .fxadd _ f
  | .fxsub _ f | .fxmul _ f | .fx2f _ f | .f2fx _ f | .fdiv _ f | .fsqrt _ f => f.cond != 0xF && f.resv == 0
  | .ld _ f => f.cond != 0xF
  | .ldc _ f => f.cond != 0xF && !Tag.reserved (f.operand.extractLsb' 6 4)
  | .lea _ f => f.cond != 0xF
  | .ldsub _ f => f.cond != 0xF && f.operand.extractLsb' 9 1 == 0
  | .st _ f | .stb _ f | .sth _ f | .tas _ f | .lres _ f | .scond _ f | .b _ f | .bl _ f => f.cond != 0xF
  | .call _ f => f.cond != 0xF && decide (f.mode.toNat < 2) && !f.mask.getLsbD 14 && f.resv == 0
  | .ret _ f => f.cond != 0xF && f.ra == 0 && f.mask == 0
  | .jr _ f => f.cond != 0xF
  | .recv _ f | .rtry _ f | .peek _ f | .send _ f | .stry _ f | .waitany _ f | .pstat _ f => f.cond != 0xF && f.resv == 0
  | .tdec _ f | .tinc _ f | .twait _ f | .barr _ f | .barw _ f | .lock _ f | .trylock _ f | .unlock _ f => f.cond != 0xF
  | .fence _ f => f.cond != 0xF && f.ra == 0 && f.seg == 0 && f.imm == 0
  | .edot _ f => f.cond != 0xF && (!f.xp || f.xreg == 0)
  | .epack _ f | .emx _ f => f.cond != 0xF
  | .ezero _ f => f.cond != 0xF && f.resv == 0 && (f.p || f.exp == 0)
  | .erd _ f => f.cond != 0xF && f.resv == 0
  | .ewait _ f => f.cond != 0xF && f.resv == 0 && (!f.all || f.e == 0)
  | .edrift _ f | .bmv _ f | .bwait _ f => f.cond != 0xF && f.resv == 0
  | .rdref _ f | .rdrefh _ f | .rdctr _ f => f.cond != 0xF
  | .rdsys _ f => f.cond != 0xF && decide (f.imm.toNat < 6)
  | .wrsys _ f => f.cond != 0xF && decide (f.imm.toNat < 2)
  | .tmset _ f | .tmclr _ f | .wdkick _ f | .trapret _ f | .ifence _ f | .halt _ f | .rdseg _ f | .raise _ f => f.cond != 0xF
  | .rdid _ f => f.cond != 0xF && decide (f.imm.toNat < 4)
  | .coreNop _ f => f.cond != 0xF
  | .sysPostEvent _ f => f.cond != 0xF && f.imm.extractLsb' 0 4 == 0
  | .cast h _ _ => h.wf
  | .create h p => h.wf && p.resv == 0
  | .reset h _ _ resv => h.wf && resv == 0
  | .destroy h _ => h.wf
  | .ladleConfig h p => h.wf && p.options == 0
  | .abort h _ _ _ | .nop h => h.wf
  | .dispatch h p => h.wf && p.resv == 0
  | .fwStage h _ _ | .fwActivate h _ _ | .netClassOpen h _ _ | .netClassClose h _ | .netSend h _ | .shaperSet h _
  | .qpCreate h _ => h.wf
  | .qpConnect h _ resv => h.wf && resv == 0
  | .qpCcSet h _ _ | .qpClose h _ | .qpReset h _ | .qpDestroy h _ => h.wf
  | .mrRegister h p => h.wf && p.resv == 0
  | .mrPages h _ _ _ _ | .mrRevoke h _ | .xpSend h _ | .xpWrite h _ | .xpRead h _ | .volCreate h _ _ _ _ _
  | .volDestroy h _ _ | .drivePower h _ _ | .storRead h _ | .storWrite h _ | .storFlush h _ | .storTrim h _
  | .ingest h _ _ _ | .keyUnwrap h _ | .keyClear h _ | .keyAssign h _ _ _ | .cvCompute h _ | .attest h _ _ _
  | .mouldKeySet h _ _ _ | .debugKeySet h _ _ | .dukProvision h _ | .dukRotate h _ | .breakoutRaise h _
  | .breakoutClear h | .twinPair h _ _ | .twinPolicy h _ | .twinReadmit h | .twinUnpair h => h.wf
  | .ingotArea h p => h.wf && p.resv == 0
  | .ingotSetup h _ | .ingotTake h _ => h.wf
  | .ingotRestore h _ _ resv _ _ _ => h.wf && resv == 0
  | .ceilingSet h _ _ | .pmonConfig h _ | .pmonRead h _ _ _ _ => h.wf
  | .sysRegRead _ f => f.cond != 0xF && f.imm.extractLsb' 0 4 == 1
  | .sysRegWrite _ f => f.cond != 0xF && f.imm.extractLsb' 0 4 == 2
  | .sysWriteDescriptor _ f => f.cond != 0xF && f.imm.extractLsb' 0 4 == 3
  | .sysCoreControl _ f => f.cond != 0xF && f.imm.extractLsb' 0 4 == 4
  | .sysHeartbeat _ f => f.cond != 0xF && f.imm.extractLsb' 0 4 == 5
  | .sysTapRecord _ f => f.cond != 0xF && f.imm.extractLsb' 0 4 == 6
  | .sysWait _ f => f.cond != 0xF && f.imm.extractLsb' 0 4 == 7
  | .memoryResponse _ | .postedStoreError _ | .writeAcknowledgement _ | .memoryAccessAtHome _ _ | .cowCopyComplete _
  | .streamWordArrival _ | .creditReturn _ _ _ | .syncOpAtHome _ | .syncReply _ | .syncWaitRetry _ | .lockAbandon _
  | .blockMoveComplete _ _ | .engineOpComplete _ _ | .operandTimeout _ _ | .coreTimerExpiry _ | .watchdogExpiry _
  | .reservationTimeout _ | .islandClockAdjust _ _ | .coreFailureDeclare _ _ | .queuedCastStart | .fpCtlReset _ _
  | .flaskDrainComplete _ | .flaskDrainTimeout _ | .fpSqdb _ _ _ _ | .fpCqdb _ _ _ _ | .admSqdb _ _ | .admCqdb _ _
  | .commandTimeout _ _ | .dispatchDone _ _ _ | .activationDrainEnd _ _ | .firmwareHeartbeatLapse _
  | .firmwareProcessorRestarted _ | .hostBeat _ _ | .hostLivenessLapse _ | .hostHoldExpiry _ | .configRequest _ _ _
  | .initiateFlr _ | .flrReady _ | .busMasterEnableChange _ _ | .powerStateChange _ _ | .linkDown _ => true
  | .inboundWriteTlp _ _ bytes _ => !bytes.isEmpty
  | .inboundReadTlp _ _ len _ => len != 0
  | .inboundAtomicop _ _ _ | .winCommitIn _ _ | .winCommitOut _ _ | .commitPoint _ | .winShadowWrite _ _ _ _ _ _
  | .outboundRequest _ | .outboundReadCompletion _ _ _ | .completionTimeout _ _ | .msixVectorControlWrite _ _ _ _
  | .onoteAck _ _ | .attentionButtonPress _ | .frameReceive _ _ _ | .frameRelease _ | .fragmentHoldExpiry _
  | .fragmentEntryExpiry _ | .netRuleWrite _ _ | .netRuleRead _ _ | .frameTransmitComplete _ | .shaperRefill _
  | .portLinkChange _ _ _ | .pfcFrameReceive _ _ => true
  | .xpRxDataPacket _ hdr _ _ _ => hdr.zeroOk
  | .xpRxReadReq _ _ _ _ _ _ | .xpRxAck _ _ _ _ | .xpRxNak _ _ _ | .xpRxProbe _ _ | .xpRetransmitTimeout _ _
  | .xpRnrResend _ _ | .xpFaultResend _ _ | .xpPathProbe _ _ | .xpStallLimit _ | .xpPlacementRetire _
  | .driveCompletion _ _ _ | .driveMemoryRequest _ _ _ _ _ | .driveAsyncEvent _ _ | .drivePresenceDetect _
  | .storPowerEn _ _ _ | .slotPowerGood _ _ | .driveReady _ _ | .slotAttentionPress _ _ | .driveSurpriseRemoval _
  | .ingestJobStart _ _ | .ingestJobEnd _ _ | .scorerScore _ _ _ | .scorerReset _ _ _ | .scorerRebuild _ _ _
  | .scorerScanComplete _ _ _ _ | .summaryFill _ _ _ _ | .cvRequestStart _ | .cvRequestComplete _
  | .breakoutTrigger _ _ | .ownClaim _ _ _ _ | .electionWindowClose | .ownHandover _ _ _ | .ownAccept _ _
  | .handoverExpiry | .ownerLost | .ownerHoldExpiry => true
  | .mctpRead offset | .mctpWrite offset _ => offset.toNat % 4 == 0
  | .mctpHeartbeat | .mgmtLivenessLapse | .olChal _ | .olResp _ _ _ _ | .debugLockoutExpiry | .twinMessageReceive _
  | .twinHeartbeatSend | .mirrorSend _ | .twinPulseLapse | .twinMgmtQuery | .twinMgmtAnswer _ | .twinConfirm _ _
  | .twinFlaskRestart _ | .twinUnconfirmedTick | .twinLinkChange _ | .ingotStepBoundary _ | .ingotQuietTimeout _
  | .ingotStreamComplete _ _ _ | .powerOnReset _ | .brownOut | .inputFuseOpen | .resetPin _ _ | .moduleWatchdogExpiry _
  | .rstSwreset _ _ _ | .debugReset _ _ | .clockFailure _ _ | .lockUpReset _ | .domainClockStable _
  | .domainStableTimeout _ _ | .bistPreconditionCheck _ | .optionWordsWrite | .rstModeReqTest _ | .rstModeReqService _
  | .bistCtlStart _ | .bistCtlFuse _ | .runTimeBistDone _ _ | .memFlipArm _ | .fettleSramLine _ _ _
  | .fettleLpddrUnit _ _ _ | .lpddrCalibration _ _ _ | .calibrationRetry _ _ | .calibrationSave | .driveWearCheck _ _
  | .telemetrySample _ _ _ | .thermalTrip _ | .pmonSample _ _ _ | .pmonHubLoRead _ | .mateLChange _
  | .twinCablePresence _ => true
  | .registerReadClear _ offset | .registerWrite _ offset _ => offset.toNat % 4 == 0
  | .endpointLinkUp _ _ _ _ | .hostPerst _ | .modRstLRelease _ | .peerManagementQuery | .pldmCommand _
  | .thermalTripRelease _ | .xpGrantProbe _ | .xpRxCnp _ _ | .olDbgRelease _ => true

end Sys2Proof
end

