-- ==== Sys2Proof/Certificates/Slice0/Obligations.lean ====
section
/-!
DEFINITION. The statements.
-/

open Sys2Proof Sys2Proof.Machine

/-! ### The queue -/

/-- O: a step takes the command at the front of the queue (the model's own rule of a block). -/
def Claims.StepTakesFront : Prop :=
  ∀ (s : State) (c : Instr) (rest : List Instr),
    step { s with pending := c :: rest } = exec c { s with pending := rest }

/-- On an empty queue the module idles (the model's own choice, log entry 15). -/
def Claims.EmptyQueueIdles : Prop := ∀ s : State, s.pending = [] → step s = .next s

/-- A step serves the front of the queue. -/
def Obligations.StepsServeTheQueue : Prop := Claims.StepTakesFront ∧ Claims.EmptyQueueIdles

/-! ### Classes 0x0 to 0x4 -/

/-- Every operation of class 0x0 on operands tagged INT or RAW: rd, the flags of R75 when `S` is 1, and nothing else. -/
def Obligations.RegisterArithmetic : Prop :=
  ∀ (s : State) (p : Proc) (f : AluR),
    s.issues p f.cond .next = true → f.resv = 0 →
    intLike ((s.core p).reg f.ra).tag = true → intLike ((s.core p).reg f.rb).tag = true →
    let k := s.core p
    let a := (k.reg f.ra).payload
    let b := (k.reg f.rb).payload
    let n := b.toNat % 32
    let st := k.a.stat
    let does (c : Proc → AluR → Instr) (r : Word) (fl : Stat) : Prop :=
      Answers (exec (c p f) s) fun t =>
        Retires s t p (k.a.pc + 1) (k.a.gSet f.rd ⟨r, Tag.int⟩) (if f.s then fl else st)
    let zn (r : Word) : Stat := { st with z := decide (r = 0), n := r.msb }
    let divZero := decide (b = 0)
    let corner := decide (a = 0x8000_0000 ∧ b = 0xFFFF_FFFF)
    let cin := if st.c then 1 else 0
    does .add (a + b) { zn (a + b) with
      c := decide (2 ^ 32 ≤ a.toNat + b.toNat), v := decide ((a + b).toInt ≠ a.toInt + b.toInt) } ∧
    does .sub (a - b) { zn (a - b) with
      c := decide (b.toNat ≤ a.toNat), v := decide ((a - b).toInt ≠ a.toInt - b.toInt) } ∧
    does .adc (BitVec.ofNat 32 (a.toNat + b.toNat + cin)) { zn (BitVec.ofNat 32 (a.toNat + b.toNat + cin)) with
      c := decide (2 ^ 32 ≤ a.toNat + b.toNat + cin)
      v := decide ((BitVec.ofNat 32 (a.toNat + b.toNat + cin)).toInt ≠ a.toInt + b.toInt + cin) } ∧
    does .sbc (BitVec.ofInt 32 (a.toInt - b.toInt - (1 - cin))) { zn (BitVec.ofInt 32 (a.toInt - b.toInt - (1 - cin))) with
      c := decide (b.toNat + (1 - cin) ≤ a.toNat)
      v := decide ((BitVec.ofInt 32 (a.toInt - b.toInt - (1 - cin))).toInt ≠ a.toInt - b.toInt - (1 - cin)) } ∧
    does .and (a &&& b) { zn (a &&& b) with v := false } ∧
    does .or (a ||| b) { zn (a ||| b) with v := false } ∧
    does .xor (a ^^^ b) { zn (a ^^^ b) with v := false } ∧
    does .andn (a &&& ~~~b) { zn (a &&& ~~~b) with v := false } ∧
    does .shl (a <<< n) { zn (a <<< n) with c := if n = 0 then st.c else a.getLsbD (32 - n) } ∧
    does .shr (a >>> n) { zn (a >>> n) with c := if n = 0 then st.c else a.getLsbD (n - 1) } ∧
    does .sar (a.sshiftRight n) { zn (a.sshiftRight n) with c := if n = 0 then st.c else a.getLsbD (n - 1) } ∧
    does .rol (a <<< n ||| a >>> (32 - n)) (zn (a <<< n ||| a >>> (32 - n))) ∧
    does .mul (a * b) { zn (a * b) with v := decide ((a * b).toInt ≠ a.toInt * b.toInt) } ∧
    does .mulhs (BitVec.ofInt 32 (a.toInt * b.toInt / 2 ^ 32)) (zn (BitVec.ofInt 32 (a.toInt * b.toInt / 2 ^ 32))) ∧
    does .mulhu (BitVec.ofNat 32 (a.toNat * b.toNat / 2 ^ 32)) (zn (BitVec.ofNat 32 (a.toNat * b.toNat / 2 ^ 32))) ∧
    (let q := if divZero then 0xFFFF_FFFF else if corner then 0x8000_0000 else BitVec.ofInt 32 (a.toInt.tdiv b.toInt)
     does .divs q { zn q with v := divZero || corner }) ∧
    (let q := if divZero then 0xFFFF_FFFF else BitVec.ofNat 32 (a.toNat / b.toNat)
     does .divu q { zn q with v := divZero }) ∧
    (let q := if divZero then a else if corner then 0 else BitVec.ofInt 32 (a.toInt.tmod b.toInt)
     does .rems q { zn q with v := divZero || corner }) ∧
    (let q := if divZero then a else BitVec.ofNat 32 (a.toNat % b.toNat)
     does .remu q { zn q with v := divZero }) ∧
    (let q := if a.toInt ≤ b.toInt then a else b
     does .min q (zn q)) ∧
    (let q := if a.toInt ≤ b.toInt then b else a
     does .max q (zn q)) ∧
    (let q := if a.toNat ≤ b.toNat then a else b
     does .minu q (zn q)) ∧
    (let q := if a.toNat ≤ b.toNat then b else a
     does .maxu q (zn q))

/-- clz, popc and mov of class 0x0: mov carries payload and tag whatever the tag (R75, R97). -/
def Claims.UnaryRegister : Prop :=
  ∀ (s : State) (p : Proc) (f : AluR),
    s.issues p f.cond .next = true → f.resv = 0 →
    let k := s.core p
    let w := k.reg f.ra
    let a := w.payload
    let st := k.a.stat
    (intLike w.tag = true →
      (∃ n : Nat, n ≤ 32 ∧ (∀ i, 32 - n ≤ i → a.getLsbD i = false) ∧ (n < 32 → a.getLsbD (31 - n) = true) ∧
        Answers (exec (.clz p f) s) fun t => Retires s t p (k.a.pc + 1) (k.a.gSet f.rd ⟨BitVec.ofNat 32 n, Tag.int⟩)
          (if f.s then { st with z := decide (n = 0) } else st)) ∧
      (let n := (List.range 32).countP fun i => a.getLsbD i
       Answers (exec (.popc p f) s) fun t => Retires s t p (k.a.pc + 1) (k.a.gSet f.rd ⟨BitVec.ofNat 32 n, Tag.int⟩)
          (if f.s then { st with z := decide (n = 0) } else st))) ∧
    (f.s = false → Answers (exec (.mov p f) s) fun t => Retires s t p (k.a.pc + 1) (k.a.gSet f.rd w) st)

/-- The pointer forms of add, sub and addi, and cmp of two pointers (R96). -/
def Claims.PointerArithmetic : Prop :=
  ∀ (s : State) (p : Proc) (f : AluR),
    s.issues p f.cond .next = true → f.resv = 0 → f.s = false →
    let k := s.core p
    let a := k.reg f.ra
    let b := k.reg f.rb
    let writes (c : Proc → AluR → Instr) (w : TWord) : Prop :=
      Answers (exec (c p f) s) fun t => Retires s t p (k.a.pc + 1) (k.a.gSet f.rd w) k.a.stat
    ((a.tag = Tag.ptr ∧ intLike b.tag = true ∨ intLike a.tag = true ∧ b.tag = Tag.ptr) →
      writes .add ⟨a.payload + b.payload, Tag.ptr⟩ ∧ writes .sub ⟨a.payload - b.payload, Tag.ptr⟩) ∧
    (a.tag = Tag.ptr → b.tag = Tag.ptr → writes .sub ⟨a.payload - b.payload, Tag.int⟩ ∧
      exec (.add p f) s = .next ((s.fetched p .next).takeTrap p (tagTrap Tag.ptr)))

/-- Classes 0x1 and 0x2: the immediate forms and move immediate (R76, R77). -/
def Claims.ImmediateForms : Prop :=
  (∀ (s : State) (p : Proc) (f : AluI),
    s.issues p f.cond .next = true → intLike ((s.core p).reg f.ra).tag = true →
    let k := s.core p
    let a := (k.reg f.ra).payload
    let sx : Word := f.imm.signExtend 32
    let zx : Word := f.imm.zeroExtend 32
    let n := f.imm.toNat % 32
    let st := k.a.stat
    let does (c : Proc → AluI → Instr) (r : Word) (fl : Stat) : Prop :=
      Answers (exec (c p f) s) fun t =>
        Retires s t p (k.a.pc + 1) (k.a.gSet f.rd ⟨r, Tag.int⟩) (if f.s then fl else st)
    let zn (r : Word) : Stat := { st with z := decide (r = 0), n := r.msb }
    does .addi (a + sx) { zn (a + sx) with
      c := decide (2 ^ 32 ≤ a.toNat + sx.toNat), v := decide ((a + sx).toInt ≠ a.toInt + sx.toInt) } ∧
    does .andi (a &&& zx) { zn (a &&& zx) with v := false } ∧
    does .ori (a ||| zx) { zn (a ||| zx) with v := false } ∧
    does .xori (a ^^^ zx) { zn (a ^^^ zx) with v := false } ∧
    does .shli (a <<< n) { zn (a <<< n) with c := if n = 0 then st.c else a.getLsbD (32 - n) } ∧
    does .shri (a >>> n) { zn (a >>> n) with c := if n = 0 then st.c else a.getLsbD (n - 1) } ∧
    does .sari (a.sshiftRight n) { zn (a.sshiftRight n) with c := if n = 0 then st.c else a.getLsbD (n - 1) } ∧
    does .muli (a * sx) { zn (a * sx) with v := decide ((a * sx).toInt ≠ a.toInt * sx.toInt) }) ∧
  (∀ (s : State) (p : Proc) (f : MovI),
    s.issues p f.cond .next = true →
    let k := s.core p
    let w := k.reg f.rd
    let writes (c : Proc → MovI → Instr) (w : TWord) : Prop :=
      Answers (exec (c p f) s) fun t => Retires s t p (k.a.pc + 1) (k.a.gSet f.rd w) k.a.stat
    writes .movi ⟨f.imm.signExtend 32, Tag.int⟩ ∧ writes .movui ⟨f.imm.zeroExtend 32, Tag.int⟩ ∧
    (w.tag ≠ Tag.poison → writes .movhi ⟨f.imm ++ w.payload.extractLsb' 0 16, w.tag⟩) ∧
    (w.tag = Tag.poison → exec (.movhi p f) s = .next ((s.fetched p .next).takeTrap p poisonTrap)))

/-- One-operand forms, pointers and immediate forms. -/
def Obligations.RegisterForms : Prop := Claims.UnaryRegister ∧ Claims.PointerArithmetic ∧ Claims.ImmediateForms

/-- Class 0x3: comparisons set flags and write no register; the tag instructions read any tag (R78, R97). -/
def Obligations.CompareAndTag : Prop :=
  ∀ (s : State) (p : Proc) (f : CmpF),
    s.issues p f.cond .next = true →
    let k := s.core p
    let a := k.reg f.ra
    let b := k.reg (f.operand.extractLsb' 8 4)
    let tg : Tag := f.operand.extractLsb' 0 4
    let imm : Word := f.operand.signExtend 32
    let st := k.a.stat
    let does (c : Proc → CmpF → Instr) (g : Vector TWord 16) (fl : Stat) : Prop :=
      Answers (exec (c p f) s) fun t => Retires s t p (k.a.pc + 1) g fl
    let less (x y : Word) : Stat := { st with
      z := decide (x = y), n := (x - y).msb, c := decide (y.toNat ≤ x.toNat), v := decide ((x - y).toInt ≠ x.toInt - y.toInt) }
    ((intLike a.tag = true ∧ intLike b.tag = true ∨ a.tag = Tag.ptr ∧ b.tag = Tag.ptr) →
      does .cmp k.a.g (less a.payload b.payload)) ∧
    (intLike a.tag = true → does .cmpi k.a.g (less a.payload imm)) ∧
    (a.tag ∈ [Tag.f32, Tag.raw] → b.tag ∈ [Tag.f32, Tag.raw] →
      let x := FVal.ofWord a.payload
      let y := FVal.ofWord b.payload
      let un := x.isNan || y.isNan
      let eq := !un && (decide (x = y) || decide (x ∈ [.zero true, .zero false] ∧ y ∈ [.zero true, .zero false]))
      does .fcmp k.a.g { st with
        z := eq, n := !un && !eq && x.lt y, c := !un && (eq || y.lt x), v := un
        finv := st.finv || x.signalling || y.signalling }) ∧
    does .tcmp k.a.g { st with t := decide (a.tag = b.tag) } ∧
    (tg.reserved = false → does .tchk k.a.g { st with t := decide (a.tag = tg) } ∧
      does .tset (k.a.gSet f.rd ⟨a.payload, tg⟩) st) ∧
    does .tget (k.a.gSet f.rd ⟨a.tag.zeroExtend 32, Tag.int⟩) st ∧
    (Tag.reserved (b.payload.extractLsb' 0 4) = false →
      does .tsetr (k.a.gSet f.rd ⟨a.payload, b.payload.extractLsb' 0 4⟩) st)

/-- Class 0x4: each operation writes its result with the tag of R96, sets the sticky bits it raises, and never traps on
operands of its type; the fixed-point sums and products are exact before they saturate (R79, R80). -/
def Claims.FloatAndFixed : Prop :=
  ∀ (s : State) (p : Proc) (f : FpF),
    s.issues p f.cond .next = true → f.resv = 0 →
    let k := s.core p
    let a := k.reg f.ra
    let b := k.reg f.rb
    let c := k.reg f.rc
    let does (i : Proc → FpF → Instr) (r : Word × FFlags) (tag : Tag) : Prop :=
      Answers (exec (i p f) s) fun t => Retires s t p (k.a.pc + 1) (k.a.gSet f.rd ⟨r.1, tag⟩) (k.a.stat.stick r.2)
    let is (t : Tag) (w : TWord) : Prop := w.tag = t ∨ w.tag = Tag.raw
    let sat (x : Int) : Word × FFlags :=
      if x < -2 ^ 31 then (0x8000_0000, { FFlags.none with xsat := true })
      else if 2 ^ 31 ≤ x then (0x7FFF_FFFF, { FFlags.none with xsat := true }) else (BitVec.ofInt 32 x, FFlags.none)
    (is Tag.f32 a → is Tag.f32 b →
      does .fadd (fAdd a.payload b.payload) Tag.f32 ∧ does .fsub (fSub a.payload b.payload) Tag.f32 ∧
      does .fmul (fMul a.payload b.payload) Tag.f32 ∧ does .fdiv (fDiv a.payload b.payload) Tag.f32 ∧
      does .fmin (fMinMax false a.payload b.payload) Tag.f32 ∧ does .fmax (fMinMax true a.payload b.payload) Tag.f32 ∧
      (is Tag.f32 c → does .fma (fMa a.payload b.payload c.payload) Tag.f32)) ∧
    (is Tag.f32 a → does .fneg (fNeg a.payload) Tag.f32 ∧ does .fsqrt (fSqrt a.payload) Tag.f32 ∧
      does .f2i (f2I a.payload) Tag.int ∧ does .f2fx (f2Fx a.payload) Tag.fx) ∧
    (is Tag.int a → does .i2f (i2F a.payload) Tag.f32) ∧
    (is Tag.fx a → does .fx2f (fx2F a.payload) Tag.f32) ∧
    (is Tag.fx a → is Tag.fx b →
      does .fxadd (sat (a.payload.toInt + b.payload.toInt)) Tag.fx ∧
      does .fxsub (sat (a.payload.toInt - b.payload.toInt)) Tag.fx ∧
      does .fxmul (fxMul a.payload b.payload) Tag.fx)

/-- Binary32 and fixed-point results are rounded to nearest, ties to even (R79, R80): the rounding that every one of them
goes through. -/
def Claims.RoundsToNearestEven : Prop :=
  ∀ x d : Nat,
    let q := roundShift x d false
    2 * q * 2 ^ d ≤ 2 * x + 2 ^ d ∧ 2 * x ≤ 2 * q * 2 ^ d + 2 ^ d ∧
      (0 < d → (2 * q * 2 ^ d = 2 * x + 2 ^ d ∨ 2 * x = 2 * q * 2 ^ d + 2 ^ d) → q % 2 = 0)

/-- Floating and fixed point. -/
def Obligations.FloatingPoint : Prop := Claims.FloatAndFixed ∧ Claims.RoundsToNearestEven

/-! ### Segments, loads, stores and atomics -/

/-- The segment check (R103): the flask address of an access that is aligned, inside its segment, and permitted; otherwise
`ALIGN`, `SEGMENT` or `ACCESS`, the first that applies, with the segment and the offset. -/
def Claims.SegmentCheck : Prop :=
  ∀ (a : Arch) (seg : BitVec 3) (off : Int) (size : Nat) (need : Need),
    let d := a.desc seg
    let aligned := off % (min size 4 : Nat) = 0
    let inside := 0 ≤ off ∧ off + size ≤ d.lines.toNat * 64 ∧ d.lines ≠ 0
    let allowed := (need.r = true → d.pr = true) ∧ (need.w = true → d.pw = true) ∧ (need.a = true → d.pa = true)
    let stops (v : BitVec 4) : Except TrapInfo Nat :=
      .error { trapOf v with seg := seg, eaddr := BitVec.ofInt 32 off }
    (aligned → inside → allowed → segCheck a seg off size need = .ok (d.base.toNat + off.toNat)) ∧
    (¬ aligned → segCheck a seg off size need = stops Vec.align) ∧
    (aligned → ¬ inside → segCheck a seg off size need = stops Vec.segment) ∧
    (aligned → inside → ¬ allowed → segCheck a seg off size need = stops Vec.access)

/-- Loads from a store of the processor's own complete at once: rd, T, and nothing else (R82, R85). -/
def Claims.LocalLoads : Prop :=
  ∀ (s : State) (p : Proc) (f : MemF),
    s.issues p f.cond .next = true → offLike ((s.core p).reg f.ra).tag = true →
    let k := s.core p
    let writes (w : TWord) (st : Stat) (t : State) : Prop := Retires s t p (k.a.pc + 1) (k.a.gSet f.rd w) st
    let want : Tag := f.operand.extractLsb' 6 4
    let kind := (f.operand.extractLsb' 7 3).toNat
    let size := if kind < 2 then 1 else 2
    (∀ off pl w, reach s p f.ra f.seg f.l ((f.operand.toInt) * 4) 4 Need.read = .ok (off, pl) → pl.isLocal = true →
      s.reads p pl.fa w → Answers (exec (.ld p f) s) (writes w { k.a.stat with t := false })) ∧
    (∀ off pl w, reach s p f.ra f.seg f.l ((f.operand.extractLsb' 0 6).toInt * 4) 4 Need.read = .ok (off, pl) →
      pl.isLocal = true → s.reads p pl.fa w → want.reserved = false →
      (w.tag = want → Answers (exec (.ldc p f) s) (writes w { k.a.stat with t := true })) ∧
      (w.tag ≠ want → exec (.ldc p f) s = .next ((s.fetched p .next).takeTrap p
        { trapOf Vec.tag with seg := f.seg, eaddr := BitVec.ofInt 32 off, found := w.tag, want := want }))) ∧
    (∀ off pl w, reach s p f.ra f.seg f.l (f.operand.extractLsb' 0 7).toInt size Need.read = .ok (off, pl) →
      pl.isLocal = true → s.reads p pl.fa w → kind < 4 →
      let v := w.payload.toNat / 2 ^ (8 * (pl.fa % 4)) % 2 ^ (8 * size)
      Answers (exec (.ldsub p f) s) (writes ⟨if kind = 1 ∧ 128 ≤ v then BitVec.ofInt 32 (v - 256)
        else if kind = 3 ∧ 32768 ≤ v then BitVec.ofInt 32 (v - 65536) else BitVec.ofNat 32 v, Tag.int⟩ k.a.stat)) ∧
    (let off := segOff (k.reg f.ra).payload f.l (f.operand.toInt * 4)
     ∀ addr, segCheck k.a f.seg off 4 Need.none = .ok addr →
      Answers (exec (.lea p f) s) (writes ⟨BitVec.ofInt 32 off, Tag.ptr⟩ k.a.stat))

/-- Segments, and loads from the processor's own stores. -/
def Obligations.LocalLoadsChecked : Prop := Claims.SegmentCheck ∧ Claims.LocalLoads

/-- Stores to a store of the processor's own complete at once: the word or the bytes written, and nothing else (R83, R86,
R98, R109); over a word tagged POISON, a whole word is written and what it replaced is logged (R222). -/
def Claims.LocalStores : Prop :=
  ∀ (s : State) (p : Proc) (f : MemF),
    s.issues p f.cond .next = true → offLike ((s.core p).reg f.ra).tag = true →
    let k := s.core p
    let v := k.reg f.rd
    let part (fa n : Nat) : TWord :=
      let old := s.mem.word (fa / 4)
      ⟨Word.setBytes old.payload (fa % 4) ((Word.bytes v.payload).take n), old.tag⟩
    (∀ off pl, v.tag ∉ [Tag.lock, Tag.token, Tag.poison] →
      reach s p f.ra f.seg f.l (f.operand.toInt * 4) 4 Need.write = .ok (off, pl) → pl.isLocal = true → s.stores p pl.fa →
      Answers (exec (.st p f) s) fun t => Stored s t p pl.fa v) ∧
    (∀ off pl, v.tag ∉ [Tag.lock, Tag.token, Tag.poison] →
      reach s p f.ra f.seg f.l f.operand.toInt 1 Need.write = .ok (off, pl) → pl.isLocal = true → s.stores p pl.fa →
      intLike (s.mem.word (pl.fa / 4)).tag = true → Answers (exec (.stb p f) s) fun t => Stored s t p pl.fa (part pl.fa 1)) ∧
    (∀ off pl, v.tag ∉ [Tag.lock, Tag.token, Tag.poison] →
      reach s p f.ra f.seg f.l f.operand.toInt 2 Need.write = .ok (off, pl) → pl.isLocal = true → s.stores p pl.fa →
      intLike (s.mem.word (pl.fa / 4)).tag = true → Answers (exec (.sth p f) s) fun t => Stored s t p pl.fa (part pl.fa 2)) ∧
    (∀ off pl, v.tag ∉ [Tag.lock, Tag.token, Tag.poison] →
      reach s p f.ra f.seg f.l (f.operand.toInt * 4) 4 Need.write = .ok (off, pl) → pl.isLocal = true → s.meets p pl.fa →
      (s.mem.word (pl.fa / 4)).tag = Tag.poison → Answers (exec (.st p f) s) fun t =>
        t.mem.word (pl.fa / 4) = v ∧ (∀ i, i ≠ pl.fa / 4 → t.mem.word i = s.mem.word i) ∧ (∀ a, t.mem.byte a = s.mem.byte a) ∧
        (t.core p).a.g = k.a.g ∧ (t.core p).a.stat = k.a.stat ∧ (t.core p).a.pc = k.a.pc + 1 ∧ t.flasks = s.flasks ∧
        (t.reg Reg.memLogHead).toNat = ((s.reg Reg.memLogHead).toNat % 64 + 1) % 64)

/-- A store over a LOCK word, and a store of a byte over a word that is neither INT nor RAW, raise `TAG` and write nothing
(R98); where that word is tagged POISON it is logged once more (R222). -/
def Claims.StoresRespectTags : Prop :=
  ∀ (s : State) (p : Proc) (f : MemF) (off : Int) (pl : Place),
    s.issues p f.cond .next = true → offLike ((s.core p).reg f.ra).tag = true →
    ((s.core p).reg f.rd).tag ∉ [Tag.lock, Tag.token, Tag.poison] → pl.isLocal = true →
    (s.core p).moves.toList.all Option.isNone = true → (s.core p).eng.toList.all (fun g => g.queue.isEmpty) = true →
    s.mem.wordMark (pl.fa / 4) = .good →
    let tag := (s.mem.word (pl.fa / 4)).tag
    let trap := (s.fetched p .next).takeTrap p
      { trapOf Vec.tag with seg := f.seg, eaddr := BitVec.ofInt 32 off, found := tag }
    (reach s p f.ra f.seg f.l (f.operand.toInt * 4) 4 Need.write = .ok (off, pl) → tag = Tag.lock →
      exec (.st p f) s = .next trap) ∧
    let logged (u : State) : State := State.logMem { u with mem := u.mem.setWord (pl.fa / 4) TWord.poisoned }
      (sramMemory (4 * (pl.fa / 4))) true true .core (4 * (pl.fa / 4))
    let trapLogged := (logged (s.fetched p .next)).takeTrap p
      { trapOf Vec.tag with seg := f.seg, eaddr := BitVec.ofInt 32 off, found := Tag.poison }
    (reach s p f.ra f.seg f.l f.operand.toInt 1 Need.write = .ok (off, pl) → intLike tag = false →
      exec (.stb p f) s = .next (if tag = Tag.poison then trapLogged else trap)) ∧
    (reach s p f.ra f.seg f.l f.operand.toInt 2 Need.write = .ok (off, pl) → intLike tag = false →
      exec (.sth p f) s = .next (if tag = Tag.poison then trapLogged else trap))

/-- Stores to the processor's own stores. -/
def Obligations.LocalStoresChecked : Prop := Claims.LocalStores ∧ Claims.StoresRespectTags

/-- tas, lres and scond at a store of the processor's own (R107, R108). -/
def Obligations.LocalAtomics : Prop :=
  ∀ (s : State) (p : Proc) (f : MemF) (off : Int) (pl : Place) (w : TWord),
    s.issues p f.cond .next = true → offLike ((s.core p).reg f.ra).tag = true → pl.isLocal = true →
    s.stores p pl.fa → s.unplaced pl.fa → s.mem.word (pl.fa / 4) = w →
    let k := s.core p
    let v := k.reg (f.operand.extractLsb' 6 4)
    (reach s p f.ra f.seg f.l (f.operand.toInt * 4) 4 ⟨true, true, true⟩ = .ok (off, pl) →
      Answers (exec (.tas p f) s) fun t =>
        (t.core p).a.g = k.a.gSet f.rd w ∧ (t.core p).a.stat = { k.a.stat with z := decide (w.payload = 0) } ∧
        (t.core p).a.pc = k.a.pc + 1 ∧
        t.mem.word (pl.fa / 4) = (if w.payload = 0 then ⟨1, Tag.int⟩ else w) ∧
        ∀ i, i ≠ pl.fa / 4 → t.mem.word i = s.mem.word i) ∧
    (reach s p f.ra f.seg f.l (f.operand.toInt * 4) 4 ⟨true, false, true⟩ = .ok (off, pl) → k.unseenAt (pl.fa / 4) = false →
      Answers (exec (.lres p f) s) fun t =>
        (t.core p).a.g = k.a.gSet f.rd w ∧ (t.core p).a.stat = k.a.stat ∧ (t.core p).a.pc = k.a.pc + 1 ∧
        (t.core p).a.resv = ⟨true, pl.fa / 64⟩ ∧ t.mem = s.mem) ∧
    (reach s p f.ra f.seg f.l ((f.operand.extractLsb' 0 6).toInt * 4) 4 ⟨false, true, true⟩ = .ok (off, pl) →
      v.tag ∉ [Tag.lock, Tag.token, Tag.poison] →
      let ok := k.a.resv.valid && k.a.resv.line == pl.fa / 64
      Answers (exec (.scond p f) s) fun t =>
        (t.core p).a.g = k.a.gSet f.rd ⟨if ok then 1 else 0, Tag.int⟩ ∧
        (t.core p).a.stat = { k.a.stat with z := ok } ∧ (t.core p).a.pc = k.a.pc + 1 ∧
        (t.core p).a.resv.valid = false ∧
        t.mem.word (pl.fa / 4) = (if ok then v else w) ∧ ∀ i, i ≠ pl.fa / 4 → t.mem.word i = s.mem.word i)

/-- An access of any other home leaves the core as a request, and the core waits at the instruction; a store is posted, and
the core goes on (R85, R86). -/
def Obligations.RemoteAccesses : Prop :=
  ∀ (s : State) (p : Proc) (f : MemF) (off : Int) (fa : Nat),
    s.issues p f.cond .next = true → offLike ((s.core p).reg f.ra).tag = true →
    let k := s.core p
    let v := k.reg f.rd
    let w := k.reg (f.operand.extractLsb' 6 4)
    let dest (disp : Int) (size : Nat) (need : Need) : Prop := reach s p f.ra f.seg f.l disp size need = .ok (off, .away fa)
    let imm10 := f.operand.toInt * 4
    let imm6 := (f.operand.extractLsb' 0 6).toInt * 4
    let size := if (f.operand.extractLsb' 7 3).toNat < 2 then 1 else 2
    let asks (i : Instr) (op : MemOp) : Prop := Answers (exec i s) fun t => Asked s t p i fa f.seg off op
    let posts (i : Instr) (n : Nat) : Prop := Answers (exec i s) fun t =>
      (t.core p).a = { k.a with pc := k.a.pc + 1, timers := k.a.timersAfter } ∧ (t.core p).unacked = k.unacked + 1 ∧
        t.mem = s.mem ∧ t.fab.reqs = s.fab.reqs ++
          [⟨s.fab.nextId, p, k.gen, BitVec.ofNat 48 fa, (k.a.desc f.seg).flask, f.seg, BitVec.ofInt 32 off, true, .store n v⟩]
    (dest imm10 4 Need.read → asks (.ld p f) (.load 4)) ∧
    (dest imm6 4 Need.read → Tag.reserved (f.operand.extractLsb' 6 4) = false → asks (.ldc p f) (.load 4)) ∧
    (dest (f.operand.extractLsb' 0 7).toInt size Need.read → (f.operand.extractLsb' 7 3).toNat < 4 →
      asks (.ldsub p f) (.load size)) ∧
    (dest imm10 4 ⟨true, true, true⟩ → space fa < 3 → asks (.tas p f) .tas) ∧
    (dest imm10 4 ⟨true, false, true⟩ → space fa = 1 → asks (.lres p f) .lres) ∧
    (dest imm6 4 ⟨false, true, true⟩ → space fa = 1 → w.tag ∉ [Tag.lock, Tag.token, Tag.poison] →
      asks (.scond p f) (.scond w)) ∧
    (v.tag ∉ [Tag.lock, Tag.token, Tag.poison] →
      (dest imm10 4 Need.write → posts (.st p f) 4) ∧ (dest f.operand.toInt 1 Need.write → posts (.stb p f) 1) ∧
      (dest f.operand.toInt 2 Need.write → posts (.sth p f) 2))

/-! ### Branch, call, return and jump -/

/-- Taken branches and jumps inside the store (R87, R88). -/
def Claims.Branches : Prop :=
  (∀ (s : State) (p : Proc) (f : BrF), s.issues p f.cond .transfer = true →
    let k := s.core p
    let dest : Int := k.a.pc + f.disp.toInt
    (0 ≤ dest → dest < procWords p →
      Answers (exec (.b p f) s) (fun t => Retires s t p dest.toNat k.a.g k.a.stat) ∧
      Answers (exec (.bl p f) s) fun t =>
        Retires s t p dest.toNat (k.a.gSet 15 ⟨BitVec.ofNat 32 (k.a.pc + 1), Tag.code⟩) k.a.stat) ∧
    ((dest < 0 ∨ (procWords p : Int) ≤ dest) →
      exec (.b p f) s = .next ((s.fetched p .transfer).takeTrap p (trapOf Vec.fetch)) ∧
      exec (.bl p f) s = .next ((s.fetched p .transfer).takeTrap p (trapOf Vec.fetch)))) ∧
  (∀ (s : State) (p : Proc) (f : JmpF), s.issues p f.cond .transfer = true →
    let k := s.core p
    let w := k.reg f.ra
    (w.tag = Tag.code → w.payload.toNat < procWords p →
      Answers (exec (.jr p f) s) fun t => Retires s t p w.payload.toNat k.a.g k.a.stat) ∧
    (procWords p ≤ w.payload.toNat →
      exec (.jr p f) s = .next ((s.fetched p .transfer).takeTrap p (trapOf Vec.fetch))))

/-- A call with an empty mask stores the frame header below g14, and sets g14, g15 and pc; a return finds the header at g14,
takes it off, and goes to g15 (R88, R105). -/
def Claims.CallAndReturn : Prop :=
  (∀ (s : State) (p : Proc) (f : CallF) (pl : Place), s.issues p f.cond .call = true →
    let k := s.core p
    let sp : Int := (k.reg 14).payload.toNat
    let dest : Int := k.a.pc + f.disp.toInt
    f.mode = 0 → f.mask = 0 → f.resv = 0 → offLike (k.reg 14).tag = true → 0 ≤ dest → dest < procWords p →
    (∃ addr, segCheck k.a 7 (sp - 4) 4 Need.write = .ok addr ∧ locate s p (k.a.desc 7) 7 (sp - 4) addr = .ok pl) →
    pl.isLocal = true → s.stores p pl.fa →
    Answers (exec (.call p f) s) fun t =>
      t.mem.word (pl.fa / 4) = ⟨0xCA11_0000, Tag.raw⟩ ∧ (∀ i, i ≠ pl.fa / 4 → t.mem.word i = s.mem.word i) ∧
      (t.core p).a.pc = dest.toNat ∧ (t.core p).a.stat = k.a.stat ∧
      (t.core p).a.g = { k.a with g := k.a.gSet 14 ⟨BitVec.ofInt 32 (sp - 4), Tag.ptr⟩ }.gSet 15
        ⟨BitVec.ofNat 32 (k.a.pc + 2), Tag.code⟩) ∧
  (∀ (s : State) (p : Proc) (f : JmpF) (pl : Place) (w : TWord), s.issues p f.cond .transfer = true →
    let k := s.core p
    let sp : Int := (k.reg 14).payload.toNat
    f.ra = 0 → f.mask = 0 → offLike (k.reg 14).tag = true → (k.reg 15).tag = Tag.code →
    (k.reg 15).payload.toNat < procWords p →
    (∃ addr, segCheck k.a 7 sp 4 Need.read = .ok addr ∧ locate s p (k.a.desc 7) 7 sp addr = .ok pl) → pl.isLocal = true →
    s.reads p pl.fa w →
    (w.payload = 0xCA11_0000 → Answers (exec (.ret p f) s) fun t =>
      Retires s t p (k.reg 15).payload.toNat (k.a.gSet 14 ⟨BitVec.ofInt 32 (sp + 4), Tag.ptr⟩) k.a.stat) ∧
    (w.payload.toNat / 2 ^ 16 ≠ 0xCA11 → exec (.ret p f) s = .next ((s.fetched p .transfer).takeTrap p
      { trapOf Vec.tag with seg := 7, eaddr := BitVec.ofInt 32 sp, found := w.tag })))

/-- Branches, calls and returns. -/
def Obligations.ControlFlow : Prop := Claims.Branches ∧ Claims.CallAndReturn

/-! ### Streams (class 0xA) -/

/-- recv, rtry, peek and waitany at a port that holds a word; rtry and peek at an empty one; pstat (R89). -/
def Claims.StreamReceives : Prop :=
  ∀ (s : State) (p : Proc) (f : StrF),
    s.issues p f.cond .next = true → f.resv = 0 →
    let k := s.core p
    let st := k.a.stat
    (∀ w, k.front f.port = some w →
      let took := k.setInport f.port (k.inport f.port).tail
      Answers (exec (.recv p f) s) (fun t => RetiresCore s t p (took.goes (k.a.gSet f.r w) st)) ∧
      Answers (exec (.rtry p f) s) (fun t => RetiresCore s t p (took.goes (k.a.gSet f.r w) { st with z := false })) ∧
      Answers (exec (.peek p f) s) fun t => Retires s t p (k.a.pc + 1) (k.a.gSet f.r w) { st with z := false }) ∧
    (k.front f.port = none →
      Answers (exec (.rtry p f) s) (fun t => Retires s t p (k.a.pc + 1) k.a.g { st with z := true }) ∧
      Answers (exec (.peek p f) s) (fun t => Retires s t p (k.a.pc + 1) k.a.g { st with z := true }) ∧
      Answers (exec (.recv p f) s) fun t => t.core p = { k with
        ahead := (t.core p).ahead, wait := some ⟨.recv p f, true, 0, []⟩ } ∧ t.mem = s.mem) ∧
    (∀ q, f.mask.getLsbD q.toNat = true → (k.front q).isSome = true →
      (∀ r, r.toNat < q.toNat → f.mask.getLsbD r.toNat = true → (k.front r) = none) →
      Answers (exec (.waitany p f) s) fun t =>
        Retires s t p (k.a.pc + 1) (k.a.gSet f.r ⟨BitVec.ofNat 32 q.toNat, Tag.int⟩) st) ∧
    (Answers (exec (.pstat p f) s) fun t => ∃ v : Word, Retires s t p (k.a.pc + 1) (k.a.gSet f.r ⟨v, Tag.int⟩) st ∧
      (∀ q : Port, v.getLsbD q.toNat = !(k.inport q).isEmpty) ∧
      (∀ q : Port, v.getLsbD (8 + q.toNat) = decide (0 < (k.outport q).credits)) ∧ v.toNat < 2 ^ 16)

/-- send and stry: a credit is taken and the word leaves for the stream's other end; without a credit stry sets `Z` and send
waits; a word tagged LOCK raises `TAG` (R89, R96, R166). -/
def Claims.StreamSends : Prop :=
  ∀ (s : State) (c : CoreId) (f : StrF),
    let p := Proc.core c
    s.issues p f.cond .next = true → f.resv = 0 →
    let k := s.core p
    let o := k.outport f.port
    let w := k.reg f.r
    let sent := k.setOutport f.port { o with credits := o.credits - 1, sent := o.sent + 1 }
    (w.tag ≠ Tag.lock → 0 < o.credits → ∀ d, o.dst = some d →
      let leaves (t : State) : Prop := t.fab = { s.fab with
        transit := s.fab.transit ++ [⟨c, f.port, k.gen, d.1, d.2, ⟨w, k.flask, false⟩⟩] }
      Answers (exec (.send p f) s) (fun t => RetiresCore s t p (sent.goes k.a.g k.a.stat) ∧ leaves t) ∧
      Answers (exec (.stry p f) s) fun t => RetiresCore s t p (sent.goes k.a.g { k.a.stat with z := false }) ∧ leaves t) ∧
    (w.tag ≠ Tag.lock → o.credits = 0 →
      Answers (exec (.stry p f) s) (fun t => Retires s t p (k.a.pc + 1) k.a.g { k.a.stat with z := true }) ∧
      Answers (exec (.send p f) s) fun t => t.core p = { k with
        ahead := (t.core p).ahead, wait := some ⟨.send p f, true, 0, []⟩ } ∧ t.fab = s.fab) ∧
    (w.tag = Tag.lock →
      exec (.send p f) s = .next ((s.fetched p .next).takeTrap p { trapOf Vec.tag with found := Tag.lock }) ∧
      exec (.stry p f) s = .next ((s.fetched p .next).takeTrap p { trapOf Vec.tag with found := Tag.lock }))

/-- Stream instructions. -/
def Obligations.Streams : Prop := Claims.StreamReceives ∧ Claims.StreamSends

/-! ### Synchronisation (class 0xB) -/

/-- The core's part of class 0xB: the operation leaves for the home of its object, with the caller's register and flask core
index, and the core waits; barr, barw and unlock do so once every earlier write of the core has been performed (R90, R175,
R178). -/
def Claims.SyncLeavesForHome : Prop :=
  ∀ (s : State) (p : Proc) (f : SyncF) (addr : Nat) (pl : Place),
    s.issues p f.cond .next = true → offLike ((s.core p).reg f.ra).tag = true →
    let k := s.core p
    let off : Int := (k.reg f.ra).payload.toNat + f.imm.toInt * 4
    space addr = 1 → locate s p (k.a.desc f.seg) f.seg off addr = .ok pl →
    let leaves (i : Instr) (kind : SyncKind) : Prop := Answers (exec i s) fun t =>
      (t.core p).wait = some ⟨i, true, pl.fa, []⟩ ∧ (t.core p).a = k.a ∧ (∀ q, q ≠ p → t.core q = s.core q) ∧ t.mem = s.mem ∧
      t.fab.syncs = s.fab.syncs ++ [⟨s.fab.nextId, p, k.gen, BitVec.ofNat 48 pl.fa, (k.a.desc f.seg).flask, f.seg,
        BitVec.ofInt 32 off, kind, (k.reg f.r).payload, k.idx⟩]
    (segCheck k.a f.seg off 4 ⟨true, true, false⟩ = .ok addr →
      (intLike (k.reg f.r).tag = true → leaves (.tdec p f) .tdec ∧ leaves (.tinc p f) .tinc ∧
        (s.fenceOver p = true → leaves (.barr p f) .barr ∧ leaves (.barw p f) .barw)) ∧
      (s.fenceOver p = true → leaves (.unlock p f) .unlock) ∧
      (k.locks.length < 4 → leaves (.lock p f) .lock ∧ leaves (.trylock p f) .trylock)) ∧
    (segCheck k.a f.seg off 4 Need.read = .ok addr → leaves (.twait p f) .twait)

/-- A core that holds four locks traps at a fifth with `LOCK_LIMIT` (R181, R191). -/
def Claims.LockLimit : Prop :=
  ∀ (s : State) (p : Proc) (f : SyncF) (addr : Nat) (pl : Place),
    s.issues p f.cond .next = true → offLike ((s.core p).reg f.ra).tag = true →
    let k := s.core p
    let off : Int := (k.reg f.ra).payload.toNat + f.imm.toInt * 4
    space addr = 1 → locate s p (k.a.desc f.seg) f.seg off addr = .ok pl → 4 ≤ k.locks.length →
    segCheck k.a f.seg off 4 ⟨true, true, false⟩ = .ok addr →
    let trap : State := (s.fetched p .next).takeTrap p
      { trapOf Vec.sync with seg := f.seg, eaddr := BitVec.ofInt 32 off, edetail := 9 }
    exec (.lock p f) s = .next trap ∧ exec (.trylock p f) s = .next trap

/-- fence ends at once when every earlier store, atomic, block-move line and send of the core has been performed, and waits
otherwise (R90, R174). -/
def Claims.FenceWaits : Prop :=
  ∀ (s : State) (p : Proc) (f : SyncF),
    s.issues p f.cond .next = true → f.ra = 0 → f.seg = 0 → f.imm = 0 →
    (s.fenceOver p = true → Answers (exec (.fence p f) s) fun t =>
      Retires s t p ((s.core p).a.pc + 1) (s.core p).a.g (s.core p).a.stat) ∧
    (s.fenceOver p = false → Answers (exec (.fence p f) s) fun t =>
      (t.core p).wait = some ⟨.fence p f, false, 0, []⟩ ∧ (t.core p).a = (s.core p).a ∧ t.mem = s.mem)

/-- Synchronisation instructions at their issue. -/
def Obligations.SyncIssues : Prop := Claims.SyncLeavesForHome ∧ Claims.LockLimit ∧ Claims.FenceWaits

/-! ### Engines (class 0xC) and block moves (class 0xD) -/

/-- An engine operation whose runs are inside their segments and whose parameter is valid enters its engine's queue; the core
goes on (R129, R131). -/
def Claims.EngineQueues : Prop :=
  ∀ (s : State) (p : Proc) (cond : BitVec 4) (e : BitVec 2),
    s.issues p cond .next = true → ((s.core p).engine e).err = none → ((s.core p).engine e).queue.length < 2 →
    (s.core p).portsEmpty = true →
    let k := s.core p
    let g := k.engine e
    let queues (i : Instr) (param : Word) (w x : Nat × Nat) (wl xl : Nat) : Prop := Answers (exec i s) fun t =>
      RetiresCore s t p ((k.setEngine e { g with queue := g.queue ++
        [⟨i, k.a.pc, param, w.1, wl, w.2, x.1, xl, x.2, s.fab.nextId, [], []⟩] }).goes k.a.g k.a.stat)
    (∀ f : EdotF, f.cond = cond → f.e = e → f.xp = false → offLike (k.reg f.wreg).tag = true →
      offLike (k.reg f.xreg).tag = true →
      let wl := k.fmt.weights.fixedWords (f.n.toNat + 1) + 1
      let xl := k.fmt.activations.fixedWords (f.n.toNat + 1) + 1
      ∀ w x, engCheck s p f.wseg f.wreg wl Need.read = .ok w → engCheck s p f.xseg f.xreg xl Need.read = .ok x →
        queues (.edot p f) 0 w x wl xl) ∧
    (∀ f : PackF, f.cond = cond → f.e = e → offLike (k.reg f.sreg).tag = true → offLike (k.reg f.dreg).tag = true →
      intLike (k.reg f.preg).tag = true →
      let prm := (k.reg f.preg).payload
      (∀ q a b, packParam prm = some q → engCheck s p f.sseg f.sreg (32 * q.n) Need.read = .ok a →
        engCheck s p f.dseg f.dreg (q.fmt.fixedWords q.n + 2 * q.n) Need.write = .ok b →
        queues (.epack p f) prm a b (32 * q.n) (q.fmt.fixedWords q.n + 2 * q.n)) ∧
      (∀ q a b, mxParam prm = some q → engCheck s p f.sseg f.sreg (packSizes false q).1 Need.read = .ok a →
        engCheck s p f.dseg f.dreg (packSizes false q).2 Need.write = .ok b →
        queues (.emx p f) prm a b (packSizes false q).1 (packSizes false q).2)) ∧
    (∀ f : EzeroF, f.cond = cond → f.e = e → f.resv = 0 → (f.p = true ∨ f.exp = 0) →
      queues (.ezero p f) 0 (0, 0) (0, 0) 0 0)

/-- erd, ewait and edrift at an idle engine without an error: rd receives the accumulator, the status or a drift count, and
nothing but that engine and `STAT` changes in the core (R144, R152). -/
def Claims.EngineReads : Prop :=
  ∀ (s : State) (p : Proc) (cond : BitVec 4) (e : BitVec 2),
    s.issues p cond .next = true → ((s.core p).engine e).err = none → ((s.core p).engine e).queue = [] →
    let k := s.core p
    let g := { k.engine e with unseen := [] }
    (∀ f : ErdF, f.cond = cond → f.e = e → f.resv = 0 →
      let r := erdValue k.fmt.stochastic f g
      Answers (exec (.erd p f) s) fun t => (t.core p).a.g = k.a.gSet f.rd r.1 ∧
        (t.core p).a.stat = k.a.stat.stick r.2.1 ∧ (t.core p).engine e = r.2.2 ∧ (t.core p).a.pc = k.a.pc + 1 ∧ (f.kind = 2 → r.1 = ⟨g.acc, Tag.int⟩)) ∧
    (∀ f : EwaitF, f.cond = cond → f.e = e → f.resv = 0 → f.all = false →
      Answers (exec (.ewait p f) s) fun t => RetiresCore s t p ((k.setEngine e g).goes k.a.g k.a.stat)) ∧
    (∀ f : EdriftF, f.cond = cond → f.e = e → f.resv = 0 →
      let v := if f.which = 0 then g.satc else if f.which = 1 then g.outc else if f.which = 2 then g.clipc else g.status
      let g' := if f.clr = false then g else if f.which = 0 then { g with satc := 0 } else if f.which = 1 then
        { g with outc := 0 } else if f.which = 2 then { g with clipc := 0 } else g
      Answers (exec (.edrift p f) s) fun t =>
        RetiresCore s t p ((k.setEngine e g').goes (k.a.gSet f.rd ⟨v, Tag.int⟩) k.a.stat))

/-- Engine instructions. -/
def Obligations.Engines : Prop := Claims.EngineQueues ∧ Claims.EngineReads

/-- bmv starts in the lowest free slot when both ends pass their checks; bwait waits while a move is
outstanding, then ends, or raises `BUS` for a move that failed (R92, R93). -/
def Obligations.BlockMoves : Prop :=
  (∀ (s : State) (p : Proc) (f : BmvF) (i : BitVec 2) (src dst : Nat),
    s.issues p f.cond .next = true → f.resv = 0 →
    let k := s.core p
    offLike (k.reg f.sreg).tag = true → offLike (k.reg f.dreg).tag = true →
    moveCheck s p f.sseg f.sreg (f.lines.toNat + 1) Need.read = .ok src →
    moveCheck s p f.dseg f.dreg (f.lines.toNat + 1) Need.write = .ok dst → space (src % 2 ^ 48) ≠ 5 →
    k.moves[i.toNat]'i.isLt = none → (∀ j : BitVec 2, j.toNat < i.toNat → (k.moves[j.toNat]'j.isLt).isSome = true) →
    Answers (exec (.bmv p f) s) fun t => RetiresCore s t p
      ({ k with moves := k.moves.set i.toNat (some ⟨s.fab.nextId, BitVec.ofNat 48 src, (k.a.desc f.sseg).flask,
        (k.a.desc f.sseg).deftag, BitVec.ofNat 48 dst, (k.a.desc f.dseg).flask, f.lines.toNat + 1, none, 0⟩) i.isLt }.goes
          k.a.g k.a.stat)) ∧
  (∀ (s : State) (p : Proc) (f : BwaitF),
    s.issues p f.cond .next = true → f.resv = 0 →
    let k := s.core p
    let allOver := k.moves.toList.all Option.isNone && !s.movesOut p
    (allOver = true → k.moveErr = [] → Answers (exec (.bwait p f) s) fun t => Retires s t p (k.a.pc + 1) k.a.g k.a.stat) ∧
    (allOver = true → ∀ x l rest, k.moveErr = (x, l) :: rest → ∃ w,
      exec (.bwait p f) s = .next ((s.setCore p { k with ahead := w, moveErr := rest }).takeTrap p
        { trapOf Vec.bus with edetail := BitVec.ofNat 32 (x.toNat + l * 2 ^ 8) })) ∧
    (allOver = false → Answers (exec (.bwait p f) s) fun t =>
      (t.core p).wait = some ⟨.bwait p f, true, 0, []⟩ ∧ (t.core p).a = k.a ∧ t.mem = s.mem))

/-! ### System (class 0xE) -/

/-- The system instructions that read or write the core's own registers (R68, R94, R95, R114–R117). -/
def Claims.SystemRegisters : Prop :=
  ∀ (s : State) (p : Proc) (f : SysF),
    s.issues p f.cond .next = true →
    let k := s.core p
    let a := k.a
    let w := (k.reg f.ra).payload
    let gives (i : Instr) (v : Word) : Prop := Answers (exec i s) fun t =>
      Retires s t p (a.pc + 1) (a.gSet f.rd ⟨v, Tag.int⟩) a.stat
    let timed (i : Instr) (x : Timers) : Prop := Answers (exec i s) fun t =>
      RetiresAs s t p { a with pc := a.pc + 1, timers := x }
    (f.imm = 0 → gives (.rdsys p f) a.stat.toWord) ∧ (f.imm = 1 → gives (.rdsys p f) a.trap.epc) ∧
    (f.imm = 2 → gives (.rdsys p f) a.trap.ecause) ∧ (f.imm = 3 → gives (.rdsys p f) a.trap.eaddr) ∧
    (f.imm = 4 → gives (.rdsys p f) a.trap.edetail) ∧ (f.imm = 5 → gives (.rdsys p f) (BitVec.ofNat 32 a.tvec)) ∧
    gives (.rdrefh p f) a.refHi ∧
    (intLike (k.reg f.ra).tag = true →
      (f.imm = 0 → Answers (exec (.wrsys p f) s) fun t => Retires s t p (a.pc + 1) a.g (Stat.ofWord w)) ∧
      (f.imm = 1 → Answers (exec (.wrsys p f) s) fun t => RetiresAs s t p { a with
        pc := a.pc + 1, trap := { a.trap with epc := BitVec.ofNat 32 (w.toNat % procWords p) } }) ∧
      (w ≠ 0 → timed (.tmset p f) { a.timers with armed := true, count := w }) ∧
      (w = 0 → timed (.tmset p f) { a.timers with armed := false, count := 0, pending := true })) ∧
    timed (.tmclr p f) { a.timers with armed := false, count := 0, pending := false } ∧
    timed (.wdkick p f) { a.timers with wdCount := a.timers.wdPeriod } ∧
    (Answers (exec (.ifence p f) s) fun t => Retires s t p (a.pc + 1) a.g a.stat ∧ (t.core p).ahead = []) ∧
    (Answers (exec (.coreNop p f) s) fun t => Retires s t p (a.pc + 1) a.g a.stat) ∧
    ((a.timers.pending = true ∨ k.portsEmpty = false) →
      Answers (exec (.halt p f) s) fun t => Retires s t p (a.pc + 1) a.g a.stat) ∧
    (a.timers.pending = false → k.portsEmpty = true →
      Answers (exec (.halt p f) s) fun t => (t.core p).wait = some ⟨.halt p f, true, 0, []⟩ ∧ (t.core p).a = a)

/-- What a core reads of its descriptors, its counters and its place; the counters only under `USER_COUNTERS` (R29, R94,
R100). -/
def Claims.SystemReads : Prop :=
  (∀ (s : State) (p : Proc) (f : SysF), s.issues p f.cond .next = true →
    let k := s.core p
    let d := k.a.desc (f.imm.extractLsb' 0 3)
    let gives (i : Instr) (v : Word) : Prop := Answers (exec i s) fun t =>
      Retires s t p (k.a.pc + 1) (k.a.gSet f.rd ⟨v, Tag.int⟩) k.a.stat
    (f.imm.extractLsb' 4 2 = 0 → gives (.rdseg p f) (d.base.extractLsb' 0 32)) ∧
    (f.imm.extractLsb' 4 2 = 1 → gives (.rdseg p f) (BitVec.ofNat 32 (d.base.toNat / 2 ^ 32))) ∧
    (f.imm.extractLsb' 4 2 = 2 → gives (.rdseg p f) d.lines) ∧
    (f.imm.extractLsb' 4 2 = 3 → gives (.rdseg p f) (BitVec.ofNat 32 (d.pr.toNat + 2 * d.pw.toNat + 4 * d.px.toNat +
      8 * d.pa.toNat + 16 * d.deftag.toNat + 65536 * d.flask.toNat))) ∧
    (s.userCounters k.flask = false → exec (.rdctr p f) s = .next ((s.fetched p .next).takeTrap p (trapOf Vec.priv))) ∧
    (s.userCounters k.flask = true →
      let m := k.pm[(f.imm.extractLsb' 0 2).toNat]'(f.imm.extractLsb' 0 2).isLt
      countedEvent m.event.toNat = true → gives (.rdctr p f) m.count) ∧
    (let v := Tab.get 0 s.refs (procDie p) + Config.freeValue s.fresh
     Answers (exec (.rdref p f) s) fun t => (t.core p).a.g = k.a.gSet f.rd ⟨v.extractLsb' 0 32, Tag.int⟩ ∧
       (t.core p).a.refHi = v.extractLsb' 32 32 ∧ (t.core p).a.pc = k.a.pc + 1 ∧ Tab.get 0 t.refs (procDie p) = v ∧
       t.mem = s.mem)) ∧
  (∀ (s : State) (c : CoreId) (f : SysF), s.issues (.core c) f.cond .next = true →
    let k := s.core (.core c)
    let gives (v : Word) : Prop := Answers (exec (.rdid (.core c) f) s) fun t =>
      Retires s t (.core c) (k.a.pc + 1) (k.a.gSet f.rd ⟨v, Tag.int⟩) k.a.stat
    (f.imm = 0 → gives (BitVec.ofNat 32 k.idx)) ∧ (f.imm = 1 → gives (BitVec.ofNat 32 (k.idx / 256))) ∧
    (f.imm = 2 → gives (BitVec.ofNat 32 (s.flask (BitVec.ofNat 8 k.flask.toNat)).clusters.length)) ∧
    (f.imm = 3 → gives (BitVec.ofNat 32 k.flask.toNat)))

/-- The system registers and the reads of them. -/
def Obligations.SystemInstructions : Prop := Claims.SystemRegisters ∧ Claims.SystemReads

/-- A firmware operation on a flask core raises `PRIV` (R94). -/
def Claims.FirmwareOpsArePrivileged : Prop :=
  ∀ (s : State) (c : CoreId) (f : SysF), s.issues (.core c) f.cond .next = true →
    let trap : State := (s.fetched (.core c) .next).takeTrap (.core c) (trapOf Vec.priv)
    exec (.sysPostEvent (.core c) f) s = .next trap ∧ exec (.sysRegRead (.core c) f) s = .next trap ∧
    exec (.sysRegWrite (.core c) f) s = .next trap ∧ exec (.sysWriteDescriptor (.core c) f) s = .next trap ∧
    exec (.sysCoreControl (.core c) f) s = .next trap ∧ exec (.sysHeartbeat (.core c) f) s = .next trap ∧
    exec (.sysTapRecord (.core c) f) s = .next trap ∧ exec (.sysWait (.core c) f) s = .next trap

/-- The firmware operations on the firmware processors (R312). -/
def Claims.FirmwareOps : Prop :=
  ∀ (s : State) (p : Proc) (f : SysF), s.issues p f.cond .next = true → procIsCore p = false → f.imm.toNat % 16 < 8 →
    intLike ((s.core p).reg f.ra).tag = true →
    let k := s.core p
    let v := (k.reg f.ra).payload
    let reg (r : RegNo) : Nat := (k.reg r).payload.toNat
    (Answers (exec (.sysHeartbeat p f) s) fun t => Retires s t p (k.a.pc + 1) k.a.g k.a.stat) ∧
    (k.a.timers.pending = true → Answers (exec (.sysWait p f) s) fun t => Retires s t p (k.a.pc + 1) k.a.g k.a.stat) ∧
    (k.a.timers.pending = false → Answers (exec (.sysWait p f) s) fun t =>
      (t.core p).wait = some ⟨.sysWait p f, true, 0, []⟩ ∧ (t.core p).a = k.a) ∧
    ((s.reg Reg.ladleTapEn).getLsbD v.toNat = false → Answers (exec (.sysTapRecord p f) s) fun t =>
      Retires s t p (k.a.pc + 1) k.a.g k.a.stat) ∧
    ((s.reg Reg.ladleTapEn).getLsbD v.toNat = true → Answers (exec (.sysTapRecord p f) s) fun t =>
      (t.core p).a.g = k.a.g ∧ (t.core p).a.pc = k.a.pc + 1 ∧ t.fw.logNext = (s.fw.logNext + 1) % 4096 ∧ t.mem = s.mem) ∧
    (Answers (exec (.sysCoreControl p f) s) fun t => ∃ x : Word,
      (t.core p).a.g = k.a.gSet f.rd ⟨x, Tag.int⟩ ∧ (t.core p).a.pc = k.a.pc + 1 ∧
        ((∀ c : CoreId, (s.core (.core c)).wait = none) → t.mem = s.mem)) ∧
    (∀ x, (s.fetched p .next).regSpaceRead (v.toNat + reg 13 * 2 ^ 32) = some (x, s.fetched p .next) →
      Answers (exec (.sysRegRead p f) s) fun t => Retires s t p (k.a.pc + 1) (k.a.gSet f.rd ⟨x, Tag.int⟩) k.a.stat) ∧
    (∀ t', (s.fetched p .next).regSpaceWrite (reg 12 + reg 13 * 2 ^ 32) v = some (.next t') →
      exec (.sysRegWrite p f) s = .next (t'.retire p (k.a.pc + 1) PmEv.retired)) ∧
    (∀ cl, p = .ccc cl → v.toNat < 2 ^ 20 → coreCluster (BitVec.ofNat 20 v.toNat) = cl →
      let d := descOf (k.reg 8).payload (k.reg 9).payload (k.reg 10).payload (k.reg 11).payload
      d.flask.toNat < 256 → Answers (exec (.sysWriteDescriptor p f) s) fun t =>
        (t.core (.core (BitVec.ofNat 20 v.toNat))).a.desc (f.rd.extractLsb' 0 3) = d ∧ (t.core p).a.g = k.a.g ∧
        (t.core p).a.pc = k.a.pc + 1 ∧ t.mem = s.mem) ∧
    (∀ cl, p = .ccc cl → v.toNat % 4 = 0 → v.toNat + 64 ≤ 262144 → s.fw.down.contains (.cluster cl) = false →
      ∀ bytes, (s.fetched p .next).hubRead 0x100 .core (clusterBase cl + v.toNat) 64 = (bytes, s.fetched p .next, .ok) →
      exec (.sysPostEvent p f) s = .next ((((s.fetched p .next).wakeSys p).postDom (s.mem.clusterOwnerOf cl)
        (BitVec.ofNat 16 (fieldAt bytes 14 2)) (BitVec.ofNat 16 (fieldAt bytes 4 2)) cl.toNat
        ((bytes.drop 16).take 48)).retire p (k.a.pc + 1) PmEv.retired))

/-- The firmware's operations of `sys`. -/
def Obligations.FirmwareInstructions : Prop := Claims.FirmwareOpsArePrivileged ∧ Claims.FirmwareOps

/-! ### Issue and traps -/

/-- R99: a processor that fetches a word not tagged CODE takes `FETCH`, whatever it would have run; a word of its store that is
tagged POISON gives `ECC` and is logged as it is read (R112, R222). -/
def Obligations.FetchNeedsCode : Prop :=
  ∀ (s : State) (i : Instr) (c : CoreId) (cond : BitVec 4) (flow : Flow),
    i.issuedBy = some (.core c, cond, flow) →
    let p := Proc.core c
    let k := s.core p
    let at_ := storeBase p / 4 + k.a.pc
    let ahead := k.ahead.find? (·.1 = k.a.pc)
    let w := (ahead.map (·.2)).getD (s.mem.word at_)
    k.run = .running → k.wait = none → s.phase ≠ .off → k.postErr = [] → k.a.timers.pending = false →
    k.a.pc < procWords p → k.mayFetch p k.a.pc = true → s.mem.wordMark at_ = .good → w.tag ≠ Tag.code →
    (w.tag ≠ Tag.poison → exec i s = .next (s.takeTrap p (trapOf Vec.fetch))) ∧
    (ahead = none → w.tag = Tag.poison →
      ∃ s' : State, exec i s = .next (s'.takeTrap p (trapOf Vec.ecc)) ∧ s'.cores = s.cores ∧
        (s.mem.flip = none → ∀ j, s'.mem.word j = if j = at_ then TWord.poisoned else s.mem.word j))

/-- R72, R73: an instruction whose condition is false changes no state but pc (and the performance counters, and in stall mode the
watchdog's count, which every retired instruction restarts, R117). -/
def Claims.FalseConditionOnlyMovesPc : Prop :=
  ∀ (s : State) (i : Instr) (p : Proc) (cond : BitVec 4) (flow : Flow),
    i.issuedBy = some (p, cond, flow) → i.wf = true → s.atIssue p flow = true →
    let t := (s.core p).a.stat
    [true, t.z, !t.z, t.n != t.v, t.n == t.v, t.z || t.n != t.v, !t.z && t.n == t.v, !t.c, t.c, !t.c || t.z, t.c && !t.z, t.v,
      !t.v, t.t, !t.t][cond.toNat]? = some false →
    Answers (exec i s) fun t => Retires s t p ((s.core p).a.pc + flow.len) (s.core p).a.g (s.core p).a.stat

/-- A word with the reserved condition, or with reserved bits that are not zero, raises `ILLEGAL` whether or not its condition
is true (R71, R72, R73, R112). -/
def Claims.ReservedBitsTrap : Prop :=
  (∀ (s : State) (i : Instr) (p : Proc) (flow : Flow),
    i.issuedBy = some (p, 0xF, flow) → s.atIssue p flow = true →
    exec i s = .next ((s.fetched p flow).takeTrap p (trapOf Vec.illegal))) ∧
  (∀ (s : State) (i : Instr) (p : Proc) (cond : BitVec 4),
    i.issuedBy = some (p, cond, .next) → i.firmwareOp = false → i.wf = false → s.atIssue p .next = true →
    exec i s = .next ((s.fetched p .next).takeTrap p (trapOf Vec.illegal)))

/-- A false condition, and reserved bits. -/
def Obligations.ConditionsAndReservedBits : Prop := Claims.FalseConditionOnlyMovesPc ∧ Claims.ReservedBitsTrap

/-- Taking a trap (R110, R112, R113): `EPC`, `ECAUSE`, `EADDR` and `EDETAIL` are written, the reservation ends, `TE` becomes 0, and pc
is the handler that the vector word names; flags and registers stay, and nothing else changes but a performance counter. -/
def Claims.TrapEntry : Prop :=
  ∀ (s : State) (c : CoreId) (t : TrapInfo) (w : TWord),
    let p := Proc.core c
    let k := s.core p
    let at_ := storeBase p / 4 + (k.a.tvec + t.vector.toNat) % 2048
    k.wait = none → (k.a.stat.te = true ∨ t.vector = Vec.timer) →
    s.mem.wordMark at_ = .good → s.mem.word at_ = w → w.tag = Tag.code →
    let s' := s.takeTrap p t
    let cause := t.vector.toNat + 16 * t.seg.toNat + 128 * t.line.toNat + 256 * t.found.toNat + 4096 * t.want.toNat +
      65536 * [0x0013, 0x0014, 0x0017, 0x0011, 0x0010, 0x0015, 0x0012, 0x0021, 0x0021, 0x0018, 0x0019, 0x001A, 0x0000,
        0x001B].getD t.vector.toNat 0
    OnlyCore s s' p ∧ s'.core p = { k with
      pm := (s'.core p).pm
      a := { k.a with
        pc := w.payload.toNat % 2048
        stat := { k.a.stat with te := false }
        resv := ⟨false, k.a.resv.line⟩
        trap := ⟨BitVec.ofNat 32 k.a.pc, BitVec.ofNat 32 cause, t.eaddr, t.edetail⟩ } }

/-- A trap other than `TIMER` while `TE` is 0 stops the core where it is, with `DOUBLE_TRAP`: registers, flags and the trap
record stay (R115). -/
def Claims.DoubleTrapStops : Prop :=
  ∀ (s : State) (c : CoreId) (t : TrapInfo),
    let p := Proc.core c
    let k := s.core p
    k.wait = none → k.a.stat.te = false → t.vector ≠ Vec.timer →
    let k' := (s.takeTrap p t).core p
    k'.run = .stopped (BitVec.ofNat 8 t.vector.toNat) 0x001D ∧ k'.a = k.a

/-- R114: trapret sets pc to `EPC` and `TE` to 1 in one step; `EPC` is written with wrsys. -/
def Obligations.TrapReturn : Prop :=
  ∀ (s : State) (c : CoreId) (f : SysF),
    let p := Proc.core c
    let a := (s.core p).a
    (s.issues p f.cond .transfer = true → Answers (exec (.trapret p f) s) fun t =>
      Retires s t p (a.trap.epc.toNat % 2 ^ 11) a.g { a.stat with te := true }) ∧
    (s.issues p f.cond .next = true → f.imm = 1 → intLike ((s.core p).reg f.ra).tag = true →
      Answers (exec (.wrsys p f) s) fun t => RetiresAs s t p { a with
        pc := a.pc + 1, trap := { a.trap with epc := BitVec.ofNat 32 (((s.core p).reg f.ra).payload.toNat % 2 ^ 11) } })

/-- raise takes `SOFT` with imm[7:0] in `EDETAIL` (R94, R112). -/
def Claims.RaiseTakesSoft : Prop :=
  ∀ (s : State) (p : Proc) (f : SysF), s.issues p f.cond .next = true →
    exec (.raise p f) s = .next ((s.fetched p .next).takeTrap p
      { trapOf Vec.soft with edetail := BitVec.ofNat 32 (f.imm.toNat % 256) })

/-- The taking of a trap. -/
def Obligations.TrapsAreTaken : Prop := Claims.TrapEntry ∧ Claims.DoubleTrapStops ∧ Claims.RaiseTakesSoft

/-- At an instruction boundary, before the instruction: a posted store's error response first, then a pending `TIMER` while
`TE` is 1 (R86, R112, R116). -/
def Claims.BoundaryTraps : Prop :=
  ∀ (s : State) (i : Instr) (p : Proc) (cond : BitVec 4) (flow : Flow),
    i.issuedBy = some (p, cond, flow) →
    let k := s.core p
    k.run = .running → k.wait = none → s.phase ≠ .off →
    (∀ e rest, k.postErr = e :: rest → exec i s = .next ((s.setCore p { k with postErr := rest }).takeTrap p
      { trapOf (if e.access then Vec.access else Vec.bus) with seg := e.seg, eaddr := e.off })) ∧
    (k.postErr = [] → k.a.timers.pending = true → k.a.stat.te = true →
      exec i s = .next ((s.setCore p { k with a := { k.a with timers := { k.a.timers with pending := false } } }).takeTrap p
        (trapOf Vec.timer)))

/-- A processor that does not run, or waits, issues nothing. -/
def Claims.WaitingCoresIssueNothing : Prop :=
  ∀ (s : State) (i : Instr) (p : Proc) (cond : BitVec 4) (flow : Flow),
    i.issuedBy = some (p, cond, flow) →
    ((s.core p).run ≠ .running ∨ (s.core p).wait ≠ none ∨ s.phase = .off) → exec i s = .next s

/-- A POISON source operand of class 0x0 raises `POISON` before any `TAG`, and an operand of another type raises `TAG` and
names it: nothing is written (R96, R97, R112). -/
def Claims.OperandTraps : Prop :=
  ∀ (s : State) (p : Proc) (f : AluR) (c : Proc → AluR → Instr),
    c ∈ [Instr.and, Instr.or, Instr.xor, Instr.andn, Instr.shl, Instr.shr, Instr.sar, Instr.rol, Instr.mul, Instr.mulhs,
      Instr.mulhu, Instr.divs, Instr.divu, Instr.rems, Instr.remu, Instr.min, Instr.max, Instr.minu, Instr.maxu,
      Instr.adc, Instr.sbc] →
    s.issues p f.cond .next = true → f.resv = 0 →
    let a := ((s.core p).reg f.ra).tag
    let b := ((s.core p).reg f.rb).tag
    ((a = Tag.poison ∨ b = Tag.poison) →
      exec (c p f) s = .next ((s.fetched p .next).takeTrap p { trapOf Vec.poison with found := Tag.poison })) ∧
    (a ≠ Tag.poison → b ≠ Tag.poison → intLike a = false →
      exec (c p f) s = .next ((s.fetched p .next).takeTrap p { trapOf Vec.tag with found := a })) ∧
    (intLike a = true → b ≠ Tag.poison → intLike b = false →
      exec (c p f) s = .next ((s.fetched p .next).takeTrap p { trapOf Vec.tag with found := b }))

/-- Where traps arise, and where an instruction waits. -/
def Obligations.TrapsArise : Prop := Claims.BoundaryTraps ∧ Claims.WaitingCoresIssueNothing ∧ Claims.OperandTraps

/-! ### At the homes, and on the way back -/

/-- MEMORY_ACCESS_AT_HOME: a home performs nothing for a domain that does not own the address (R204); for one that does, a load
of a whole word answers it, and a store writes its word, or its bytes of LPDDR, and nothing else (R172, R211, R218). -/
def Claims.HomeAccess : Prop :=
  ∀ (s : State) (r : MemReq),
    s.fab.reqs.find? (·.id = r.id) = some r → s.stale r.issuer r.gen = false → s.memTurn r = true →
    let fa := r.addr.toNat
    let answers (x : Reply) (t : State) : Prop :=
      t.fab = { s.fab with reqs := s.fab.reqs.filter (·.id ≠ r.id), reps := s.fab.reps ++
        [⟨r.issuer, r.gen, r.addr, r.seg, r.off, r.posted, x⟩] }
    let old := s.mem.word (fa / 4)
    let act (e : EccReport) := exec (.memoryAccessAtHome r.id e) s
    faValid fa = true → s.keyHold fa = false → s.mem.mustCopy fa = false →
    (homeOk s r.dom fa = false → Answers (act .stored) fun t => answers .accessFault t ∧ t.mem = s.mem ∧ t.cores = s.cores) ∧
    (homeOk s r.dom fa = true →
      (∀ n, r.op = .load n → space fa < 2 → s.unplaced fa → s.mem.wordMark (fa / 4) = .good → old.tag ≠ Tag.poison →
        Answers (act .stored) fun t => answers (.data old) t ∧ t.mem = s.mem ∧ t.cores = s.cores) ∧
      (∀ n, r.op = .load n → space fa = 2 → s.unplaced fa → s.mem.cw (fa / 4 * 4) = .good →
        Answers (act .stored) fun t =>
          answers (.data ⟨BitVec.ofNat 32 (leNat (s.mem.bytes (fa / 4 * 4) 4)), Tag.raw⟩) t ∧ t.mem = s.mem ∧ t.cores = s.cores) ∧
      (∀ v, r.op = .store 4 v → space fa < 2 → s.mem.wordMark (fa / 4) = .good → old.tag ≠ Tag.lock → s.mem.flip = none →
        Answers (act .stored) fun t => t.mem.word (fa / 4) = v ∧ (∀ i, i ≠ fa / 4 → t.mem.word i = s.mem.word i) ∧
          (∀ a, t.mem.byte a = s.mem.byte a)) ∧
      (∀ v, r.op = .store 4 v → space fa < 2 → s.mem.wordMark (fa / 4) = .good → old.tag = Tag.lock →
        Answers (act .stored) fun t => answers (if r.posted then .bus else .tagFault Tag.lock) t ∧ t.mem = s.mem) ∧
      (∀ n v, r.op = .store n v → n ∈ [1, 2, 4] → fa % n = 0 → space fa = 2 → s.mem.cw (fa / 64 * 64) = .good →
        s.mem.cw (fa / 64 * 64 + 32) = .good → s.mem.flip = none →
        Answers (act .stored) fun t =>
          answers .done { t with fab := { t.fab with nextId := s.fab.nextId } } ∧ (∀ i, i < n → t.mem.byte (fa + i) = BitVec.ofNat 8 (v.payload.toNat / 256 ^ i)) ∧
          (∀ a, a < fa ∨ fa + n ≤ a → t.mem.byte a = s.mem.byte a) ∧ ∀ i, t.mem.word i = s.mem.word i))

/-- COW_COPY_COMPLETE: the shadow of a frozen granule holds its bytes as they stood; memory itself reads as before, and then the
requests that waited at the endpoints go on, of which there may be none (R22, R297). -/
def Claims.CopyOnWrite : Prop :=
  ∀ (s : State) (g : BitVec 32) (z : Frozen), Tab.get none s.mem.frozen g.toNat = some z → z.copied = false →
    ∃ t : State, exec (.cowCopyComplete g) s = .next t.inResume ∧
      (∃ z', Tab.get none t.mem.frozen g.toNat = some z' ∧ z'.copied = true ∧ z'.flask = z.flask ∧
        ∀ a, a / 65536 = g.toNat → Tab.get 0 z'.shadow a = s.mem.byte a) ∧
      (∀ a, t.mem.byte a = s.mem.byte a) ∧ (∀ i, t.mem.word i = s.mem.word i) ∧ { t with mem := s.mem } = s ∧
      ((s.ep 0).inq = [] → (s.ep 1).inq = [] → t.inResume = t)

/-- MEMORY_ACCESS_AT_HOME where the hub reads a triplicated word whose copies differ: with a majority the read is repaired and
counted and nothing else changes; without one, the owner record leaves the module without an owner for the hold, a key slot
reads as empty, and a flask enters FAILED (R225, R262, R439). -/
def Claims.Votes : Prop :=
  ∀ (s : State) (req : Nat) (w : TripWord), s.phase ≠ .off → s.holdsWord w = true →
    let act (majority : Bool) := exec (.memoryAccessAtHome req (.vote w majority)) s
    let mended : Mem := { s.mem with trip := s.mem.trip.filter fun x => x.1 != tripIndex w }
    (Answers (act true) fun t => t.reg Reg.memVoteFix = satInc (s.reg Reg.memVoteFix) ∧ t.mem = mended ∧ t.cores = s.cores ∧
      t.flasks = s.flasks ∧ t.own = s.own ∧ t.sec = s.sec ∧ t.twin = s.twin ∧ t.fab = s.fab) ∧
    (w = .ownerRecord → s.own.valid = true → Answers (act false) fun t =>
      t.own = { s.own with valid := false, holding := true, hand := none } ∧
        t.reg Reg.memVoteFail = satInc (s.reg Reg.memVoteFail) ∧ t.mem = mended) ∧
    (∀ i, w = .keySlot i → Answers (act false) fun t =>
      t.slot i.toNat = KeySlot.empty (s.slot i.toNat).assigned ∧ t.slotLost i.toNat = true ∧
        ∀ j, j ≠ i.toNat → t.slot j = s.slot j ∧ t.slotLost j = s.slotLost j) ∧
    (∀ f, w = .mouldRoot f → (s.flask f).st ≠ .failed → (s.flask f).job = none → Answers (act false) fun t =>
      (t.flask f).st = .failed ∧ (t.flask f).mould = none)

/-- What homes do with the requests that reach them, and votes. -/
def Obligations.HomesPerformAccesses : Prop := Claims.HomeAccess ∧ Claims.CopyOnWrite ∧ Claims.Votes

/-- MEMORY_RESPONSE, WRITE_ACKNOWLEDGEMENT and POSTED_STORE_ERROR: a waiting load receives its word and goes on, or takes
`ACCESS` or `BUS`; a posted store's answer lowers the count of unacknowledged ones, and an error waits for the next boundary
(R85, R86, R174). -/
def Obligations.ResponsesReachCores : Prop :=
  ∀ (s : State) (p : Proc) (r : MemRep), s.stale p r.gen = false →
    let k := s.core p
    let a := k.a
    let arrived : State := State.replied { s with fab := { s.fab with reps := s.fab.reps.erase r } } p r.fa.toNat
    (s.fab.reps.find? (fun x => x.issuer == p && !x.posted) = some r →
      (∀ f fa w, k.wait = some ⟨.ld p f, true, fa, []⟩ → r.reply = .data w →
        Answers (exec (.memoryResponse p) s) fun t =>
          (t.core p).a = { a with
            pc := a.pc + 1
            g := a.gSet f.rd (if space fa < 2 then w else ⟨w.payload, (a.desc f.seg).deftag⟩)
            stat := { a.stat with t := false }
            timers := a.timersAfter } ∧ (t.core p).wait = none ∧ t.fab = arrived.fab ∧ t.mem = s.mem) ∧
      (∀ f fa, k.wait = some ⟨.ld p f, true, fa, []⟩ → r.reply ∈ [Reply.accessFault, Reply.bus] →
        exec (.memoryResponse p) s = .next (arrived.takeTrap p
          { trapOf (if r.reply = .bus then Vec.bus else Vec.access) with seg := r.seg, eaddr := r.off }))) ∧
    (k.wait = none → s.fab.reps.find? (fun x => x.issuer == p && x.posted && x.reply.isDone) = some r →
      Answers (exec (.writeAcknowledgement p) s) fun t =>
        t.core p = { k with unacked := k.unacked - 1 } ∧ OnlyCore arrived t p) ∧
    (k.wait = none → s.fab.reps.find? (fun x => x.issuer == p && x.posted && !x.reply.isDone) = some r →
      Answers (exec (.postedStoreError p) s) fun t =>
        t.core p = { k with unacked := k.unacked - 1, postErr := k.postErr ++ [⟨decide (r.reply = .accessFault), r.seg, r.off⟩] } ∧
          OnlyCore arrived t p)

/-- STREAM_WORD_ARRIVAL and CREDIT_RETURN: a word enters its port while the port holds fewer than 16 of its kind, a hub's token
while it holds fewer than 8; a credit comes back to its output port (R161, R162, R164, R166, R167). -/
def Obligations.StreamsMove : Prop :=
  (∀ (s : State) (src : CoreId) (port : Port) (x : Transit),
    let p := Proc.core x.dst
    s.fab.transit.find? (fun y => y.src == src && y.port == port) = some x → s.stale (.core src) x.gen = false →
    (s.core p).portCount x.dport false < 16 → (s.core p).wait = none → (s.core (.core src)).wait = none →
    (∀ q, (s.core p).claims q = []) →
    Answers (exec (.streamWordArrival (.word src port)) s) fun t =>
      t.core p = (s.core p).setInport x.dport ((s.core p).inport x.dport ++ [x.w]) ∧
      (∀ q, q ≠ p → t.core q = s.core q) ∧ t.fab = { s.fab with transit := s.fab.transit.erase x }) ∧
  (∀ (s : State) (f : FlaskId) (b : BitVec 12) (x : HeldToken),
    let p := Proc.core x.core
    s.fab.tokens.find? (fun y => y.flask == f && y.binding == b && s.tokenMay y) = some x → (s.core p).wait = none → (∀ q, (s.core p).claims q = []) →
    Answers (exec (.streamWordArrival (.token f b)) s) fun t =>
      t.core p = (s.core p).setInport x.port ((s.core p).inport x.port ++ [⟨⟨x.w, Tag.token⟩, BitVec.ofNat 9 f.toNat, true⟩]) ∧
      t.fab = { s.fab with tokens := s.fab.tokens.erase x }) ∧
  (∀ (s : State) (src : CoreId) (port : Port) (n : BitVec 3) (gen : Byte) (m : Nat),
    let p := Proc.core src
    let o := (s.core p).outport port
    s.fab.credits.filter (fun x => x.1 == src && x.2.1 == port) = [(src, port, gen, m)] → n ≠ 0 → (s.core p).wait = none →
    (∀ d, o.dst = some d → s.stale (.core d.1) gen = false) →
    Answers (exec (.creditReturn src port n) s) fun t =>
      t.core p = (s.core p).setOutport port { o with credits := min (o.credits + m) o.max, sent := o.sent - m } ∧
      t.fab = { s.fab with credits := s.fab.credits.erase (src, port, gen, m) })

/-- SYNC_OP_AT_HOME on tallies and locks (R183, R184, R190): the new word, the answer, and no other word; what a tally may not
do is answered with its `SYNC` cause and changes nothing. -/
def Claims.SyncAtHome : Prop :=
  ∀ (s : State) (r : SyncReq),
    s.fab.syncs.find? (·.id = r.id) = some r → s.stale r.issuer r.gen = false → s.syncTurn r = true →
    let fa := r.addr.toNat
    faValid fa = true → homeOk s r.dom fa = true → s.objectKind r.dom fa = none → s.mem.wordMark (fa / 4) = .good →
    s.mem.flip = none → s.waitersAt fa = [] → fa % 4 = 0 →
    let w := s.mem.word (fa / 4)
    let n := w.payload.toNat % 2 ^ 31
    let a := r.reg.toNat
    let rest : List MemRep := s.fab.syncReps
    let answers (x : Reply) (t : State) : Prop :=
      t.fab = { s.fab with syncs := s.fab.syncs.filter (·.id ≠ r.id), syncReps := rest ++
        [⟨r.issuer, r.gen, r.addr, r.seg, r.off, false, x⟩] }
    let becomes (v : TWord) (t : State) : Prop := t.mem.word (fa / 4) = v ∧ ∀ i, i ≠ fa / 4 → t.mem.word i = s.mem.word i
    let act := exec (.syncOpAtHome r.id) s
    (w.tag ∈ [Tag.int, Tag.raw] →
      ((r.kind = .tdec ∨ r.kind = .tinc) → (a = 0 ∨ 65535 < a) → Answers act fun t => answers (.sync 3) t ∧ t.mem = s.mem) ∧
      (0 < a → a ≤ 65535 →
        (r.kind = .tdec → n < a → Answers act fun t => answers (.sync 1) t ∧ t.mem = s.mem) ∧
        (r.kind = .tinc → 2 ^ 31 ≤ n + a → Answers act fun t => answers (.sync 2) t ∧ t.mem = s.mem) ∧
        (r.kind = .tdec → a ≤ n → Answers act fun t => answers (.flags (decide (n = a)) none) t ∧
          becomes ⟨w.payload - r.reg, w.tag⟩ t) ∧
        (r.kind = .tinc → n + a < 2 ^ 31 → Answers act fun t => answers (.flags false none) t ∧
          becomes ⟨w.payload + r.reg, w.tag⟩ t)) ∧
      (r.kind = .twait → n = 0 → Answers act fun t => answers (.data ⟨0, Tag.int⟩) t ∧ t.mem = s.mem)) ∧
    (w.tag ∉ [Tag.int, Tag.raw, Tag.lock, Tag.poison] → r.kind ∉ [SyncKind.barr, .barw] →
      Answers act fun t => answers (.sync 4) t ∧ t.mem = s.mem) ∧
    (r.kind ∈ [SyncKind.barr, .barw] → faValid (fa + 28) = true →
      (∀ i, i < 8 → s.mem.wordMark (fa / 4 + i) = .good ∧ (s.mem.word (fa / 4 + i)).tag ≠ Tag.poison) →
      (∃ i, i < 8 ∧ (s.mem.word (fa / 4 + i)).tag ∉ [Tag.int, Tag.raw]) →
      Answers act fun t => answers (.sync 4) t ∧ t.mem = s.mem) ∧
    (w.tag = Tag.lock →
      ((r.kind = .lock ∨ r.kind = .trylock) → w.payload.getLsbD 20 = false → r.holder < 2 ^ 20 →
        let ab := w.payload.getLsbD 21
        Answers act fun t => answers (.flags true (some ⟨if ab then 0x51 else 0, Tag.int⟩)) t ∧
          becomes ⟨BitVec.ofNat 32 (r.holder + 2 ^ 20 + (if ab then 2 ^ 21 else 0) +
            if w.payload.getLsbD 22 then 2 ^ 22 else 0), Tag.lock⟩ t) ∧
      (r.kind = .trylock → w.payload.getLsbD 20 = true → w.payload.toNat % 2 ^ 20 ≠ r.holder →
        Answers act fun t => answers (.flags false (some ⟨w.payload, Tag.int⟩)) t ∧ t.mem = s.mem) ∧
      (r.kind = .unlock → w.payload.getLsbD 20 = true → w.payload.toNat % 2 ^ 20 = r.holder →
        Answers act fun t => answers .done t ∧ becomes ⟨0, Tag.lock⟩ t) ∧
      (r.kind = .unlock → w.payload.getLsbD 20 = false → Answers act fun t => answers (.sync 7) t ∧ t.mem = s.mem))

/-- SYNC_REPLY: the waiting instruction writes back and goes on (R183, R186, R190, R191). -/
def Claims.SyncAnswers : Prop :=
  ∀ (s : State) (p : Proc) (r : MemRep),
    s.fab.syncReps.find? (·.issuer == p) = some r → s.stale p r.gen = false →
    let k := s.core p
    let goes (a : Arch) (k' : Core) (t : State) : Prop :=
      t.core p = { k' with a := { a with pc := a.pc + 1, timers := a.timersAfter }, wait := none, pm := (t.core p).pm } ∧
        t.mem = s.mem ∧ t.fab = { s.fab with syncReps := s.fab.syncReps.erase r }
    let waits (i : Instr) : Prop := k.wait = some ⟨i, true, r.fa.toNat, []⟩
    ∀ f : SyncF,
      (∀ z, (waits (.tdec p f) ∨ waits (.tinc p f)) → r.reply = .flags z none →
        Answers (exec (.syncReply p) s) (goes { k.a with stat := { k.a.stat with z := z } } k)) ∧
      (∀ d, waits (.twait p f) → r.reply = .data d →
        Answers (exec (.syncReply p) s) (goes { k.a with g := k.a.gSet f.r d } k)) ∧
      (∀ d, waits (.lock p f) → r.reply = .flags true (some d) →
        Answers (exec (.syncReply p) s) (goes { k.a with g := k.a.gSet f.r d, stat := { k.a.stat with z := true } }
          { k with locks := k.locks.filter (fun h => h.addr != r.fa) ++ [⟨r.fa, false⟩] })) ∧
      (waits (.unlock p f) → r.reply = .done →
        Answers (exec (.syncReply p) s) (goes k.a { k with locks := k.locks.filter fun h => h.addr != r.fa })) ∧
      (waits (.barr p f) → r.reply = .done →
        let v := (k.reg f.r).payload
        let up : TWord := ⟨BitVec.ofNat 32 (v.toNat - v.toNat / 2 ^ 16 % 4 * 2 ^ 16 + (v.toNat / 2 ^ 16 + 1) % 4 * 2 ^ 16), Tag.int⟩
        Answers (exec (.syncReply p) s) (goes { k.a with g := k.a.gSet f.r up } k)) ∧
      (k.wait = some ⟨.barw p f, true, r.fa.toNat, [TWord.zero]⟩ → r.reply = .done → Answers (exec (.syncReply p) s) (goes k.a k)) ∧
      (∀ d i, i ∈ [Instr.tdec p f, .tinc p f, .twait p f, .barr p f, .barw p f, .lock p f, .trylock p f, .unlock p f] →
        waits i → r.reply = .sync d →
        exec (.syncReply p) s = .next (State.takeTrap (State.travel { s with fab := { s.fab with
          syncReps := s.fab.syncReps.erase r } } (faDie r.fa.toNat) (procDie p) 1 4) p
          { trapOf Vec.sync with seg := r.seg, eaddr := r.off, edetail := d }))

/-- SYNC_WAIT_RETRY sends the operation again; LOCK_ABANDON leaves a lost holder's lock free and abandoned (R178, R192). -/
def Claims.RetryAndAbandon : Prop :=
  (∀ (s : State) (p : Proc) (f : SyncF) (fa addr : Nat) (pl : Place),
    let k := s.core p
    let off : Int := (k.reg f.ra).payload.toNat + f.imm.toInt * 4
    k.wait = some ⟨.twait p f, false, fa, []⟩ → offLike (k.reg f.ra).tag = true →
    segCheck k.a f.seg off 4 Need.read = .ok addr → space addr = 1 → locate s p (k.a.desc f.seg) f.seg off addr = .ok pl →
    Answers (exec (.syncWaitRetry p) s) fun t =>
      (t.core p).wait = some ⟨.twait p f, true, pl.fa, []⟩ ∧ (t.core p).a = k.a ∧ t.mem = s.mem ∧
      t.fab.syncs = s.fab.syncs ++ [⟨s.fab.nextId, p, k.gen, BitVec.ofNat 48 pl.fa, (k.a.desc f.seg).flask, f.seg,
        BitVec.ofInt 32 off, .twait, (k.reg f.r).payload, k.idx⟩]) ∧
  (∀ (s : State) (c : CoreId) (idx : Nat) (a : BitVec 48),
    s.fab.lost = [(c, idx, a)] → idx < 2 ^ 20 → s.waitersAt a.toNat = [] → s.mem.flip = none →
    let w := s.mem.word (a.toNat / 4)
    w.tag = Tag.lock → w.payload.getLsbD 20 = true → w.payload.toNat % 2 ^ 20 = idx →
    Answers (exec (.lockAbandon c) s) fun t =>
      t.fab.lost = [] ∧ t.mem.word (a.toNat / 4) = ⟨BitVec.ofNat 32 (idx + 2 ^ 21), Tag.lock⟩ ∧
        ∀ i, i ≠ a.toNat / 4 → t.mem.word i = s.mem.word i)

/-- Synchronisation objects at their homes and on the way back. -/
def Obligations.SyncUnits : Prop := Claims.SyncAtHome ∧ Claims.SyncAnswers ∧ Claims.RetryAndAbandon

/-- BLOCK_MOVE_COMPLETE frees the move's slot, and notes the line that stopped it if one did, or leaves a move that must wait for
a key or a copy (R22, R92, R93, R232); ENGINE_OP_COMPLETE of
an ezero clears the accumulator and takes the operation from the queue (R143); OPERAND_TIMEOUT leaves the engine with its error
and an empty queue (R154, R156). -/
def Claims.MovesAndEnginesEnd : Prop :=
  (∀ (s : State) (p : Proc) (slot : BitVec 2) (m : Move),
    (s.core p).moves[slot.toNat]'slot.isLt = some m → s.moveTurn p m = true → (s.core p).wait = none →
    let waits := s.moveWaits m m.next (m.lines - m.next)
    (waits.1 = false → Answers (exec (.blockMoveComplete p slot) s) fun t =>
      (t.core p).moves[slot.toNat]'slot.isLt = none ∧
      ((t.core p).moveErr = (s.core p).moveErr ∨
        ∃ i, m.next ≤ i ∧ i < m.lines ∧ (t.core p).moveErr = (s.core p).moveErr ++ [(slot, i)])) ∧
    (waits.1 = true → Answers (exec (.blockMoveComplete p slot) s) fun t =>
      (t.core p).moves = (s.core p).moves ∧ (t.core p).moveErr = (s.core p).moveErr ∧ (t.core p).a = (s.core p).a)) ∧
  (∀ (s : State) (c : CoreId) (e : BitVec 2) (f : EzeroF) (op : EngOp) (rest : List EngOp),
    let p := Proc.core c
    let k := s.core p
    let g := k.engine e
    g.queue = op :: rest → op.instr = .ezero p f → k.wait = none → k.portsEmpty = true →
    Answers (exec (.engineOpComplete c e) s) fun t =>
      (t.core p).engine e = { g with acc := 0, aexp := if f.p then f.exp else 0, pinned := f.p, sat := false, nan := false
                                     queue := rest } ∧
      (t.core p).a = k.a ∧ t.mem = s.mem) ∧
  (∀ (s : State) (c : CoreId) (e : BitVec 2) (f : EdotF) (op : EngOp) (rest : List EngOp),
    let p := Proc.core c
    let k := s.core p
    let g := k.engine e
    g.queue = op :: rest → op.instr = .edot p f → op.ready k.fmt = false → k.wait = none → k.portsEmpty = true →
    Answers (exec (.operandTimeout c e) s) fun t =>
      ∃ x, ((t.core p).engine e) = { g with queue := [], err := some x } ∧ x.cause = EngCause.timeout ∧
        x.opPc = op.pc ∧ (x.discarded = decide (rest ≠ [])) ∧ (t.core p).a = k.a ∧ t.mem = s.mem)

/-- The timers of a core and the clock of an island (R14, R109, R116, R117, R168). -/
def Claims.CoreTimers : Prop :=
  (∀ (s : State) (p : Proc), (s.core p).a.timers.armed = true → (s.core p).run = .running → (s.core p).wait = none →
    Answers (exec (.coreTimerExpiry p) s) fun t => OnlyCore s t p ∧
      t.core p = { s.core p with a := { (s.core p).a with timers := { (s.core p).a.timers with
        armed := false, count := 0, pending := true } } }) ∧
  (∀ (s : State) (c : CoreId), (s.core (.core c)).run = .running → (s.core (.core c)).wait = none →
    Answers (exec (.watchdogExpiry (.core c)) s) fun t =>
      (t.core (.core c)).run = .stopped 0xFF 0x001C ∧ (t.core (.core c)).a = (s.core (.core c)).a) ∧
  (∀ (s : State) (p : Proc), Answers (exec (.reservationTimeout p) s) fun t => OnlyCore s t p ∧
    t.core p = { s.core p with a := { (s.core p).a with resv := ⟨false, (s.core p).a.resv.line⟩ } }) ∧
  (∀ (s : State) (cl : ClusterId) (share : BitVec 7), Answers (exec (.islandClockAdjust cl share) s) fun t =>
    let v := (s.cluster cl).clock
    let want := if 60 ≤ share.toNat then v + 5 else if share.toNat ≤ 25 then v - 5 else v
    (t.cluster cl).clock = max 40 (min (s.ceiling cl) want) ∧ t.mem = s.mem ∧ t.cores = s.cores)

/-- The ends of block moves and engine operations, and the timers. -/
def Obligations.MovesEnginesTimersEnd : Prop := Claims.MovesAndEnginesEnd ∧ Claims.CoreTimers

/-! ### Ladles (R318–R331) -/

/-- NOP completes with `SUCCESS`; an abort ends the command that it names, in the caller's own ladle or, for the owner, in any
(R327, R328). -/
def Claims.NopAndAbort : Prop :=
  (∀ (s : State) (h : CmdHdr), s.starts h (.nop h) = true →
    exec (.nop h) s = .next ((s.begun h (.nop h)).done h St.success)) ∧
  (∀ (s : State) (h : CmdHdr) (tag : Word) (flask : BitVec 16) (ladle : Byte) (l : LadleRef),
    let i := Instr.abort h tag flask ladle
    let b := s.begun h i
    s.starts h i = true →
    (∀ f n, h.ladle = .flask f n → l = .flask f n) →
    (h.ladle = .admin → (flask = 0xFFFF ∧ l = .admin) ∨
      ∃ f n, flask.toNat = f.toNat ∧ ladle.toNat = n.toNat ∧ l = .flask f n ∧ (b.flask f).st ≠ .failed) →
    (∀ c, (b.ladle l).cmds.find? (fun c => decide (c.tag = tag)) = some c → isAbort c.instr = false →
      let e := b.endCommand l tag c.instr St.aborted
      (c.started = false → exec i s = .next (e.done h St.success)) ∧
      (c.started = true → (∀ f n, l = .flask f n → exec i s = .next ((e.endWork l tag).done h St.success)) ∧
        (l = .admin → exec i s = .next ((if b.keepsOn tag then (b.complete l tag St.completedBeforeAbort 0 []).unask tag
          else (e.unask tag).endWork l tag).done h St.success)))) ∧
    ((b.ladle l).cmds.find? (fun c => decide (c.tag = tag)) = none →
      (b.ladle l).held.find? (fun e => decide (e.tag = tag) && !e.event) = none →
      exec i s = .next (b.done h St.notFound)))

/-- A command timer ends a command that has not started (R326). -/
def Claims.CommandTimeout : Prop :=
  ∀ (s : State) (l : LadleRef) (tag : Word) (c : Cmd),
    s.phase.serves = true → .scheduler ∉ s.fw.down → (s.ladle l).cmds.find? (fun c => decide (c.tag = tag)) = some c →
    isAbort c.instr = false → c.started = false →
    exec (.commandTimeout l tag) s = .next (s.endCommand l tag c.instr St.timeout)

/-- Commands that end at once, and how an abort or a timeout ends them. -/
def Obligations.CommandsEnd : Prop := Claims.NopAndAbort ∧ Claims.CommandTimeout

/-- The doorbells: the tail within the ring and ahead of what was rung moves the tail; so does the head that passes
no unread entry; a tail that falls behind or leaves the ring is left at a free place of it, within the ladle's own party (log entry 41);
an unowned or unreached write is counted and nothing else (R3, R267, R282, R323, R435). -/
def Obligations.Doorbells : Prop :=
  (∀ (s : State) (e : Ep) (f : FlaskId) (n : BitVec 4) (x : BitVec 16),
    let l := LadleRef.flask f n
    let d := s.ladle l
    s.phase.serves = true → s.reaches e = true → (s.ep e).inq = [] →
    (s.pageLive e f = true → n.toNat < (s.flask f).nladles → d.enabled = true →
      (x.toNat ≠ d.sqTail → x.toNat < d.sqSize →
        ahead d.sqSize d.sqHead d.sqTail ≤ ahead d.sqSize d.sqHead x.toNat →
        exec (.fpSqdb e f n x) s = .next ((s.setLadle l { d with sqTail := x.toNat }).wakeSys (.hub 2))) ∧
      (x.toNat ≠ d.sqTail → (d.sqSize ≤ x.toNat ∨ ahead d.sqSize d.sqHead x.toNat < ahead d.sqSize d.sqHead d.sqTail) →
        exec (.fpSqdb e f n x) s = .next ((s.took.setLadle l { d with sqTail := s.free.toNat % d.sqSize }).wakeSys (.hub 2))) ∧
      (x.toNat = d.sqTail → exec (.fpSqdb e f n x) s = .next s) ∧
      (x.toNat = d.cqHead → exec (.fpCqdb e f n x) s = .next s) ∧
      (x.toNat ≠ d.cqHead → x.toNat < d.cqSize → ahead d.cqSize d.cqHead x.toNat ≤ ahead d.cqSize d.cqHead d.cqTail → d.held = [] →
        (s.box l).held = [] →
        Answers (exec (.fpCqdb e f n x) s) fun t => t.ladle l = { d with cqHead := x.toNat, raised := false } ∧
          t.mem = s.mem ∧ t.regs = s.regs)) ∧
    (s.pageLive e f = false →
      exec (.fpSqdb e f n x) s = .next (s.setFlask f { s.flask f with stray := satInc (s.flask f).stray }) ∧
      exec (.fpCqdb e f n x) s = .next (s.setFlask f { s.flask f with stray := satInc (s.flask f).stray }))) ∧
  (∀ (s : State) (m : Master) (x : BitVec 10),
    let d := s.fw.admin
    s.phase.serves = true → s.arrives m = true →
    (s.own.valid = true → s.own.master = m →
      (x.toNat ≠ d.sqTail → x.toNat < d.sqSize → ahead d.sqSize d.sqHead d.sqTail ≤ ahead d.sqSize d.sqHead x.toNat →
        Answers (exec (.admSqdb m x) s) fun t => t.fw = { s.fw with admin := { d with sqTail := x.toNat } } ∧ t.mem = s.mem ∧
          t.regs = s.regs) ∧
      (x.toNat = d.cqHead → exec (.admCqdb m x) s = .next s) ∧
      (x.toNat ≠ d.cqHead → x.toNat < d.cqSize → ahead d.cqSize d.cqHead x.toNat ≤ ahead d.cqSize d.cqHead d.cqTail → d.held = [] →
        s.fw.box.held = [] →
        Answers (exec (.admCqdb m x) s) fun t => t.fw = { s.fw with admin := { d with cqHead := x.toNat, raised := false } } ∧
          t.mem = s.mem ∧ t.regs = s.regs)) ∧
    (s.isOwner m = false → exec (.admSqdb m x) s = .next (s.observed m) ∧ exec (.admCqdb m x) s = .next (s.observed m)))

/-- The words of an entry of a completion ring (R322). -/
def entryWord (e : Entry) (phase : Bool) (sqHead : Nat) (k : Nat) : Word :=
  if k = 0 then e.tag
  else if k = 1 then BitVec.ofNat 32 (e.status.toNat + (if phase then 2 ^ 16 else 0) + if e.event then 2 ^ 17 else 0)
  else if k = 2 then e.detail
  else if k = 3 then BitVec.ofNat 32 (sqHead % 2 ^ 16 + e.code.toNat * 2 ^ 16)
  else BitVec.ofNat 32 (leNat (((e.result ++ List.replicate 48 0).drop (4 * (k - 4))).take 4))

/-- A completion leaves its ladle's list of outstanding commands and is written, once, at the ring's tail; the tail moves on,
and the phase turns at the ring's end (R322, R323, R325, R330). -/
def Claims.CompletionsAreWritten : Prop :=
  (∀ (s : State) (tag : Word) (status : Status) (detail : Word) (result : List Byte) (c : Cmd),
    let d := s.fw.admin
    let t := s.complete .admin tag status detail result
    let e : Entry := ⟨tag, status, false, c.quiet, detail, opcodeOf c.instr, result⟩
    let tail := (d.cqTail + 1) % 2 ^ d.cqLog2
    d.cmds.find? (fun c => decide (c.tag = tag)) = some c → d.enabled = true → d.held = [] → d.cqFull = false →
    s.own.next = none →
    t.fw.admin = { d with cmds := d.cmds.filter fun c => decide (c.tag ≠ tag), cqTail := tail
                          phase := if tail = 0 then !d.phase else d.phase } ∧
    (∀ k, k < 16 → Tab.get 0 t.fw.admCq (16 * d.cqTail + k) = entryWord e d.phase d.sqHead k) ∧
    (∀ k, k < 16 * d.cqTail ∨ 16 * d.cqTail + 16 ≤ k → Tab.get 0 t.fw.admCq k = Tab.get 0 s.fw.admCq k) ∧
    t.mem = s.mem ∧ t.flasks = s.flasks ∧ t.cores = s.cores) ∧
  (∀ (s : State) (f : FlaskId) (n : BitVec 4) (tag : Word) (status : Status) (detail : Word) (result : List Byte) (c : Cmd),
    let l := LadleRef.flask f n
    let d := s.ladle l
    let t := s.complete l tag status detail result
    let tail := (d.cqTail + 1) % 2 ^ d.cqLog2
    d.cmds.find? (fun c => decide (c.tag = tag)) = some c → d.enabled = true → d.held = [] → d.cqFull = false →
    s.keyWaits f = false → s.own.next = none →
    t.ladle l = { d with
      cmds := d.cmds.filter fun c => decide (c.tag ≠ tag), cqTail := tail, phase := if tail = 0 then !d.phase else d.phase
      raised := d.raised || (!c.quiet && decide (d.vector.toNat < (s.flask f).vectors) && decide ((s.flask f).host.toNat < 2)) } ∧
    t.cores = s.cores)

/-- An event is an entry of its own kind, with tag 0xFFFFFFFF, in the admin ladle for the owner and in ladle 0 for a flask; a
full ladle holds 64, and what then comes is dropped and counted (R318, R322, R329). -/
def Claims.EventsAreDelivered : Prop :=
  (∀ (s : State) (code : BitVec 16) (status : Status) (src : Nat) (result : List Byte),
    let d := s.fw.admin
    let t := s.deliver .admin (evEntry code status src result)
    let tail := (d.cqTail + 1) % 2 ^ d.cqLog2
    s.fw.box = ⟨[], 0⟩ → s.ladleTakes .admin = true →
    t.fw.admin = { d with cqTail := tail, phase := if tail = 0 then !d.phase else d.phase } ∧
    (∀ k, k < 16 → Tab.get 0 t.fw.admCq (16 * d.cqTail + k) =
      entryWord ⟨0xFFFF_FFFF, status, true, false, BitVec.ofNat 32 src, code, result⟩ d.phase d.sqHead k)) ∧
  (∀ (s : State) (l : LadleRef) (e : Entry),
    let b := s.box l
    (s.ladleTakes l = false → b.held.length < 64 → s.deliver l e = s.setBox l { b with held := b.held ++ [e] }) ∧
    (b.held.length = 64 →
      s.deliver l e = (s.setBox l { b with lost := satInc b.lost }).count Reg.ladleEventsLost)) ∧
  (∀ (s : State) (f : FlaskId) (code : BitVec 16) (status : Status) (src : Nat) (result : List Byte),
    ((s.flask f).st = .free → s.postFlask f code status src result = s))

/-- Completions and events. -/
def Obligations.LadlesAnswer : Prop := Claims.CompletionsAreWritten ∧ Claims.EventsAreDelivered

/-! ### Flasks (R261–R279) -/

/-- CREATE: the flask is EMPTY with the quotas of its command; LADLE_CONFIG: the ladle is enabled with its rings, empty, its
generation raised, or off (R264–R266, R319). -/
def Claims.CreateAndConfigure : Prop :=
  (∀ (s : State) (h : CmdHdr) (p : CreateP) (f : FlaskId),
    let i := Instr.create h p
    let b := s.begun h i
    s.starts h i = true → createLegal p = true → s.phase = .service → b.quotasFit p = true → (b.flask f).st = .free →
    (p.flask.toNat = f.toNat ∨ (p.flask = 0xFFFF ∧ ∀ g : FlaskId, g.toNat < f.toNat → (b.flask g).st ≠ .free)) →
    Completes s i h St.success (f.setWidth 32) [] fun e =>
      let x := e.flask f
      x.st = .empty ∧ x.host.toNat = p.host.toNat ∧ x.vectors = p.vectors.toNat ∧ x.nladles = p.ladles.toNat ∧
      x.qpQuota = p.qpQuota.toNat ∧ x.mrQuota = p.mrQuota.toNat ∧ x.shQuota = p.shQuota.toNat ∧
      x.drainUs.toNat = (if p.drainUs = 0 then 10000 else p.drainUs.toNat % 2 ^ 16) ∧ x.key.isSome = true ∧
      x.clusters = [] ∧ x.granules = [] ∧ x.mould = none ∧ (∀ g, g ≠ f → e.flask g = b.flask g) ∧ e.mem = b.mem ∧
      e.cores = b.cores) ∧
  (∀ (s : State) (h : CmdHdr) (p : LadleP) (f : FlaskId) (n : BitVec 4),
    let i := Instr.ladleConfig h p
    let b := s.begun h i
    let l := LadleRef.flask f n
    let fl := b.flask f
    s.starts h i = true → p.flask.toNat = f.toNat → p.ladle.toNat = n.toNat → (fl.st = .empty ∨ fl.st.isCast = true) →
    n.toNat < fl.nladles → (b.ladle l).cmds = [] → (b.ladle l).held = [] →
    (p.options.getLsbD 0 = true → Completes s i h St.success 0 [] fun e =>
      e = b.setLadle l (Ladle.off ((b.ladle l).gen + 1))) ∧
    (p.options = 0 → ladleLegal p fl = true → space p.sqBase.toNat = 2 → space p.cqBase.toNat = 2 →
      p.sqBase.toNat < 2 ^ 48 → p.cqBase.toNat < 2 ^ 48 →
      inFlask b (flaskDom f) p.sqBase.toNat (64 * 2 ^ p.sqLog2.toNat) = true →
      inFlask b (flaskDom f) p.cqBase.toNat (64 * 2 ^ p.cqLog2.toNat) = true → (b.box l).held = [] →
      Completes s i h St.success 0 [] fun e => e.ladle l = { Ladle.off ((b.ladle l).gen + 1) with
        enabled := true, vector := p.vector, sqLog2 := p.sqLog2.toNat, cqLog2 := p.cqLog2.toNat
        sqBase := BitVec.ofNat 48 p.sqBase.toNat, cqBase := BitVec.ofNat 48 p.cqBase.toNat
        timeoutMs := if p.timeoutMs = 0 then 10000 else p.timeoutMs }))

/-- A reset or destruction that has begun: the flask is in that state, no core of it runs, and one that had stopped of itself
is as it was; an ingot that was under way counts as squashed (R115, R275, R276, R278). -/
def Begins (b t : State) (f : FlaskId) (st : FState) (job : FlaskJob) : Prop :=
  (t.flask f).st = st ∧
    (t.flask f).job = some { job with squashed := (b.flask f).ingot || b.ing.waiting.any fun x => x.1 == f } ∧
    ∀ c ∈ (b.flask f).cores, (t.core (.core c)).run =
      if (b.core (.core c)).run = .running then .held else (b.core (.core c)).run

/-- RESET, DESTROY and a tenant's reset: the flask's cores stop, and the drain begins; an EMPTY flask has nothing to drain; a
request joins a reset in progress (R267, R274, R275, R278, R279). -/
def Claims.ResetsBegin : Prop :=
  (∀ (s : State) (h : CmdHdr) (flask : BitVec 16) (f : FlaskId), flask.toNat = f.toNat →
    (let i := Instr.reset h flask 0 0
     let b := s.begun h i
     s.starts h i = true → (b.flask f).job = none →
     ((b.flask f).st = .empty →
       exec i s = .next (((b.setFlask f { b.flask f with resetStatus := St.success, resetSquashed := false, lastStatus := St.success
                                                         lastSquashed := false, lastByTenant := false }).complete .admin h.tag
         St.success 0 []).resetEvent f false)) ∧
     ((b.flask f).st.isCast = true →
       Answers (exec i s) fun t => Begins b t f .resetting ⟨false, 0, false, [h.tag], [], false⟩)) ∧
    (let i := Instr.destroy h flask
     let b := s.begun h i
     s.starts h i = true → (b.flask f).job = none → (b.flask f).st ≠ .free →
       Answers (exec i s) fun t => Begins b t f .destroying ⟨true, 0, false, [h.tag], [], false⟩)) ∧
  (∀ (s : State) (e : Ep) (f : FlaskId), s.phase.serves = true → s.reaches e = true → (s.ep e).inq = [] → s.pageLive e f = true →
    (.scheduler ∉ s.fw.down → (s.flask f).job = none → (s.flask f).st.isCast = true →
      Answers (exec (.fpCtlReset e f) s) fun t => Begins s t f .resetting ⟨false, 0, true, [], [], false⟩) ∧
    (∀ j, .scheduler ∉ s.fw.down → (s.flask f).job = some j → (s.flask f).st = .resetting →
      exec (.fpCtlReset e f) s = .next (s.setFlask f { s.flask f with ctlReset := true })) ∧
    (.scheduler ∈ s.fw.down → (s.flask f).st ≠ .destroying → (s.flask f).st ≠ .failed →
      exec (.fpCtlReset e f) s = .next (s.setFlask f { s.flask f with ctlReset := true })) ∧
    ((s.flask f).st = .destroying → exec (.fpCtlReset e f) s = .next (s.strayWrite f)))

/-- What the end of a drain leaves: after a reset the flask runs, or is HELD for a lapsed host; after a destruction it is FREE,
and its clusters and granules are in the pool (R275, R278). -/
def Drained (s t : State) (f : FlaskId) (j : FlaskJob) : Prop :=
  (j.destroy = false → (t.flask f).job = none ∧ (t.flask f).st = s.runState (s.flask f) ∧
    (t.flask f).clusters = (s.flask f).clusters ∧ (t.flask f).granules = (s.flask f).granules) ∧
  (j.destroy = true → (t.flask f).st = .free ∧ (t.flask f).clusters = [] ∧ (t.flask f).granules = [] ∧
    (∀ cl ∈ (s.flask f).clusters, t.mem.clusterOwnerOf cl = 0x1FF) ∧
    ∀ g ∈ (s.flask f).granules, Tab.get 0x1FF t.mem.owner g = 0x1FF)

/-- FLASK_DRAIN_COMPLETE once nothing is left of what the drain waits for, FLASK_DRAIN_TIMEOUT whatever is left, and RESET with
mode 1 at once (R274–R279), all of them once the cores' stores and block moves within the module are performed (R118, R276). -/
def Claims.DrainsEnd : Prop :=
  (∀ (s : State) (f : FlaskId) (j : FlaskJob),
    (s.flask f).job = some j → j.destroyNext = [] → .scheduler ∉ s.fw.down → s.breakout = false → s.domainHeld f = false →
    s.coresDone f = true → (∀ c ∈ (s.flask f).cores, (s.core (.core c)).run ≠ .running) →
    ((j.mode = 0 → s.drained f = true) → (j.mode = 0 ∨ j.mode = 1) →
      Answers (exec (.flaskDrainComplete f) s) fun t => Drained s t f j) ∧
    (j.mode ≠ 1 → Answers (exec (.flaskDrainTimeout f) s) fun t => Drained s t f j)) ∧
  (∀ (s : State) (h : CmdHdr) (flask : BitVec 16) (f : FlaskId),
    let i := Instr.reset h flask 1 0
    let b := s.begun h i
    flask.toNat = f.toNat → s.starts h i = true → (b.flask f).job = none → (b.flask f).st.isCast = true →
    b.breakout = false → b.domainHeld f = false → b.coresDone f = true →
    Answers (exec i s) fun t => Drained b t f ⟨false, 1, false, [h.tag], [], false⟩)

/-- CREATE and LADLE_CONFIG. -/
def Claims.FlasksAreCreated : Prop := Claims.CreateAndConfigure

/-- Reset, drain and destruction. -/
def Claims.FlasksResetAndEnd : Prop := Claims.ResetsBegin ∧ Claims.DrainsEnd

/-- The life of a flask. -/
def Obligations.FlaskLives : Prop := Claims.FlasksAreCreated ∧ Claims.FlasksResetAndEnd

/-! ### Casts (R26–R66) and the cores of a flask -/

/-- The security core can verify a cast's mould, or has: the firmware keeps a copy (R28, R339). -/
def Sys2Proof.Machine.State.verifies (s : State) (tag : Word) : Bool :=
  !s.fw.down.contains .security || s.fw.castCopy.any fun x => decide (x.1 = tag)

/-- A full cast that passes its checks: the flask holds the clusters, the granules and the mould; its cores stand at their
`ENTRY`, those with an image running that have not failed; CAST_COMPLETE carries the rotation and the measurement (R54, R57, R59,
R196). `signed` is what verifying the signature answers. -/
def Claims.CastSucceeds : Prop :=
  ∀ (s b : State) (tag : Word) (flask : BitVec 16) (env : CastEnv) (signed : Container → BitVec 256 → Bool) (f : FlaskId)
    (c : Container) (r : Nat),
    let fl := b.flask f
    let cls := c.clustersAfter r
    flask.toNat = f.toNat → ((s.flask f).st = .empty ∨ (s.flask f).st.isCast = true) → s.verifies tag = true →
    (s.readTrip (.mouldRoot f)).takeMould tag signed = (b, .ok c) → c.check b f = .ok r → fl.ingot = false →
    env.loadFault = none → env.cut = .none → c.isPartial = false →
    ∃ e : State, s.performCastAs tag flask env signed = (e.castDone tag (some f) St.success nowhere, false) ∧
      (e.flask f).clusters = cls ∧ (e.flask f).granules = c.granulesAfter b fl r ∧
      (e.flask f).mould = some (c.mouldAfter fl) ∧ (e.flask f).rot.toNat = r % 8 ∧
      (∀ cl ∈ cls, e.mem.clusterOwnerOf cl = flaskDom f) ∧
      (cls.Nodup → ∀ i x g, coreAt cls i = some x → (c.mouldAfter fl).segts.find? (fun g => g.covers i) = some g →
        (e.core (.core x)).a.pc = g.entry.toNat ∧ (e.core (.core x)).idx = i ∧ (e.core (.core x)).flask = flaskDom f ∧
        (e.core (.core x)).run = if g.image.isSome = true ∧ (s.core (.core x)).failed = false then .running else .held)

/-- The mould that a cast works from: staging is read and verified under the key that it names, at the first turn, and kept in a copy
for every later one; an error of the read, or of the signature, ends the cast (R28, R53, R55). -/
def Claims.MouldIsVerified : Prop :=
  ∀ (s : State) (tag : Word) (signed : Container → BitVec 256 → Bool),
    (∀ bs, s.fw.castCopy = some (tag, bs) → s.takeMould tag signed = (s, .ok (Container.read bs))) ∧
    ((∀ bs, s.fw.castCopy ≠ some (tag, bs)) →
      let head := s.mem.bytes stagingBase 16
      let n := fieldAt head 12 4
      let keyId := leNat (s.mem.bytes (stagingBase + n - 128) 4)
      let q := s.hubRead 0x100 .hub stagingBase n
      let c := Container.read q.1
      (∀ st, s.castCheck1 head keyId = some st → s.takeMould tag signed = (s, .error st)) ∧
      (s.castCheck1 head keyId = none →
        (q.2.2 ≠ .ok → s.takeMould tag signed = (q.2.1, .error St.uncorrectable)) ∧
        (q.2.2 = .ok → (∀ k, q.2.1.mouldKey keyId = some k → signed c k = false) →
          s.takeMould tag signed = (q.2.1, .error St.badSignature)) ∧
        (∀ k, q.2.2 = .ok → q.2.1.mouldKey keyId = some k → signed c k = true →
          ∃ b : State, s.takeMould tag signed = (b, .ok c) ∧ b.fw.castCopy = some (tag, q.1) ∧ b.flasks = s.flasks ∧
            b.cores = s.cores))) ∧
    (s.takeMould tag signed).1.flasks = s.flasks ∧ (s.takeMould tag signed).1.cores = s.cores

/-- A cast waits while the security core that is to verify its mould restarts (R339); one that fails a check changes nothing of the
flask but its event count (R55, R59). -/
def Claims.CastRefused : Prop :=
  ∀ (s b : State) (tag : Word) (flask : BitVec 16) (env : CastEnv) (signed : Container → BitVec 256 → Bool) (f : FlaskId),
    let ends (b : State) (st : Status) (w : Word) : Prop :=
      s.performCastAs tag flask env signed = (b.castDone tag (some f) st w, false)
    flask.toNat = f.toNat →
    ((s.flask f).st = .failed → ends (s.readTrip (.mouldRoot f)) St.uncorrectable nowhere) ∧
    ((s.flask f).st ∈ [FState.free, .resetting, .destroying] → ends (s.readTrip (.mouldRoot f)) St.wrongState nowhere) ∧
    ((s.flask f).st = .empty ∨ (s.flask f).st.isCast = true → s.verifies tag = false →
      s.performCastAs tag flask env signed = (s.readTrip (.mouldRoot f), true)) ∧
    ((s.flask f).st = .empty ∨ (s.flask f).st.isCast = true → s.verifies tag = true →
      (∀ st, (s.readTrip (.mouldRoot f)).takeMould tag signed = (b, .error st) → ends b st nowhere) ∧
      (∀ c st w, (s.readTrip (.mouldRoot f)).takeMould tag signed = (b, .ok c) → (b.flask f).ingot = false →
        c.check b f = .bad st w → ends b st w))

/-- CAST and FW_STAGE take their turns: performed at once where none waits, else when QUEUED_CAST_START finds them at the head,
where a cast stays while it waits; in a breakout a cast that waits ends ABORTED (R27, R64). -/
def Claims.CastsTakeTurns : Prop :=
  (∀ (s t : State) (h : CmdHdr) (flask : BitVec 16) (env : CastEnv) (stays : Bool),
    let i := Instr.cast h flask env
    let b := s.begun h i
    s.starts h i = true →
    (b.fw.waiting = [] → b.performCast h.tag flask env = (t, stays) →
      exec i s = .next (if stays then { t with fw := { t.fw with waiting := t.fw.waiting ++ [h.tag] } } else t)) ∧
    (b.fw.waiting ≠ [] → exec i s = .next { b with fw := { b.fw with waiting := b.fw.waiting ++ [h.tag] } })) ∧
  (∀ (s : State) (tag : Word) (rest : List Word) (c : Cmd),
    let popped : State := { s with fw := { s.fw with waiting := rest } }
    s.fw.waiting = tag :: rest → s.phase.serves = true → .scheduler ∉ s.fw.down →
    s.fw.admin.cmds.find? (fun c => decide (c.tag = tag)) = some c →
    (∀ h flask env t stays, c.instr = .cast h flask env → s.breakout = false → popped.performCast tag flask env = (t, stays) →
      exec .queuedCastStart s = .next (if stays then { t with fw := { t.fw with waiting := tag :: t.fw.waiting } } else t)) ∧
    (∀ h flask env, c.instr = .cast h flask env → s.breakout = true →
      exec .queuedCastStart s = .next (popped.castDone tag
        (if flask.toNat < 256 then some (BitVec.ofNat 8 flask.toNat) else none) St.aborted nowhere)) ∧
    (∀ h o l, c.instr = .fwStage h o l → s.breakout = false → .security ∉ s.fw.down →
      exec .queuedCastStart s = .next (popped.performStage tag o l)))

/-- Casts. -/
def Obligations.CastsLoadFlasks : Prop :=
  Claims.CastSucceeds ∧ Claims.MouldIsVerified ∧ Claims.CastRefused ∧ Claims.CastsTakeTurns

/-- DISPATCH: the done tally is set, the argument data written, the start tally lowered, and the command stays outstanding until
the done tally reaches 0 (R331). -/
def Claims.Dispatches : Prop :=
  (∀ (s : State) (h : CmdHdr) (p : DispatchP) (f : FlaskId) (n : BitVec 4) (fa start fin : Nat),
    let i := Instr.dispatch h p
    let b := s.begun h i
    let w (x : Nat) : TWord := b.mem.word (x / 4)
    h.ladle = .flask f n → s.starts h i = true → p.args.toNat / 2 ^ 44 = 1 → p.args.toNat % 64 = 0 →
    0 < p.doneCount.toNat → p.doneCount.toNat < 2 ^ 31 → p.resv = 0 →
    translate b (flaskDom f) p.args.toNat = some fa → p.args.toNat % 2 ^ 32 < 2 ^ 18 →
    homeOk b (flaskDom f) fa = true →
    b.tallyAt f p.startCluster p.startOffset = some start → b.tallyAt f p.doneCluster p.doneOffset = some fin →
    start ≠ fin → start / 64 ≠ fa / 64 → fin / 64 ≠ fa / 64 → b.mem.wordMark (start / 4) = .good →
    b.mem.wordMark (fin / 4) = .good → (w start).tag ∈ [Tag.int, Tag.raw] → (w fin).tag ∈ [Tag.int, Tag.raw] →
    b.tally start ≠ 0 → b.mem.flip = none →
    Answers (exec i s) fun t =>
      t.tally start = b.tally start - 1 ∧ t.tally fin = p.doneCount.toNat ∧
      (∀ k : Fin 4, t.mem.word (fa / 4 + k.val) = ⟨p.argdata.extractLsb' (32 * k.val) 32, Tag.raw⟩) ∧
      (t.flask f).disps = (b.flask f).disps ++ [⟨n, h.tag, BitVec.ofNat 48 fin, BitVec.ofNat 48 p.args.toNat⟩] ∧
      (t.ladle h.ladle).cmds = (b.ladle h.ladle).cmds) ∧
  (∀ (s : State) (f : FlaskId) (n : BitVec 4) (tag : Word) (d : Disp),
    (s.flask f).disps.find? (fun d => d.n == n && d.tag == tag) = some d → s.tally d.done.toNat = 0 → .scheduler ∉ s.fw.down →
    let r := (s.tap 5 (flaskDom f)).hubRead (flaskDom f) .hub (d.args.toNat + 16) 16
    let e := r.2.1.setFlask f { r.2.1.flask f with disps := (r.2.1.flask f).disps.filter fun x => !(x.n == n && x.tag == tag) }
    exec (.dispatchDone f n tag) s = .next (e.complete (.flask f n) tag St.success 0 r.1))

/-- CORE_FAILURE_DECLARE: with a spare, the core's place is taken at its index, its ports empty, under the next generation, and loaded
from the flask's mould where there is one; with none it stays fenced for good (R193–R196). -/
def Claims.FailedCores : Prop :=
  ∀ (s : State) (c : CoreId) (cause : FailCause),
    let p := Proc.core c
    let k := s.core p
    let cl := coreCluster c
    let x := s.cluster cl
    (k.failed = true → exec (.coreFailureDeclare c cause) s = .next s) ∧
    (k.failed = false → .cluster cl ∉ s.fw.down → (cause = .probeTimeout → ∃ v st, k.run = .stopped v st) →
      (0 < x.spares → Answers (exec (.coreFailureDeclare c cause) s) fun t =>
        (t.core p).gen = k.gen + 1 ∧ (t.core p).locks = [] ∧ (t.core p).portsEmpty = true ∧ (t.core p).idx = k.idx ∧
        (t.cluster cl).spares = x.spares - 1 ∧ (t.cluster cl).gen = x.gen + 1 ∧
        ∀ f m g, k.flask = flaskDom f → (s.flask f).mould = some m → m.segts.find? (fun g => g.covers k.idx) = some g →
          coreAt (s.flask f).clusters k.idx = some c →
          (t.core p).a.pc = g.entry.toNat ∧ (t.core p).run = if g.image.isSome then .running else .held) ∧
      (x.spares = 0 → Answers (exec (.coreFailureDeclare c cause) s) fun t =>
        (t.core p).run = .held ∧ (t.core p).gen = k.gen + 1 ∧ (t.core p).wait = none ∧ (t.core p).failed = true ∧
          (t.cluster cl).gen = x.gen + 1))

/-- Dispatches and failed cores. -/
def Obligations.DispatchesAndSpares : Prop := Claims.Dispatches ∧ Claims.FailedCores

/-! ### Firmware (R315–R317, R336–R339) -/

/-- FW_STAGE and FW_ACTIVATE: an image that passes its checks is staged, and its activation begins; each check that fails has
its status and leaves nothing staged or activated (R316, R336, R337). -/
def Claims.FirmwareIsStaged : Prop :=
  (∀ (s : State) (h : CmdHdr) (offset length : Word),
    let i := Instr.fwStage h offset length
    let b := s.begun h i
    let r := b.hubRead 0x100 .hub (stagingBase + offset.toNat) length.toNat
    let st := if r.2.2 ≠ .ok then St.uncorrectable else imageCheck r.1 r.2.1.fw.secver (imageSigned r.1)
    let fits := offset.toNat % 4096 = 0 ∧ offset.toNat + length.toNat ≤ 2 ^ 28 ∧ length.toNat ≤ 234881024
    s.starts h i = true →
    (b.fw.waiting = [] → fits → Completes s i h st 0 [] fun e => e = { r.2.1 with fw := { r.2.1.fw with
        other := if st = St.success then some (imageHdr r.1) else none, staged := decide (st = St.success) } }) ∧
    (b.fw.waiting = [] → ¬ fits → exec i s = .next (b.done h St.malformed)) ∧
    (b.fw.waiting ≠ [] → exec i s = .next { b with fw := { b.fw with waiting := b.fw.waiting ++ [h.tag] } })) ∧
  (∀ (s : State) (h : CmdHdr) (drainMs flags : Word),
    let i := Instr.fwActivate h drainMs flags
    let b := s.begun h i
    let run := b.fw.running.handMax.toNat
    s.starts h i = true → b.breakout = false → flags.toNat < 2 →
    ((b.fw.staged = false ∨ b.fw.other = none) → exec i s = .next (b.done h St.imageIncompatible)) ∧
    (∀ x, b.fw.staged = true → b.fw.other = some x → 
      ((run < x.handMin.toNat ∨ x.handMax.toNat < run) → exec i s = .next (b.done h St.imageIncompatible)) ∧
      (x.handMin.toNat ≤ run → run ≤ x.handMax.toNat →
        (x.secver.toNat < b.fw.secver → exec i s = .next (b.done h St.rollback)) ∧
        (b.fw.secver ≤ x.secver.toNat → exec i s = .next { b with fw := { b.fw with
          act := some ⟨h.tag, if drainMs = 0 then 10000 else drainMs, flags⟩ } }))))

/-- ACTIVATION_DRAIN_END: commands that still run at the time's end give `TIMEOUT`; processors that do not take over, or whose
components do not stand their digests, give `INTERNAL`, and those of the hub go on with the old image; else the new image runs, from
its own copies, and the old one is kept in the other bank (R317, R337, R338). -/
def Claims.FirmwareIsActivated : Prop :=
  ∀ (s : State) (expired accepted : Bool) (a : Activation) (x : ImageHdr),
    let act := exec (.activationDrainEnd expired accepted) s
    let back : State := State.restartHub { s with fw := { s.fw with other := none, staged := false } }
    s.fw.act = some a → s.fw.other = some x → s.phase.serves = true → .scheduler ∉ s.fw.down → .security ∉ s.fw.down →
    (s.othersStarted a = true → expired = true →
      act = .next (({ s with fw := { s.fw with act := none } }).complete .admin a.tag St.timeout 0 [])) ∧
    (s.othersStarted a = true → expired = false → act = .next s) ∧
    (s.othersStarted a = false → (accepted = false ∨ imageDigestsOk x.raw = false) →
      act = .next (({ back with fw := { back.fw with act := none } }).complete .admin a.tag St.internal 0 []) ∧
        (∀ fp ∈ [FwProc.power, .management, .security, .scheduler], back.core (fwProc fp) = Core.firmware)) ∧
    (s.othersStarted a = false → accepted = true → imageDigestsOk x.raw = true → Answers act fun t =>
      t.fw.running = x ∧ t.fw.other = some s.fw.running ∧ t.fw.staged = false ∧ t.fw.bankB = !s.fw.bankB ∧ t.fw.act = none ∧
      t.fw.copies = imageCopies x.raw ∧
      t.fw.down = [] ∧ t.fw.secver = if a.flags.getLsbD 0 then max s.fw.secver x.secver.toNat else s.fw.secver)

/-- FIRMWARE_HEARTBEAT_LAPSE holds the processor; FIRMWARE_PROCESSOR_RESTARTED puts it back at its first word, once its copy stands
its digest (R310, R317, R339). -/
def Claims.ProcessorsRestart : Prop :=
  ∀ (s : State) (fp : FwProc), s.phase.serves = true →
    (fp ∉ s.fw.down → Answers (exec (.firmwareHeartbeatLapse fp) s) fun t =>
      t.fw.down = s.fw.down ++ [fp] ∧ (t.core (fwProc fp)).run = .held) ∧
    (fp ∈ s.fw.down → s.copyOk fp = true → Answers (exec (.firmwareProcessorRestarted fp) s) fun t =>
      t.fw.down = s.fw.down.filter (fun x => decide (x ≠ fp)) ∧ t.core (fwProc fp) = Core.firmware) ∧
    (s.copyOk fp = false → exec (.firmwareProcessorRestarted fp) s = .next s)

/-- Firmware images and processors. -/
def Obligations.FirmwareLifeCycle : Prop :=
  Claims.FirmwareIsStaged ∧ Claims.FirmwareIsActivated ∧ Claims.ProcessorsRestart

/-! ### Ceilings, sensors and counters (R524–R534) -/

/-- CEILING_SET, TELEMETRY_SAMPLE, THERMAL_TRIP and THERMAL_TRIP_RELEASE: ceilings hold the clocks of the clusters; over the power
budget, and on a die that has passed 100 °C, the power core only lowers them, and over the budget it does lower one (R24); a die's
warning stands from above 100 °C until below 95 °C; a tripped die's clusters run at 400 MHz (R524–R526). -/
def Claims.CeilingsAndSensors : Prop :=
  (∀ (s : State) (h : CmdHdr) (flask mhz : BitVec 16) (f : FlaskId),
    let i := Instr.ceilingSet h flask mhz
    let b := s.begun h i
    let m := mhz.toNat
    s.starts h i = true → flask.toNat = f.toNat → (b.flask f).st ≠ .free → (b.flask f).st ≠ .failed →
    400 ≤ m → m ≤ 1600 → m % 50 = 0 →
    Completes s i h St.success 0 [] fun e =>
      e.flask f = { b.flask f with ceil := m / 10 } ∧
      (∀ cl ∈ (b.flask f).clusters, (e.cluster cl).ceilOwner = m / 10 ∧ (e.cluster cl).clock ≤ m / 10) ∧
      (∀ cl, cl ∉ (b.flask f).clusters → e.cluster cl = b.cluster cl)) ∧
  (∀ (s : State) (id : Byte) (value : BitVec 16) (ceilings : List (ClusterId × Byte)),
    s.phase.serves = true → .power ∉ s.fw.down → isSensor id.toNat = true →
    Answers (exec (.telemetrySample id value ceilings) s) fun t =>
      Tab.get none t.bg.sensors id.toNat = some value ∧
      let above := decide (max 600 (min 2600 (s.reg Reg.telemBudget).toNat) <
        (if id = 0x3A then value else (Tab.get none s.bg.sensors 0x3A).getD 0).toNat)
      (8 ≤ id.toNat → (ceilings.map Prod.fst).Nodup → ∀ x ∈ ceilings,
        let c := t.cluster x.1
        let want := max 40 (min 160 x.2.toNat)
        let old := (s.cluster x.1).ceilPower
        c.clock ≤ c.ceilPower ∧ (above = false → s.bg.warn.getLsbD (x.1.toNat / 512) = false → c.ceilPower = want) ∧
        (above = true ∨ s.bg.warn.getLsbD (x.1.toNat / 512) = true → 40 ≤ old → c.ceilPower ≤ old ∧ c.ceilPower ≤ want)) ∧
      (id = 0x3A → above = true → (∃ cl, 40 < (s.cluster cl).ceilPower) → ∃ cl, (t.cluster cl).ceilPower < (s.cluster cl).ceilPower) ∧
      (id.toNat < 8 → ∀ d, d < 8 → t.bg.warn.getLsbD d = if d ≠ id.toNat then s.bg.warn.getLsbD d else
        if value.toInt < 950 then false else decide (1000 < value.toInt) || s.bg.warn.getLsbD d)) ∧
  (∀ (s : State) (die : Die),
    (s.phase ≠ .off → s.bg.trip.getLsbD die.toNat = false → Answers (exec (.thermalTrip die) s) fun t =>
      (∀ d, d < 8 → t.bg.trip.getLsbD d = (s.bg.trip.getLsbD d || decide (d = die.toNat))) ∧
      ∀ cl : ClusterId, cl.toNat / 512 = die.toNat → (t.cluster cl).clock = 40) ∧
    exec (.thermalTripRelease die) s =
      .next { s with bg := { s.bg with trip := s.bg.trip &&& ~~~(BitVec.ofNat 8 (2 ^ die.toNat)) } })

/-- PMON_CONFIG, PMON_READ, PMON_SAMPLE and PMON_HUB_LO_READ (R529–R534). -/
def Claims.PerformanceCounters : Prop :=
  (∀ (s : State) (h : CmdHdr) (p : PmonP),
    let i := Instr.pmonConfig h p
    let b := s.begun h i
    let ns := pmonRange p.kind.toNat p.first.toNat p.last.toNat
    s.starts h i = true → pmonLegal p = true → (h.ladle ≠ .admin → p.kind = 1 → p.event ≠ 4) →
    (h.ladle ≠ .admin → p.flags.getLsbD 0 = true → inFlask b (ladleDom h.ladle) p.buffer.toNat p.bufferBytes.toNat = true) →
    (p.kind = 0 → (∀ n ∈ ns, (b.pmCore h.ladle n).isSome = true) → Completes s i h St.success 0 [] fun e =>
      ∀ n ∈ ns, ∀ c, b.pmCore h.ladle n = some c → ∀ j : Fin 4,
        ((e.core (.core c)).pm[j.val]'j.isLt) = if j.val ≠ p.counter.toNat then (b.core (.core c)).pm[j.val]'j.isLt else
          ⟨p.event, if p.flags.getLsbD 1 then 0 else ((b.core (.core c)).pm[j.val]'j.isLt).count, p.flags, p.period, p.buffer,
            p.bufferBytes, 0, 0⟩) ∧
    (p.kind = 1 → (∀ n ∈ ns, (b.pmCluster h.ladle n).isSome = true) → Completes s i h St.success 0 [] fun e =>
      ∀ n ∈ ns, ∀ cl, b.pmCluster h.ladle n = some cl →
        let k := cl.toNat * 16 + p.counter.toNat
        Tab.get ⟨0, 0⟩ e.bg.clCtr k = ⟨p.event, if p.flags.getLsbD 1 then 0 else (Tab.get ⟨0, 0⟩ b.bg.clCtr k).count⟩)) ∧
  (∀ (s : State) (h : CmdHdr) (kind : Byte) (first last : Word) (dest : BitVec 64),
    let i := Instr.pmonRead h kind first last dest
    let b := s.begun h i
    let ns := pmonRange kind.toNat first.toNat last.toNat
    let dom := ladleDom h.ladle
    s.starts h i = true → first.toNat ≤ last.toNat →
    (kind = 0 → (∀ n ∈ ns, (b.pmCore h.ladle n).isSome = true) → b.cmdRange h.ladle dest (ns.length * 24) = true →
      let r := (ns.filterMap (b.pmCore h.ladle)).foldl (fun (r : List Byte × State) c =>
        (r.1 ++ (r.2.pmCoreBytes c).1, (r.2.pmCoreBytes c).2)) ([], b)
      let w := r.2.hubWrite dom .hub (cmdAddr h.ladle dest) r.1
      w.2 = .ok → exec i s = .next (w.1.done h St.success)) ∧
    (kind = 1 → (∀ n ∈ ns, (b.pmCluster h.ladle n).isSome = true) → b.cmdRange h.ladle dest (ns.length * 136) = true →
      let r := (ns.filterMap (b.pmCluster h.ladle)).foldl (fun (r : List Byte × State) c =>
        (r.1 ++ (r.2.pmClusterBytes c).1, (r.2.pmClusterBytes c).2)) ([], b)
      let w := r.2.hubWrite dom .hub (cmdAddr h.ladle dest) r.1
      w.2 = .ok → exec i s = .next (w.1.done h St.success))) ∧
  (∀ (s : State) (c : CoreId) (n : BitVec 2) (pc : BitVec 11),
    let k := s.core (.core c)
    let m := k.pm[n.toNat]'n.isLt
    m.flags.getLsbD 0 = true → .cluster (coreCluster c) ∉ s.fw.down → k.flask.toNat < 256 →
    Answers (exec (.pmonSample c n pc) s) fun t =>
      ((t.core (.core c)).pm[n.toNat]'n.isLt) = if m.bytes.toNat < 16 ∨ s.freeBit = true
        then { m with lost := if s.free.getLsbD 1 then 0 else m.lost + 1 }
        else { m with next := BitVec.ofNat 32 ((m.next.toNat + 16) % m.bytes.toNat) }) ∧
  (∀ (s : State) (n : BitVec 6),
    let x := Tab.get ⟨0, 0⟩ s.bg.hubCtr n.toNat
    countedHub ((s.reg (Reg.pmonHubSel + 4 * n.toNat)).toNat % 256) = true →
    Answers (exec (.pmonHubLoRead n) s) fun t =>
      t.out = s.out ++ [.counter n.toNat (x.count.extractLsb' 0 32)] ∧
      Tab.get 0 t.bg.hubHi n.toNat = x.count.extractLsb' 32 16 ∧ t.bg.lastRef = s.refNow 8 ∧ t.mem = s.mem)

/-- Ceilings, sensors and counters. -/
def Obligations.SensorsAndCounters : Prop := Claims.CeilingsAndSensors ∧ Claims.PerformanceCounters

/-! ### Background work (R517–R523) -/

/-- Fettling visits the lines and units of a pass in order and corrects what can be corrected; calibration and its retries count
failed steps, the third in succession is posted; calibrations are saved, and drives' wear is noted (R517–R523). -/
def Obligations.BackgroundWork : Prop :=
  (∀ (s : State) (cl : ClusterId) (ecc : EccReport) (word : BitVec 4),
    let n := Tab.get 0 s.bg.sramPos cl.toNat
    let fa := fettleLine cl n
    s.phase.serves = true → .cluster cl ∉ s.fw.down → n < 37120 →
    Answers (exec (.fettleSramLine cl ecc word) s) fun t =>
      Tab.get 0 t.bg.sramPos cl.toNat = (n + 1) % 37120 ∧
      Tab.get 0 t.bg.sramPasses cl.toNat = Tab.get 0 s.bg.sramPasses cl.toNat + (if n + 1 = 37120 then 1 else 0) ∧
      (Tab.get false s.mem.sramValid (fa / 64) = false → t.mem = s.mem) ∧
      (Tab.get false s.mem.sramValid (fa / 64) = true → ecc = .stored → ∀ k, k / 16 = fa / 64 →
        s.mem.wordMark k = .correctable → (s.mem.word k).tag ≠ Tag.poison →
        t.mem.wordMark k = .good ∧ t.mem.word k = s.mem.word k)) ∧
  (∀ (s : State) (channel : BitVec 7) (ecc : EccReport) (codeword : BitVec 7),
    let c := channel.toNat
    let pos := Tab.get 0 s.bg.lpPos c
    let here (u : Nat) : Prop := Tab.get false s.mem.lpValid u = true ∧ pathOf (u * 4096) = 2 ^ 50 + c ∧ pos ≤ unitOrder u
    s.phase.serves = true → s.mem.lpValid.all (fun e => e.2) = true → (s.mem.lpValid.map Prod.fst).Pairwise (· < ·) →
    ((∀ u, ¬ here u) → Answers (exec (.fettleLpddrUnit channel ecc codeword) s) fun t => t.bg = { s.bg with
      lpPasses := Tab.put 0 s.bg.lpPasses c (Tab.get 0 s.bg.lpPasses c + 1), lpPos := Tab.put 0 s.bg.lpPos c 0 } ∧ t.mem = s.mem) ∧
    (∀ u, here u → (∀ v, here v → unitOrder u ≤ unitOrder v) → Answers (exec (.fettleLpddrUnit channel ecc codeword) s) fun t =>
      Tab.get 0 t.bg.lpPos c = unitOrder u + 1 ∧ Tab.get 0 t.bg.lpPasses c = Tab.get 0 s.bg.lpPasses c ∧
        (ecc = .stored → (∀ j, j < 128 → s.mem.cw (u * 4096 + 32 * j) = .good) → ∀ a, t.mem.byte a = s.mem.byte a))) ∧
  (∀ (s : State) (channel drift : BitVec 7) (ok : Bool),
    let c := channel.toNat
    let old := Tab.get 0 s.bg.calFails c
    let steps (o : Answer) : Prop := Answers o fun t => Tab.get 0 t.bg.calFails c = (if ok then 0 else old + 1) ∧
      t.mem = s.mem ∧ (ok = true → t.fw = s.fw ∧ t.flasks = s.flasks)
    s.phase.serves = true → s.copyAt c = false →
    (8 < drift.toNat → steps (exec (.lpddrCalibration channel drift ok) s)) ∧
    (old ≠ 0 → steps (exec (.calibrationRetry channel ok) s))) ∧
  (∀ s : State, s.phase.serves = true →
    let saves := s.free.getLsbD 0
    (s.bg.flashErases < 89999 → exec .calibrationSave s = .next { s with fresh := s.fresh + 1, bg := { s.bg with
      flashErases := s.bg.flashErases + if saves then 1 else 0 } }) ∧
    (s.bg.flashErases = 89999 → Answers (exec .calibrationSave s) fun t =>
      t.bg.flashErases = (if saves then 90000 else 89999) ∧ t.bg.flashRetired = s.bg.flashRetired + if saves then 1 else 0)) ∧
  (∀ (s : State) (port : Port) (used : Byte), s.phase.serves = true → (s.drive port).ready = true →
    Answers (exec (.driveWearCheck port used) s) fun t => Tab.get 0 t.bg.wearSeen port.toNat = used.toNat ∧
      (s.twin.st = .fenced → t.bg.trims = s.bg.trims))

/-! ### The packet path (R346–R364) -/

/-- NET_CLASS_OPEN, NET_CLASS_CLOSE, SHAPER_SET and NET_SEND (R351, R354, R359, R361). -/
def Claims.NetCommands : Prop :=
  (∀ (s : State) (h : CmdHdr) (cls : BitVec 16) (log2 : Byte),
    let i := Instr.netClassOpen h cls log2
    let b := s.begun h i
    s.starts h i = true → cls.toNat ≤ 4095 → 8 ≤ log2.toNat → log2.toNat ≤ 14 →
    (b.netClass cls.toNat = none →
      exec i s = .next ((b.setNetClass cls.toNat (some ⟨hdrFlask h, log2.toNat, 0, none, 0⟩)).done h St.success)) ∧
    (∀ c, b.netClass cls.toNat = some c → c.flask ≠ hdrFlask h → exec i s = .next (b.done h 0x0082))) ∧
  (∀ (s : State) (h : CmdHdr) (cls : BitVec 16) (c : NetClass),
    let i := Instr.netClassClose h cls
    let b := s.begun h i
    let n := cls.toNat
    let buffered : Bool := b.net.ports.any fun p => p.2.buf.any fun f => f.action == 3 && decide (f.cls.toNat = n)
    s.starts h i = true → b.netClass n = some c → c.flask = hdrFlask h → c.closing = none →
    (buffered = false → Completes s i h St.success 0 [] fun e =>
      e.netClass n = none ∧ (∀ m, m ≠ n → e.netClass m = b.netClass m) ∧ e.mem = b.mem) ∧
    (buffered = true → exec i s = .next (b.setNetClass n (some { c with closing := some (h.ladle, h.tag) })))) ∧
  (∀ (s : State) (h : CmdHdr) (p : ShaperP) (k : Nat),
    let i := Instr.shaperSet h p
    let b := s.begun h i
    s.starts h i = true → b.shaperOf (hdrFlask h) p.shaper.toNat = some k → p.overhead.toNat ≤ 63 → 1 ≤ p.rateMbps.toNat →
    p.rateMbps.toNat ≤ 1600000 → 64 ≤ p.burst.toNat → p.burst.toNat ≤ 16777216 →
    exec i s = .next ((b.setShaper k { b.shaper k with
      staged := some (p.rateMbps.toNat, p.burst.toNat, p.overhead.toNat) }).done h St.success)) ∧
  (∀ (s : State) (h : CmdHdr) (p : NetSendP),
    let i := Instr.netSend h p
    let b := s.begun h i
    let f := hdrFlask h
    let r := b.hubRead (flaskDom f) .hub p.src.toNat p.length.toNat
    let sh := if p.shaper = 0xFFFF then none else r.2.1.shaperOf f p.shaper.toNat
    let lock := (b.reg (Reg.netFlaskTx + 0x10 * f.toNat)).getLsbD 8
    s.starts h i = true → 60 ≤ p.length.toNat → p.length.toNat ≤ 9212 → p.pcp.toNat ≤ 7 → p.port.toNat ≤ 7 →
    b.mayTx f (2 ^ p.port.toNat) = true → space p.src.toNat = 2 → p.src.toNat < 2 ^ 48 →
    inFlask b (flaskDom f) p.src.toNat p.length.toNat = true → (p.shaper ≠ 0xFFFF → b.shaperOf f p.shaper.toNat ≠ none) → r.2.2 = .ok →
    (lock = true → macAt r.1 6 = r.2.1.macReg (Reg.netFlaskMacLo + 0x10 * f.toNat) (Reg.netFlaskMacHi + 0x10 * f.toNat)) →
    let port : Port := BitVec.ofNat 3 p.port.toNat
    let t : TxFrame := ⟨h.ladle, h.tag, port, BitVec.ofNat 3 p.pcp.toNat, sh, r.1⟩
    let q : State := { r.2.1 with net := { r.2.1.net with tx := r.2.1.net.tx ++ [t] } }
    ((r.2.1.port port).up = true → exec i s = .next q) ∧
    ((r.2.1.port port).up = false → exec i s = .next (q.failDown port) ∧
      ((∀ x ∈ r.2.1.net.tx, x.port ≠ port) →
        exec i s = .next (if r.2.1.eligible t then r.2.1.complete h.ladle h.tag 0x0080 0 [] else q))))

/-- FRAME_RECEIVE: what a port drops, when it sends flow control (R356), and where a frame that it accepts goes (R347, R350, R352,
R355). -/
def Claims.FramesArrive : Prop :=
  ∀ (s : State) (port : Port) (bs : List Byte) (fcs : Bool),
    let x := s.port port
    let ctl := s.reg (portReg Reg.netPnCtl port)
    let act := exec (.frameReceive port bs fcs) s
    let own := macAt bs 0 = s.macReg (portReg Reg.netPnMacLo port) (portReg Reg.netPnMacHi port)
    s.phase.serves = true → x.up = true → ctl.getLsbD 0 = true → s.twin.st ≠ .fenced →
    ((fcs = false ∨ bs.length < 60 ∨ 9212 < bs.length) → act = .next (s.count (portReg Reg.netPnRxBad port))) ∧
    (fcs = true → 60 ≤ bs.length → bs.length ≤ 9212 →
      (¬ own → macAt bs 0 ≠ 2 ^ 48 - 1 → (byteAt bs 0).getLsbD 0 = false → ctl.getLsbD 3 = false →
        act = .next (s.count (portReg Reg.netPnRxDmac port))) ∧
      (own → field bs 12 2 ≠ some 0x8808 → (parse bs).frag = none →
        let rx := s.count (portReg Reg.netPnRxOk port)
        let full : Bool := decide (reorderBytes < x.fill + bs.length)
        let pfc : Bool := ctl.getLsbD 1 && (full || x.xoff)
        let ok := if pfc then ((rx.setPort port { x with xoff := true }).count (portReg Reg.netPnPfcSent port)).emit (.pfc port) else rx
        (full = true → ctl.getLsbD 1 = false → act = .next (rx.count (portReg Reg.netPnReorderDrop port))) ∧
        ((full = true → ctl.getLsbD 1 = true) →
          (ok.classify port (parse bs) = none → act = .next (ok.count Reg.netNoRule)) ∧
          ∀ r, ok.classify port (parse bs) = some r →
            let action := bits (ok.ruleWord r 3) 1 0
            let cls := bits (ok.ruleWord r 3) 27 16
            let buffered (feed : Option (FlaskId × FeedRec)) : State := ok.setPort port { ok.port port with buf := x.buf ++
              [⟨bs, BitVec.ofNat 2 action, BitVec.ofNat 12 cls, BitVec.ofNat 13 r, false, feed, .idle, none⟩] }
            (action = 0 → act = .next ok) ∧
            (action = 1 ∨ action = 2 → act = .next (buffered none)) ∧
            (∀ c g, action = 3 → ok.netClass cls = some c → c.closing = none → (ok.flask c.flask).st.leaving = false →
              ok.feedFor c.flask [7] cls = some g → g.mode = 0 → g.flags.getLsbD 0 = true →
              2 ^ c.slotLog2 ≤ g.targetBytes.toNat → act = .next (buffered (some (c.flask, g)))))))

/-- FRAME_RELEASE: a transport's packet leaves the buffer; a class frame fills the next slot of its binding, with its length,
port, frame number and rule before it, and its token is issued then or when the frame is looked at again; a slot in a host's memory
is asked for first, and its token follows its write (R18, R19, R352, R353). -/
def Claims.FramesAreReleased : Prop :=
  ∀ (s : State) (port : Port) (f : Frame) (rest : List Frame),
    (s.port port).buf = f :: rest →
    let act := exec (.frameRelease port) s
    (f.feed = none → act = .next (s.setPort port { s.port port with
      buf := rest, xoff := (s.port port).xoff && decide (reorderBytes ≤ 2 * (rest.map fun g => g.bytes.length).sum) })) ∧
    (∀ fl r, f.feed = some (fl, r) →
      (s.netClass f.cls.toNat = none → act = .next (s.dropFrame port f.cls.toNat Reg.netClassClosed)) ∧
      ∀ c k, s.netClass f.cls.toNat = some c → c.closing = none → coreRef s fl r.tokenCore.toNat = some k →
        (s.flask fl).st.leaving = false →
        let next : Option NetClass := some { c with n := (c.n + 1) % 2 ^ 32 }
        let tokens (n : Nat) : List HeldToken := s.fab.tokens ++
          [⟨fl, r.no, k, BitVec.ofNat 3 r.tokenPort.toNat, tokenWord 1 r.no.toNat n⟩]
        let size := 2 ^ c.slotLog2
        let a := r.target.toNat + c.n % (r.targetBytes.toNat / size) * size
        (∀ n, f.landed = some n → Answers act fun t =>
          (t.port port).buf = rest ∧ t.mem = s.mem ∧ t.fab.tokens = tokens n ∧ t.netClass f.cls.toNat = some c) ∧
        (f.landed = none → space r.target.toNat ≠ 5 → s.heldTokens fl r.no < 64 →
          s.writeWaits (flaskDom fl) a (min (16 + f.bytes.length) size) = (false, s) →
          let q := s.hubRead (flaskDom fl) .hub a 4
          let w0 := (f.bytes.take (size - 16)).length + (if size - 16 < f.bytes.length then 2 ^ 14 else 0) +
            (if f.frag then 2 ^ 15 else 0) + port.toNat * 2 ^ 16 + 2 ^ 31
          let bs := leBytes 4 w0 ++ leBytes 4 c.n ++ leBytes 4 f.rule.toNat ++ leBytes 4 0 ++ f.bytes.take (size - 16)
          let w := (q.2.1.land (.frame port) (flaskDom fl) a bs.length).hubWrite (flaskDom fl) .hub a bs
          q.2.2 = .ok → (leNat q.1).testBit 31 = false → w.2 = .ok → Answers act fun t =>
            t.mem = w.1.mem ∧ t.netClass f.cls.toNat = next ∧
            if w.1.freeBit then (t.port port).buf = rest ∧ t.fab.tokens = tokens c.n
            else (t.port port).buf = { f with landed := some c.n } :: rest ∧ t.fab.tokens = s.fab.tokens) ∧
        (f.landed = none → space r.target.toNat = 5 → f.leg = .done true → Answers act fun t =>
          (t.port port).buf = rest ∧ t.mem = s.mem ∧ t.netClass f.cls.toNat = next ∧ t.fab.tokens = tokens c.n))

/-- Fragments that wait, fragment entries, rules (with the prefix of an IPv4 rule held to 32, R10), transmission, shapers, pauses and links (R349, R350, R357–R362). -/
def Claims.NetEvents : Prop :=
  (∀ (s : State) (n : Nat) (x : HeldFrag), s.net.held[n]? = some x →
    let dropped : State := { s with net := { s.net with held := s.net.held.eraseIdx n } }
    (s.net.frags.find? (fun e => decide (e.key = x.key)) = none →
      exec (.fragmentHoldExpiry n) s = .next (dropped.count Reg.netFragTimeout)) ∧
    (∀ e, s.net.frags.find? (fun e => decide (e.key = x.key)) = some e → e.action.toNat = 1 ∨ e.action.toNat = 2 →
      Answers (exec (.fragmentHoldExpiry n) s) fun t => t.net.held = s.net.held.eraseIdx n ∧
        (t.port x.port).buf = (s.port x.port).buf ++ [⟨x.bytes, e.action, e.cls, e.rule, true, none, .idle, none⟩])) ∧
  (∀ (s : State) (n : Nat), exec (.fragmentEntryExpiry n) s =
    .next { s with net := { s.net with frags := s.net.frags.eraseIdx n } }) ∧
  (∀ (s : State) (m : Master) (k : BitVec 13), s.phase.serves = true → s.arrives m = true →
    (s.isOwner m = true →
      (Answers (exec (.netRuleWrite m k) s) fun t => (∀ w, w < 16 → Tab.get 0 t.net.rules (16 * k.toNat + w) =
        let v := s.reg (Reg.netRuleStage + 4 * w) &&& ruleMask w
        if w = 1 ∧ (s.reg Reg.netRuleStage).extractLsb' 9 2 = 1 ∧ 32 < (v.extractLsb' 9 7).toNat then
          v &&& 0xFFFF01FF ||| 0x4000 else v) ∧
        ∀ j, j / 16 ≠ k.toNat → Tab.get 0 t.net.rules j = Tab.get 0 s.net.rules j) ∧
      Answers (exec (.netRuleRead m k) s) fun t => t.net = s.net ∧
        ∀ w, w < 16 → t.reg (Reg.netRuleStage + 4 * w) = Tab.get 0 s.net.rules (16 * k.toNat + w)) ∧
    (s.isOwner m = false → exec (.netRuleWrite m k) s = .next (s.observed m) ∧
      exec (.netRuleRead m k) s = .next (s.observed m))) ∧
  (∀ (s : State) (port : Port), (s.port port).up = true → s.twin.st ≠ .fenced →
    let q := s.pumpPort port
    (q.nextTx port = none → exec (.frameTransmitComplete port) s = .next q) ∧
    (∀ no t, q.nextTx port = some (no, .inl t) →
      ∃ e : State, exec (.frameTransmitComplete port) s = .next (e.complete t.ladle t.tag St.success 0 []) ∧
        e.net.tx = q.net.tx.erase t ∧ e.net.xq = q.net.xq ∧ e.out = q.out ++ [.frame port t.bytes] ∧ (e.port port).turn = no ∧
        (∀ k, t.shaper = some k → e.shaper k = { q.shaper k with
          credit := (q.shaper k).credit - 8 * ((t.bytes.length : Int) + 4 + (q.shaper k).ovh) }) ∧ e.mem = q.mem) ∧
    (∀ no x, q.nextTx port = some (no, .inr x) → Answers (exec (.frameTransmitComplete port) s) fun t =>
      t.net.xq = q.net.xq.erase x ∧ t.net.tx = q.net.tx ∧ (t.port port).turn = no ∧ t.mem = q.mem ∧
      ∃ ask ts, t.out = q.out ++ [.packet { x with hdr := { x.hdr with epoch := q.epoch x.qpn, ackReq := ask, ts := ts } }] ∧
        (x.isAck = true → ts = x.hdr.ts))) ∧
  (∀ (s : State) (k : BitVec 16),
    let x := s.shaper k.toNat
    let y : Shaper := match x.staged with
      | none => { x with credit := if x.used then min (x.credit + x.rate) (8 * (x.burst : Int)) else x.credit }
      | some (r, b, o) => { x with rate := r, burst := b, ovh := o, staged := none, used := true
                                   credit := min ((if x.used then x.credit else 8 * (b : Int)) + r) (8 * (b : Int)) }
    Answers (exec (.shaperRefill k) s) fun t => t.shaper k.toNat = y ∧
      ((∀ f ∈ s.net.tx, (s.port f.port).up = true) → t = s.setShaper k.toNat y)) ∧
  (∀ (s : State) (port : Port) (paused : Byte), exec (.pfcFrameReceive port paused) s = .next (
    if (s.reg (portReg Reg.netPnCtl port)).getLsbD 1 then s.setPort port { s.port port with paused := paused } else s)) ∧
  (∀ (s : State) (port : Port) (up : Bool) (lanes : Byte), s.phase.serves = true →
    (up = true → s.laneBad port.toNat = false) →
    Answers (exec (.portLinkChange port up lanes) s) fun t =>
      t.port port = { s.port port with up := up, lanes := lanes, paused := if up then (s.port port).paused else 0 } ∧
      let e := s.setPort port { s.port port with up := up, lanes := lanes, paused := if up then (s.port port).paused else 0 }
      t.net.tx = if up then s.net.tx else (e.starters port).foldl (fun l x => l.erase x) s.net.tx)

/-- The commands of the packet path. -/
def Claims.NetCommandsAct : Prop := Claims.NetCommands

/-- Frames received and placed. -/
def Obligations.FramesReachSlots : Prop := Claims.FramesArrive ∧ Claims.FramesAreReleased

/-- The packet path's own events. -/
def Claims.PacketPathEvents : Prop := Claims.NetEvents

/-- The packet path. -/
def Obligations.PacketPath : Prop := Claims.NetCommandsAct ∧ Claims.PacketPathEvents

/-! ### Remote memory: the sender (R365–R384, R389, R393) -/

/-- A command of a flask on a queue pair that it holds. -/
def Sys2Proof.Machine.State.holds (s : State) (h : CmdHdr) (qpn : Word) : Prop :=
  qpn.toNat < 262144 ∧ (s.qp qpn.toNat).st ≠ .free ∧ (s.qp qpn.toNat).flask = ladleDom h.ladle

/-- The commands on queue pairs (R366–R369). -/
def Claims.QueuePairs : Prop :=
  (∀ (s : State) (h : CmdHdr) (qpn : Word) (n : Nat),
    let i := Instr.qpCreate h qpn
    let b := s.begun h i
    let f := hdrFlask h
    s.starts h i = true → b.xport.qps.countP (fun e => e.2.flask == flaskDom f) < (b.flask f).qpQuota → n < 262144 →
    (b.qp n).st = .free →
    (qpn.toNat = n ∨ (qpn = 0xFFFFFFFF ∧ n = lowestFree b.qpnRange.1 (Tab.keys b.xport.qps) ∧ n < b.qpnRange.2)) →
    Completes s i h St.success 0 (leBytes 4 n) fun e => e = b.setQp n { Qp.reset with st := .idle, flask := flaskDom f }) ∧
  (∀ (s : State) (h : CmdHdr) (p : ConnectP),
    let i := Instr.qpConnect h p 0
    let b := s.begun h i
    let n := p.qpn.toNat
    let q := b.qp n
    s.starts h i = true → b.holds h p.qpn → q.st = .idle → connLegal p 0 = true → p.ports ≠ 0 →
    b.mayTx (hdrFlask h) p.ports.toNat = true →
    Completes s i h St.success 0 [] fun e => e = b.setQp n { Qp.reset with
      st := .active, flask := q.flask, conn := some p, cc := q.cc, ccNext := q.ccNext, grant := (q.cc.getD ccDefault).initCredit.toNat
      wnd := (((q.cc.getD ccDefault).minWnd.toNat : Nat) : Rat) }) ∧
  (∀ (s : State) (h : CmdHdr) (qpn : Word) (p : CcP),
    let i := Instr.qpCcSet h qpn p
    let b := s.begun h i
    s.starts h i = true → b.holds h qpn →
    exec i s = .next ((b.setQp qpn.toNat { b.qp qpn.toNat with ccNext := some p }).done h St.success)) ∧
  (∀ (s : State) (h : CmdHdr) (qpn : Word),
    let n := qpn.toNat
    (let i := Instr.qpClose h qpn
     let b := s.begun h i
     s.starts h i = true → b.holds h qpn → (b.qp n).st = .active →
     ((b.qp n).msgs = [] → Completes s i h St.success 0 [] fun e => (e.qp n).st = .idle ∧ e.mem = b.mem) ∧
     (∀ m rest, (b.qp n).msgs = m :: rest → m.done = none → Answers (exec i s) fun t =>
       (t.qp n).st = .draining ∧ (t.qp n).closing = some (h.ladle, h.tag) ∧ (t.qp n).msgs = (b.qp n).msgs)) ∧
    (let i := Instr.qpReset h qpn
     let b := s.begun h i
     s.starts h i = true → b.holds h qpn → (b.qp n).st = .error →
     exec i s = .next ((b.setQp n { Qp.reset with st := .idle, flask := (b.qp n).flask, cc := (b.qp n).cc }).done h St.success)) ∧
    (let i := Instr.qpDestroy h qpn
     let b := s.begun h i
     s.starts h i = true → b.holds h qpn →
     Answers (exec i s) fun t => t.qp n = Qp.reset ∧ ∀ k, k ≠ n → t.qp k = b.qp k))

/-- A packet of a connected queue pair, as it waits on the port and path that send it (R368, R371, R381); its epoch, its time and
whether it asks for an acknowledgement are those of its leaving. -/
def packetOn (s : State) (n path : Nat) (c : ConnectP) (type : BitVec 4) (hdr : XpHdr) (body : List Byte) : XpOut :=
  let q := s.qp n
  ⟨n, BitVec.ofNat 3 (q.pathPort path), c.vlan.extractLsb' 12 3, c.dmac, c.vlan, s.srcIpOf c.srcIp.toNat, c.peerIp,
    BitVec.ofNat 16 (49152 + (n * 64 + q.pathEntropy path) % 16384),
    if q.roce then 4791 else (s.reg Reg.xportUdpPort).setWidth 16, type,
    { hdr with path := BitVec.ofNat 16 path, destQpn := c.peerQpn.setWidth 18 }, body⟩

/-- XP_SEND, XP_WRITE and XP_READ: the message takes the next message and packet numbers; where it is alone, fits one packet, and
credit or window lets it, its packet joins the queue of the path whose turn it is (R371–R377, R381, R383, R384). -/
def Claims.MessagesStart : Prop :=
  ∀ (s : State) (h : CmdHdr) (p : XpP),
    let n := p.qpn.toNat
    let starts (i : Instr) (kind : XpKind) (ext : List Byte) (bytes : Nat) : Prop :=
      let b := s.begun h i
      let q := b.qp n
      let pkts := if kind.isRead then 1 else msgPkts p.length.toNat q.mtu
      let d := b.hubRead q.flask .hub p.localAddr.toNat bytes
      s.starts h i = true → b.holds h p.qpn → q.st = .active → p.length.toNat ≤ 2 ^ 30 → space p.localAddr.toNat < 3 →
      p.localAddr.toNat < 2 ^ 48 → inFlask b q.flask p.localAddr.toNat p.length.toNat = true →
      (Answers (exec i s) fun t => (t.qp n).nextMsn = q.nextMsn + 1 ∧ (t.qp n).nextPsn = (q.nextPsn + pkts) % 2 ^ 24) ∧
      (∀ path c, q.conn = some c → q.msgs = [] → q.unacked = [] → q.nextPath = some path → b.twin.st ≠ .fenced → b.breakout = false →
        p.length.toNat ≤ q.mtu → (kind.isRead = false → d.2.2 = .ok) →
        (bytes = 0 ∨ (q.delay = false ∧ q.sentBytes + bytes ≤ q.grant) ∨ (q.delay = true ∧ ((bytes : Nat) : Rat) ≤ q.wnd)) →
        Answers (exec i s) fun t => t.net.xq = b.net.xq ++ [packetOn b n path c kind.type ⟨1, true, false, h.flags.getLsbD 8,
          h.flags.getLsbD 9, 0, 0, 0, BitVec.ofNat 24 q.nextPsn, q.nextMsn, BitVec.ofNat 32 p.length.toNat, 0, 0⟩
          (ext ++ if kind.isRead then [] else d.1)] ∧
          (t.qp n).unacked = [⟨q.nextPsn % 2 ^ 24, q.nextMsn, 0, bytes, path, 0, 0, 0, false⟩] ∧ (t.qp n).path = path + 1 ∧
          (t.qp n).sentBytes = q.sentBytes + bytes)
    let remote : List Byte := beBytes 4 p.key.toNat ++ beBytes 8 p.remote.toNat
    starts (.xpSend h p) .send [] p.length.toNat ∧
    starts (.xpWrite h p) (.write p.key p.remote) remote p.length.toNat ∧
    starts (.xpRead h p) (.read p.key p.remote) (remote ++ beBytes 4 p.length.toNat) 0

/-- A packet whose header is good reaches a connected queue pair in the pair epoch that it knows (R371, R389). -/
def Sys2Proof.Machine.State.hears (s : State) (hdr : XpHdr) : Prop :=
  let q := s.qp hdr.destQpn.toNat
  s.phase.serves = true ∧ s.twin.st ≠ .fenced ∧ hdr.version = 1 ∧ hdr.zeroOk = true ∧ q.st = .active ∧
    (q.roce = true ∨ ∀ c, q.conn = some c → hdr.epoch = c.peerEpoch)

/-- XP_RX_ACK and XP_RX_NAK: the grant only grows; a SEND whose message number is passed completes; a NAK of the access kind, of
the queue pair or of the epoch puts the queue pair in error; one of the receiver-not-ready kind counts against its packet
(R373, R376, R378, R380, R383). -/
def Claims.Acknowledgements : Prop :=
  ∀ (s : State) (hdr : XpHdr) (a : XpAck),
    let n := hdr.destQpn.toNat
    let q := s.qp n
    s.hears hdr →
    (∀ rtt cut, Answers (exec (.xpRxAck hdr a rtt cut) s) fun t => (t.qp n).grant = max q.grant a.grant.toNat) ∧
    (∀ rtt cut m, q.msgs = [m] → m.done = none → m.sent = m.pkts → m.kind = .send → a.sack = 0 →
      serialOlder m.msn a.msnDone = true →
      Answers (exec (.xpRxAck hdr a rtt cut) s) fun t => (t.qp n).msgs = [] ∧
        ∀ c ∈ (t.ladle m.ladle).cmds, c.tag ≠ m.tag) ∧
    (∀ code ∈ [NakCode.access, .qpError, .fenced],
      Answers (exec (.xpRxNak hdr a code) s) fun t => (t.qp n).st = .error) ∧
    (∀ p, q.unacked.find? (fun p => decide (p.psn = hdr.psn.toNat)) = some p → XpAck_covers a p.psn = false →
      p.rnr < q.rnrLimit →
      Answers (exec (.xpRxNak hdr a .rnr) s) fun t =>
        (t.qp n).unacked.find? (fun p => decide (p.psn = hdr.psn.toNat)) = some { p with rnr := p.rnr + 1 })

/-- A packet of a SEND or WRITE waits to be sent again as it was (R382). -/
def Resent (s t : State) (n : Nat) (p : XpPkt) : Prop :=
  ∃ x ∈ t.net.xq, ∃ m ∈ (s.qp n).msgs, m.msn = p.msn ∧ x.qpn = n ∧ x.type = m.kind.type ∧ x.hdr.psn = BitVec.ofNat 24 p.psn ∧
    x.hdr.msn = p.msn ∧ x.hdr.offset = BitVec.ofNat 32 p.offset ∧ x.hdr.msgLen = BitVec.ofNat 32 m.len

/-- The sender's timers: a timeout counts against its path, the third in a row fails it, and the packet is sent again until its
limit puts the queue pair in error, and none runs for a packet that still waits to be sent; RNR and fault resends; the probes of a
failed path and of a spent grant (R380–R383). -/
def Claims.SenderTimers : Prop :=
  (∀ (s : State) (qpn : BitVec 18) (psn : BitVec 24) (p : XpPkt),
    let n := qpn.toNat
    let q := s.qp n
    let k := ((q.lost.find? fun x => decide (x.1 = p.path)).map (·.2)).getD 0 + 1
    q.unacked.find? (fun x => decide (x.psn = psn.toNat)) = some p → s.twin.st ≠ .fenced →
    (s.queued n psn.toNat = true → exec (.xpRetransmitTimeout qpn psn) s = .next s) ∧
    (s.queued n psn.toNat = false → Answers (exec (.xpRetransmitTimeout qpn psn) s) fun t => (p.path, k) ∈ (t.qp n).lost ∧
      (3 ≤ k → p.path ∈ (t.qp n).failed) ∧ (q.st = .active → q.retryLimit ≤ p.resends → (t.qp n).st = .error)) ∧
    (∀ m, q.msgs.find? (fun m => decide (m.msn = p.msn)) = some m → m.kind.isRead = false →
      let reads (s : State) : Prop := (s.hubRead q.flask .hub (m.local'.toNat + p.offset) p.len).2.2 = .ok
      (s.queued n psn.toNat = false → (q.roce = true → q.unacked = [p]) → p.resends < q.retryLimit → (((s.lostOn n p.path).qp n).nextPath).isSome = true → reads (s.lostOn n p.path) →
        Answers (exec (.xpRetransmitTimeout qpn psn) s) fun t => Resent s t n p) ∧
      (p.rnr ≠ 0 → q.nextPath.isSome = true → reads s → Answers (exec (.xpRnrResend qpn psn) s) fun t => Resent s t n p) ∧
      (p.fault ≠ 0 → q.nextPath.isSome = true → reads s → Answers (exec (.xpFaultResend qpn psn) s) fun t => Resent s t n p))) ∧
  (∀ (s : State) (qpn : BitVec 18),
    let n := qpn.toNat
    let q := s.qp n
    let probe (path : Nat) (c : ConnectP) : XpOut := packetOn s n path c 7
      ⟨1, true, false, false, false, 0, 0, 0, BitVec.ofNat 24 q.nextPsn, q.nextMsn, 0, 0, 0⟩ []
    s.twin.st ≠ .fenced →
    (∀ (path : BitVec 16) c, q.conn = some c → path.toNat ∈ q.failed → Answers (exec (.xpPathProbe qpn path) s) fun t =>
      t.qp n = { q with probed := q.probed ++ [path.toNat] } ∧ t.net.xq = s.net.xq ++ [probe path.toNat c] ∧ t.mem = s.mem) ∧
    (∀ m path c, q.conn = some c → q.delay = false → q.st = .active → q.msgs = [m] → m.sent < m.pkts → m.kind.isRead = false →
      q.grant < q.sentBytes + min q.mtu (m.len - m.sent * q.mtu) → q.nextPath = some path →
      Answers (exec (.xpGrantProbe qpn) s) fun t =>
        t.qp n = { q with path := path + 1 } ∧ t.net.xq = s.net.xq ++ [probe path c] ∧ t.mem = s.mem)) ∧
  (∀ (s : State) (qpn : BitVec 18) (rtt : Nat),
    let q := s.qp qpn.toNat
    let r : Rat := ((max rtt (q.ccv.targetUs.toNat * 1000 + 1) : Nat) : Rat)
    let target : Rat := ((q.ccv.targetUs.toNat : Nat) : Rat) * 1000
    let cut : Rat := q.wnd * (1 - ((q.ccv.beta.toNat : Nat) : Rat) / 256 * (r - target) / r)
    q.roce = true → q.st = .active →
    exec (.xpRxCnp qpn rtt) s = .next (({ s with fresh := s.fresh + 1 }).setQp qpn.toNat { q with
      wnd := min (max (if s.freeBit then cut else q.wnd) ((q.ccv.minWnd.toNat : Nat) : Rat)) ((q.ccv.maxWnd.toNat : Nat) : Rat)
      srtt := q.srtt + (r - q.srtt) / 8 }))

/-- The transport's commands. -/
def Obligations.QueuePairCommands : Prop := Claims.QueuePairs ∧ Claims.MessagesStart

/-- The transport's sender. -/
def Obligations.SenderReacts : Prop := Claims.Acknowledgements ∧ Claims.SenderTimers

/-! ### Remote memory: registrations and the receiver (R370, R375–R379, R385–R388) -/

/-- MR_REGISTER, MR_PAGES and MR_REVOKE (R370, R385, R387, R388). -/
def Claims.Registrations : Prop :=
  (∀ (s : State) (h : CmdHdr) (p : MrP) (k : Nat),
    let i := Instr.mrRegister h p
    let b := s.begun h i
    let f := hdrFlask h
    let a := p.base.toNat
    let n := p.length.toNat
    s.starts h i = true → a < 2 ^ 48 → (space a = 1 ∨ space a = 2 ∨ space a = 5) → a % 64 = 0 → n % 64 = 0 → 64 ≤ n →
    n ≤ 2 ^ 40 → p.perm.toNat < 16 → p.resv = 0 → (p.stallUs = 0 ∨ (10 ≤ p.stallUs.toNat ∧ p.stallUs.toNat ≤ 10000)) →
    (p.qpn = 0xFFFFFFFF ∨ b.holds h p.qpn) → b.reachable (flaskDom f) a n = true →
    b.xport.mrs.countP (fun e => match e.2 with
      | some m => m.flask == f
      | none => false) < (b.flask f).mrQuota →
    k = lowestFree 0 (Tab.keys b.xport.mrs) → k < 1048576 →
    Completes s i h St.success 0 (leBytes 4 (k + b.mrFreed k % 256 * 2 ^ 20)) fun e => e = b.setMr k (some ⟨f,
      BitVec.ofNat 48 a, n, if p.qpn = 0xFFFFFFFF then none else some p.qpn.toNat, p.perm.getLsbD 0, p.perm.getLsbD 1,
      p.perm.getLsbD 2, p.perm.getLsbD 3, if p.stallUs = 0 then 1000 else p.stallUs.toNat, [], [], false, [], []⟩)) ∧
  (∀ (s : State) (h : CmdHdr) (key : Word) (k : Nat) (m : Mr),
    let i := Instr.mrRevoke h key
    let b := s.begun h i
    let mine (p : Placement) : Bool := decide (p.key = some k)
    s.starts h i = true → b.heldMr (hdrFlask h) key = some (k, m) → b.xport.stalled = [] →
    (b.xport.places.any mine = false → m.asked = [] → m.clearing = [] → Completes s i h St.success 0 [] fun e =>
      e.mr k = none ∧ e.mrFreed k = b.mrFreed k + 1) ∧
    (b.xport.places.any mine = true → Answers (exec i s) fun t =>
      t.mr k = some { m with revoking := true, asked := m.asked ++ [(h.ladle, h.tag)] })) ∧
  (∀ (s : State) (h : CmdHdr) (key first count : Word) (k : Nat) (m : Mr),
    let on := Instr.mrPages h key first count 1
    let off := Instr.mrPages h key first count 0
    m.paged = true → first.toNat + count.toNat ≤ (m.len + 65535) / 65536 →
    (let b := s.begun h on
     s.starts h on = true → b.heldMr (hdrFlask h) key = some (k, m) → b.xport.stalled = [] →
     Completes s on h St.success 0 [] fun e => ∃ x, e.mr k = some x ∧
       ∀ g, g ∈ x.present ↔ g ∈ m.present ∨ (first.toNat ≤ g ∧ g < first.toNat + count.toNat)) ∧
    (let b := s.begun h off
     s.starts h off = true → b.heldMr (hdrFlask h) key = some (k, m) → b.xport.places = [] → m.clearing = [] →
     Completes s off h St.success 0 [] fun e => ∃ x, e.mr k = some x ∧
       ∀ g, g ∈ x.present ↔ g ∈ m.present ∧ ¬ (first.toNat ≤ g ∧ g < first.toNat + count.toNat)))

/-- A packet of an active queue pair that is new, within the window and in turn (R375, R379). -/
def Sys2Proof.Machine.State.isNew (s : State) (hdr : XpHdr) : Prop :=
  let n := hdr.destQpn.toNat
  let q := s.qp n
  let d := psnDiff hdr.psn.toNat q.cum
  s.hears hdr ∧ (s.flask (BitVec.ofNat 8 q.flask.toNat)).st.leaving = false ∧ q.roce = false ∧ d ≤ 1024 ∧
    hdr.psn.toNat ∉ q.seen ∧ hdr.psn.toNat ∉ s.inFlight n ∧ ∀ r ∈ q.rx, r.msn = hdr.msn → r.ended = false

/-- What the receiver does with a new packet, after what its arrival shows (R365, R393): a WRITE, a SEND or a READ_REQ that passes its checks is under way to its home; one
whose key names nothing is refused with NAK `ACCESS` (R375–R379); a probe is answered (R381, R383). -/
def Claims.PacketsArrive : Prop :=
  (∀ (s₀ : State) (port : Port) (hdr : XpHdr) (key : Word) (remote : BitVec 64) (bs : List Byte) (len : Word) (env : RxEnv),
    let n := hdr.destQpn.toNat
    let s := s₀.arrival port n env
    let q := s.qp n
    let dom := q.flask
    let off := remote.toNat + hdr.offset.toNat
    let wr := exec (.xpRxDataPacket port hdr (.write key remote) bs env) s₀
    let rd := exec (.xpRxReadReq port hdr key remote len env) s₀
    s.isNew hdr → hdr.msgLen.toNat ≤ 2 ^ 30 →
    (s.findKey key = .never →
      (hdr.offset.toNat + bs.length ≤ hdr.msgLen.toNat → wr = .next (s.answer (some port) hdr (some .access))) ∧
      (hdr.offset.toNat + len.toNat ≤ hdr.msgLen.toNat → rd = .next (s.answer (some port) hdr (some .access)))) ∧
    (∀ k m, s.findKey key = .live k m → flaskDom m.flask = dom → (m.qpn = none ∨ m.qpn = some n) → m.paged = false →
      s.mr k = some m → space (m.base.toNat + off) ≠ 5 → m.base.toNat + off < 2 ^ 48 →
      (hdr.offset.toNat + bs.length ≤ hdr.msgLen.toNat → m.write = true → off + bs.length ≤ m.len →
        inFlask s dom (m.base.toNat + off) bs.length = true →
        Answers wr fun t => t.xport.places = s.xport.places ++ [⟨port, n, hdr, .write key remote, bs,
          some (BitVec.ofNat 48 (m.base.toNat + off)), dom, some k, [], none, 0, false, true⟩] ∧ t.mem = s.mem) ∧
      (hdr.offset.toNat + len.toNat ≤ hdr.msgLen.toNat → m.read = true → off + len.toNat ≤ m.len →
        inFlask s dom (m.base.toNat + off) len.toNat = true →
        Answers rd fun t => t.xport.places = s.xport.places ++ [⟨port, n, hdr, .readResp, [],
          some (BitVec.ofNat 48 (m.base.toNat + off)), dom, some k, [], some len.toNat, 0, false, true⟩] ∧ t.mem = s.mem))) ∧
  (∀ (s₀ : State) (port : Port) (hdr : XpHdr) (bs : List Byte) (env : RxEnv) (x : Target) (r : FeedRec) (slot : Nat),
    let n := hdr.destQpn.toNat
    let s := s₀.arrival port n env
    s.isNew hdr → hdr.msgLen.toNat ≤ 2 ^ 30 → hdr.offset.toNat + bs.length ≤ hdr.msgLen.toNat →
    s.checkSlot hdr = .ok (x, r, slot) → space (x.addr % 2 ^ 48) ≠ 5 →
    inFlask s (s.qp n).flask (x.addr % 2 ^ 48) bs.length = true →
    Answers (exec (.xpRxDataPacket port hdr .send bs env) s₀) fun t =>
      (∃ p, t.xport.places = s.xport.places ++ [p] ∧ p.addr = some (BitVec.ofNat 48 x.addr) ∧ p.payload = bs ∧ p.key = none) ∧
      (∃ m ∈ (t.qp n).rx, m.msn = hdr.msn) ∧ (∃ y ∈ (t.qp n).slots, y.1 = slot) ∧ t.mem = s.mem) ∧
  (∀ (s : State) (port : Port) (hdr : XpHdr), s.hears hdr →
    (s.flask (BitVec.ofNat 8 (s.qp hdr.destQpn.toNat).flask.toNat)).st.leaving = false →
    exec (.xpRxProbe port hdr) s = .next (s.answer (some port) hdr none)) ∧
  (∀ (s₀ : State) (port : Port) (hdr : XpHdr) (m : XpMsg) (bs : List Byte) (env : RxEnv),
    let n := hdr.destQpn.toNat
    let s := s₀.arrival port n env
    s.hears hdr → hdr.msgLen.toNat ≤ 2 ^ 30 → hdr.offset.toNat + bs.length ≤ hdr.msgLen.toNat →
    (s.qp n).msgs.find? (fun m => decide (m.msn = hdr.msn) && m.kind.isRead && m.done.isNone) = some m → m.got = [] →
    hdr.offset.toNat + bs.length ≤ m.len → s.xport.places = [] → m.len ≠ 0 →
    space (m.local' + BitVec.ofNat 48 hdr.offset.toNat).toNat ≠ 5 →
    Answers (exec (.xpRxDataPacket port hdr .readResp bs env) s₀) fun t => ∃ p, t.xport.places = [p] ∧ p.payload = bs ∧
      p.addr = some (m.local' + BitVec.ofNat 48 hdr.offset.toNat)) ∧
  (∀ (s : State) (port : Port) (n : Nat) (env : RxEnv),
    let q := s.qp n
    (env = ⟨false, false⟩ → s.arrival port n env = s) ∧
    (env.qpBad = true → q.st = .active → ((s.arrival port n env).qp n).st = .error) ∧
    (env = ⟨true, false⟩ → q.roce = true → s.phase.serves = true → s.twin.st ≠ .fenced → q.cnp = false →
      (s.arrival port n env).out = s.out ++ [.cnp n port] ∧ (s.arrival port n env).qp n = { q with cnp := true }))

/-- XP_PLACEMENT_RETIRE: behind an earlier write on one of its paths a packet waits (R171); else its bytes stand in memory, and its packet number is received and acknowledged; XP_STALL_LIMIT: a
packet that has waited too long for its page is refused with NAK `PAGE_FAULT` (R373, R375, R380, R386). -/
def Claims.PlacementsEnd : Prop :=
  (∀ (s : State) (k : Nat) (p : Placement) (a : BitVec 48),
    s.xport.places[k]? = some p → p.waits = 0 → s.placeBehind k p = false → p.live = true → p.key = none → p.addr = some a → space a.toNat ≠ 5 →
    (p.readLen = none → p.kind ≠ .readResp → s.writeWaits p.dom a.toNat p.payload.length = (false, s) →
      let s' : State := { s with xport := { s.xport with places := s.xport.places.eraseIdx k } }
      let heralds := p.heralded && (s.qp p.qpn).rx.any fun m => decide (m.msn = p.hdr.msn) && !m.ended
      let w := (if heralds then s'.land (.msg p.qpn p.hdr.msn) p.dom a.toNat p.payload.length else s').hubWrite p.dom .hub a.toNat
        p.payload
      w.2 = .ok → Answers (exec (.xpPlacementRetire k) s) fun t =>
        t.mem = w.1.mem ∧ t.xport.places = s.xport.places.eraseIdx k ∧
        (t.qp p.qpn).rxBytes = (s.qp p.qpn).rxBytes + p.payload.length ∧
        (t.qp p.qpn).cum = ((s.qp p.qpn).receive [p.hdr.psn.toNat]).cum) ∧
    (∀ len path c, p.readLen = some len → (s.qp p.qpn).conn = some c → s.readWaits p.dom a.toNat = false → (s.qp p.qpn).nextPath = some path →
      let s' : State := { s with xport := { s.xport with places := s.xport.places.eraseIdx k } }
      let r := s'.hubRead p.dom .hub a.toNat len
      r.2.2 = .ok → r.1.length ≤ (s.qp p.qpn).mtu → Answers (exec (.xpPlacementRetire k) s) fun t =>
        t.mem = r.2.1.mem ∧ t.xport.places = s.xport.places.eraseIdx k ∧
        packetOn s p.qpn path c 4 ⟨1, true, false, false, false, 0, 0, 0, p.hdr.psn, p.hdr.msn, p.hdr.msgLen, p.hdr.offset, 0⟩ r.1
          ∈ t.net.xq)) ∧
  (∀ (s : State) (k : Nat) (p : Placement), s.xport.places[k]? = some p → s.placeBehind k p = true →
    exec (.xpPlacementRetire k) s = .next s) ∧
  (∀ (s : State) (k : Nat) (x : Stalled),
    let n := x.p.hdr.destQpn.toNat
    s.xport.stalled[k]? = some x → (s.qp n).roce = false → s.twin.st ≠ .fenced → (s.qp n).rx = [] →
    Answers (exec (.xpStallLimit k) s) fun t => t.xport.stalled = s.xport.stalled.eraseIdx k ∧
      ∃ y g, t.net.xq = s.net.xq ++ [y] ∧ y.qpn = n ∧ y.port = x.p.port ∧ y.type = 6 ∧ y.hdr.path = x.p.hdr.path ∧
        y.hdr.psn = x.p.hdr.psn ∧ y.hdr.msn = x.p.hdr.msn ∧ y.hdr.ts = x.p.hdr.ts ∧
        y.body = beBytes 4 (s.qp n).cum ++ beBytes 8 (s.qp n).sack.toNat ++ beBytes 8 g ++ beBytes 4 (s.qp n).msnDone.toNat ++
          [5, 0, 0, 0])

/-- Registrations. -/
def Obligations.RegistrationsAct : Prop := Claims.Registrations

/-- The transport's receiver. -/
def Obligations.ReceiverPlaces : Prop := Claims.PacketsArrive ∧ Claims.PlacementsEnd

/-! ### Storage (R395–R415) -/

/-- VOL_CREATE, VOL_DESTROY and DRIVE_POWER (R395, R396, R403). -/
def Claims.StorageOwner : Prop :=
  (∀ (s : State) (h : CmdHdr) (flask : BitVec 16) (volume port : Byte) (start blocks : BitVec 64) (f : FlaskId) (p : Port),
    let i := Instr.volCreate h flask volume port start blocks
    let b := s.begun h i
    let d := b.drive p
    let k := volKey f volume.toNat
    s.starts h i = true → flask.toNat = f.toNat → port.toNat = p.toNat → volume.toNat < 64 →
    ((b.flask f).st = .empty ∨ (b.flask f).st.isCast = true) → b.vol k = none → d.unsupported = false → d.ready = true →
    blocks ≠ 0 →
    (start.toNat + blocks.toNat ≤ d.blocks → b.rangeTaken p start.toNat blocks.toNat = false →
      exec i s = .next ((b.setVol k (some ⟨f, volume.toNat, p, start.toNat, blocks.toNat, d.serial, false, none⟩)).done h
        St.success)) ∧
    ((d.blocks < start.toNat + blocks.toNat ∨ b.rangeTaken p start.toNat blocks.toNat = true) →
      exec i s = .next (b.done h 0x00A1))) ∧
  (∀ (s : State) (h : CmdHdr) (flask : BitVec 16) (volume : Byte) (f : FlaskId) (v : Volume),
    let i := Instr.volDestroy h flask volume
    let b := s.begun h i
    let k := volKey f volume.toNat
    s.starts h i = true → flask.toNat = f.toNat → volume.toNat < 64 → (b.flask f).st ≠ .failed → b.vol k = some v →
    v.destroying = none →
    (b.stor.cmds = [] → b.stor.flushes = [] → b.stor.jobs = [] → Completes s i h St.success 0 [] fun e => e.vol k = none) ∧
    (∀ c ∈ b.stor.cmds, c.vol = k → c.op ≠ .power →
      exec i s = .next (b.setVol k (some { v with destroying := some h.tag })))) ∧
  (∀ (s : State) (h : CmdHdr) (port ps : Byte) (p : Port),
    let i := Instr.drivePower h port ps
    let b := s.begun h i
    let d := b.drive p
    s.starts h i = true → port.toNat = p.toNat → ps.toNat < 32 → d.ready = true → d.power = none →
    ((∀ c ∈ b.stor.cmds, c.port ≠ p) → Answers (exec i s) fun t =>
      (t.drive p).power = some (h.tag, BitVec.ofNat 5 ps.toNat, true) ∧
      t.out = b.out ++ [.drive p b.stor.nextId .power ps.toNat 0 false]) ∧
    (∀ c ∈ b.stor.cmds, c.port = p →
      exec i s = .next (b.setDrive p { d with power := some (h.tag, BitVec.ofNat 5 ps.toNat, false) })))

/-- STOR_READ, STOR_WRITE, STOR_TRIM and STOR_FLUSH: the drive's command leaves with the volume's start added to `LBA`, a read or a
write in parts of at most the drive's maximum transfer, and the ladle command stays outstanding (R398–R402). -/
def Claims.StorageFlask : Prop :=
  (∀ (s : State) (h : CmdHdr) (p : StorP) (v : Volume),
    let f := hdrFlask h
    let a := p.localAddr.toNat
    let n := p.blocks.toNat * 4096
    let fine (b : State) (cls : Bool) : Prop := b.heldVol f p.volume.toNat = some v ∧ b.volUp v = true ∧ 1 ≤ p.blocks.toNat ∧
      p.blocks.toNat ≤ 65536 ∧ p.lba.toNat + p.blocks.toNat ≤ v.blocks ∧ (cls = true → a < 2 ^ 48 ∧
        (space a = 1 ∨ space a = 2 ∨ space a = 5) ∧ a % 64 = 0 ∧ b.reachable (flaskDom f) a n = true)
    let parts (b : State) (op : DrvOp) : List ((Nat × Nat) × Nat) :=
      let m := (b.drive v.port).maxBlocks
      let k := p.blocks.toNat
      (if m = 0 ∨ k ≤ m ∨ op = .trim then [(0, k)]
        else (List.range ((k + m - 1) / m)).map fun x => (x * m, min m (k - x * m))).zipIdx
    let issues (i : Instr) (b : State) (op : DrvOp) (fua : Bool) (token : Option (BitVec 4)) : Prop := Answers (exec i s) fun t =>
      t.stor.cmds = b.stor.cmds ++ (parts b op).map (fun x => ⟨b.stor.nextId + x.2, v.port, op, h.ladle, h.tag,
        volKey v.flask v.num, v.start + p.lba.toNat + x.1.1, x.1.2, BitVec.ofNat 48 (a + x.1.1 * 4096), fua, token, none, true, 0,
        false, none, b.stor.nextId, none⟩) ∧
      t.out = b.out ++ (parts b op).map (fun x =>
        .drive v.port (b.stor.nextId + x.2) op (v.start + p.lba.toNat + x.1.1) x.1.2 fua) ∧
      (t.ladle h.ladle).cmds = (b.ladle h.ladle).cmds
    (let i := Instr.storRead h p
     let b := s.begun h i
     let cls : BitVec 4 := BitVec.ofNat 4 p.cls.toNat
     s.starts h i = true → fine b true → p.cls.toNat ≤ 15 →
     (h.flags.getLsbD 9 = false → issues i b .read false none) ∧
     (∀ r, h.flags.getLsbD 9 = true → b.feedFor f [3] cls.toNat = some r → inRegion r a n = true →
       issues i b .read false (some cls)) ∧
     (h.flags.getLsbD 9 = true → b.feedFor f [3] cls.toNat = none → exec i s = .next (b.done h St.accessFault))) ∧
    (let i := Instr.storWrite h p
     let b := s.begun h i
     let r := b.hubRead (ladleDom h.ladle) .hub a n
     s.starts h i = true → fine b true →
     (space a ≠ 5 → r.2.2 = .ok → issues i r.2.1 .write (h.flags.getLsbD 8) none) ∧
     (space a ≠ 5 → r.2.2 = .uncorrectable → exec i s = .next (r.2.1.done h St.uncorrectable)) ∧
     (space a = 5 → a % 2 ^ 43 + n ≤ 2 ^ 43 → Answers (exec i s) fun t => t.out = b.out ∧
       (∃ cs, t.stor.cmds = b.stor.cmds ++ cs ∧ cs.length = (parts b .write).length ∧ ∀ c ∈ cs, c.issued = false) ∧
       let e : Ep := BitVec.ofNat 1 (a / 2 ^ 43)
       (t.ep e).queue = (b.ep e).queue ++ (parts b .write).map fun x => ⟨b.fab.nextId + x.2, .drive (b.stor.nextId + x.2),
         ladleDom h.ladle, BitVec.ofNat 48 (a + x.1.1 * 4096), x.1.2 * 4096, none⟩)) ∧
    (let i := Instr.storTrim h p
     let b := s.begun h i
     s.starts h i = true → fine b false → issues i b .trim false none)) ∧
  (∀ (s : State) (h : CmdHdr) (volume : Byte) (v : Volume),
    let i := Instr.storFlush h volume
    let b := s.begun h i
    let f := hdrFlask h
    s.starts h i = true → volume.toNat < 64 → b.heldVol f volume.toNat = some v → b.volUp v = true →
    (∀ c ∈ b.stor.cmds, ¬ (c.op = .write ∧ c.ladle = h.ladle)) → b.stor.flushes = [] →
    ((b.drive v.port).vwc = false → Completes s i h St.success 0 [] fun e => e.stor = b.stor ∧ e.out = b.out) ∧
    ((b.drive v.port).vwc = true → Answers (exec i s) fun t =>
      t.out = b.out ++ [.drive v.port b.stor.nextId .flush 0 0 false] ∧
      t.stor.flushes = [⟨h.ladle, h.tag, [volKey f volume.toNat], [], [b.stor.nextId], true, St.success, 0⟩]))

/-- The commands of storage. -/
def Obligations.StorageCommands : Prop := Claims.StorageOwner ∧ Claims.StorageFlask

/-- DRIVE_COMPLETION: a read's data stand in memory, and the command completes with its status, when it is the last part of what it
was split into; DRIVE_MEMORY_REQUEST: a request
outside every open window is a stray and touches nothing (R399–R403). -/
def Claims.DrivesAnswer : Prop :=
  (∀ (s : State) (port : Port) (id : Nat) (c : DrvCmd),
    let kin : List DrvCmd := s.stor.cmds.filter fun x => decide (x.id = id) || decide (x.group = c.group)
    s.drvCmd id = some c → c.port = port → c.issued = true → c.ended = false → c.token = none → c.id = id → c.op ≠ .power →
    c.op ≠ .flush → s.stor.flushes = [] → (∀ k v, s.vol k = some v → v.destroying = none) → (s.drive port).power = none →
    let ends (st : State) : State := State.landEnd
      { st with stor := { st.stor with cmds := st.stor.cmds.filter fun x => decide (x.group ≠ c.group) } } (.drive c.group)
    let erred := s.count (portReg Reg.storPnErrors port)
    (∀ d, kin = [c, d] ∨ kin = [d, c] → d.id ≠ id → d.res = none → exec (.driveCompletion port id .mediaError) s =
      .next (erred.setCmd { c with feed := none, ended := true, res := some (St.mediaError, 0) })) ∧
    (kin = [c] →
    exec (.driveCompletion port id .mediaError) s = .next ((ends erred).complete c.ladle c.tag St.mediaError 0 []) ∧
    (∀ sf, exec (.driveCompletion port id (.nvmeError sf)) s = .next ((ends erred).complete c.ladle c.tag 0x00A3
      (BitVec.ofNat 32 (sf.toNat + port.toNat * 2 ^ 16)) [])) ∧
    (∀ data, c.op = .read → space c.addr.toNat ≠ 5 → c.failed = none →
      s.writeWaits c.dom c.addr.toNat (data.take c.bytes).length = (false, s) →
      let q := (s.setCmd { c with feed := none }).hubWrite c.dom .hub c.addr.toNat (data.take c.bytes)
      (q.2 = .ok → exec (.driveCompletion port id (.ok data)) s = .next ((ends q.1).complete c.ladle c.tag St.success 0 [])) ∧
      (q.2 = .outside → exec (.driveCompletion port id (.ok data)) s = .next ((ends ((q.1.setCmd { c with
        feed := none, failed := some St.accessFault }).postDom c.dom 0x010A St.accessFault 0xFFF
          (evData [0xFFF, c.tag.toNat % 65536]))).complete c.ladle c.tag St.accessFault 0 []))) ∧
    (∀ data, c.op ≠ .read → c.out = 0 → exec (.driveCompletion port id (.ok data)) s =
      .next ((ends s).complete c.ladle c.tag (c.failed.getD St.success) 0 [])))) ∧
  (∀ (s : State) (port : Port) (id : Nat) (c : DrvCmd) (ps : BitVec 5),
    (s.stor.cmds.filter fun x => decide (x.id = id) || decide (x.group = c.group)) = [c] → s.drvCmd id = some c → c.port = port → c.issued = true → c.ended = false → c.token = none → c.op = .power → c.id = id →
    c.lba = ps.toNat → (s.drive port).power = some (c.tag, ps, true) →
    Answers (exec (.driveCompletion port id (.ok [])) s) fun t => (t.drive port).ps = ps ∧ (t.drive port).power = none) ∧
  (∀ (s : State) (port : Port) (f : FlaskId) (addr : BitVec 48) (len : BitVec 13),
    (∀ bs, (∀ c ∈ s.stor.cmds, c.port = port → c.op = .read → c.dom ≠ flaskDom f) →
      exec (.driveMemoryRequest port f addr len (some bs)) s =
        .next ((s.count (portReg Reg.storPnStray port)).emit (.driveCpl port none))) ∧
    ((∀ c ∈ s.stor.cmds, c.port = port → c.op = .write → c.dom ≠ flaskDom f) →
      exec (.driveMemoryRequest port f addr len none) s =
        .next ((s.count (portReg Reg.storPnStray port)).emit (.driveCpl port none))) ∧
    (∀ c, s.stor.cmds = [c] → c.port = port → c.issued = true → c.ended = false → c.dom = flaskDom f → space addr.toNat ≠ 5 →
      c.addr.toNat ≤ addr.toNat →
      (∀ bs, c.op = .read → addr.toNat + bs.length ≤ c.addr.toNat + c.bytes →
        s.writeWaits c.dom addr.toNat bs.length = (false, s) →
        (c.token = none → let q := (s.setCmd { c with feed := none }).hubWrite c.dom .hub addr.toNat bs
          q.2 ≠ .outside → exec (.driveMemoryRequest port f addr len (some bs)) s = .next q.1) ∧
        (let b := c.bind s
         let q := ((s.setCmd b).land (.drive c.group) c.dom addr.toNat bs.length).hubWrite c.dom .hub addr.toNat bs
         b.feed.isSome = true → q.2 ≠ .outside →
         exec (.driveMemoryRequest port f addr len (some bs)) s = .next q.1)) ∧
      (c.op = .write → addr.toNat + len.toNat ≤ c.addr.toNat + c.bytes → s.readWaits c.dom addr.toNat = false →
        let r := s.hubRead c.dom .hub addr.toNat len.toNat
        r.2.2 = .ok → exec (.driveMemoryRequest port f addr len none) s = .next (r.2.1.emit (.driveCpl port (some r.1))))))

/-- Slots and drives: presence, power, identification, the attention switch and removals (R308, R397, R405–R408). -/
def Claims.Slots : Prop :=
  ∀ (s : State) (port : Port),
    let d := s.drive port
    let ctl := portReg Reg.storPnCtl port
    let gone (t : State) : Prop := (t.drive port).ready = false ∧ (t.drive port).link = false ∧ (t.drive port).powerGood = false ∧
      (t.drive port).power = none ∧ ∀ c ∈ t.stor.cmds, c.port ≠ port
    (∀ x, exec (.driveAsyncEvent port x) s = .next ((s.volFlasks port).foldl
      (fun s f => s.postFlask f 0x0705 St.success 0xFFF (leBytes 4 port.toNat ++ leBytes 16 x.toNat))
      (s.postOwner 0x0705 St.success 0xFFF (leBytes 4 port.toNat ++ leBytes 16 x.toNat)))) ∧
    (d.present = false → exec (.drivePresenceDetect port) s =
      .next ((s.setDrive port { d with present := true }).postOwner 0x0701 St.success 0xFFF (evData [port.toNat]))) ∧
    (∀ m, s.phase.serves = true → s.arrives m = true → s.isOwner m = true →
      exec (.storPowerEn m port true) s = .next (s.setReg ctl ((s.reg ctl &&& 0xFFFFFFFE) ||| 1)) ∧
      Answers (exec (.storPowerEn m port false) s) gone) ∧
    (∀ m on, s.phase.serves = true → s.arrives m = true → s.isOwner m = false →
      exec (.storPowerEn m port on) s = .next (s.observed m)) ∧
    (∀ m on, s.phase.serves = false ∨ s.arrives m = false → exec (.storPowerEn m port on) s = .next s) ∧
    ((s.reg ctl).getLsbD 0 = true →
      exec (.slotPowerGood port true) s = .next (s.setDrive port { d with powerGood := true }) ∧
      Answers (exec (.slotPowerGood port false) s) fun t => gone t ∧ (t.drive port).powerFault = true) ∧
    (∀ x, d.present = true → d.powerGood = true → s.twin.st ≠ .fenced → Answers (exec (.driveReady port x) s) fun t =>
      t.drive port = { d with link := true, speed := x.speed, serial := x.serial, blocks := x.blocks.toNat, vwc := x.vwc, maxBlocks := x.maxBlocks.toNat
                              ready := x.supported, unsupported := !x.supported, ps := 0 } ∧
      (x.supported = true → ∀ k v, s.vol k = some v → t.vol k =
        some (if v.port = port then { v with offline := decide (v.serial ≠ x.serial) } else v))) ∧
    (∀ ms, exec (.slotAttentionPress port ms) s = .next (if ms < 1000 then s else
      (s.setDrive port { d with pressed := true, presses := d.presses + 1 }).postOwner 0x0704 St.success 0xFFF
        (evData [port.toNat]))) ∧
    (d.present = true → Answers (exec (.driveSurpriseRemoval port) s) fun t => gone t ∧ (t.drive port).present = false ∧
      (t.reg ctl).getLsbD 0 = false ∧ ∀ k v, t.vol k = some v → v.port = port → v.offline = true)

/-- INGEST and its jobs: a job keeps the binding that it came under; one job of a binding runs at a time; its output is placed in
the binding's region and its token issued when all of it is, at once or on a later row (log entry 119); a decoder's failure is the job's
status; what the decoders make of the input (R62, R409–R413). -/
def Claims.IngestJobs : Prop :=
  (∀ (s : State) (h : CmdHdr) (binding : BitVec 16) (src : BitVec 64) (len : Word),
    let i := Instr.ingest h binding src len
    let b := s.begun h i
    let f := hdrFlask h
    s.starts h i = true → 1 ≤ len.toNat → len.toNat ≤ 2 ^ 30 → (b.ingestFeed f binding.toNat).isSome = true →
    src.toNat < 2 ^ 48 → inFlask b (flaskDom f) src.toNat len.toNat = true →
    exec i s = .next { b with stor := { b.stor with jobs := b.stor.jobs ++ [⟨f, BitVec.ofNat 12 binding.toNat,
      BitVec.ofNat 48 src.toNat, len.toNat, .ingest h.ladle h.tag (h.flags.extractLsb' 9 2), false, 0,
      b.ingestFeed f binding.toNat, .idle, none⟩] } }) ∧
  (∀ (s : State) (f : FlaskId) (binding : BitVec 12) (r : FeedRec) (j : Job),
    s.stor.jobs.find? (fun j => j.flask == f && j.binding == binding) = some j → j.feed = some r →
    (j.running = false → s.tokensTaken f binding = true →
      s.enginesBusy (decide (r.source = 6)) < (if r.source = 6 then 4 else 8) → (s.flask f).st.leaving = false →
      s.twin.st ≠ .fenced → Answers (exec (.ingestJobStart f binding) s) fun t =>
        { j with running := true, num := Tab.get 0 s.stor.jobNo (f.toNat * 4096 + binding.toNat) } ∈ t.stor.jobs ∧
        Tab.get 0 t.stor.jobNo (f.toNat * 4096 + binding.toNat) =
          Tab.get 0 s.stor.jobNo (f.toNat * 4096 + binding.toNat) + 1 ∧ t.mem = s.mem) ∧
    (∀ l tag fl, j.running = true → j.origin = .ingest l tag fl → r.mode.toNat ≠ 1 → space r.target.toNat ≠ 5 →
      (s.flask f).st.leaving = false →
      let ended (st : State) (reg : Nat) : State := State.count
        (State.landEnd { st with stor := { st.stor with jobs := st.stor.jobs.erase j } } (.job j.flask j.binding)) reg
      let good (st : State) : State := (ended (st.feedToken f r (j.num % 65536)) Reg.storIngestJobs).complete l tag St.success 0 []
      let bad (st : State) (code : Status) : State := (ended st Reg.storIngestFails).complete l tag code 0 []
      (j.out = none → s.heldTokens f binding < 64 → space j.src.toNat ≠ 5 → s.readWaits (flaskDom f) j.src.toNat = false →
        let q := s.hubRead (flaskDom f) .hub j.src.toNat j.len
        let d := decodeJob r j q.1
        let n := r.targetBytes.toNat
        let put := q.2.1.putParts j
          ((split 65536 (n / 65536 + 2) r.target.toNat (d.1.flatten.take n)).map fun x => (x.1, x.2, none))
        let code : Status := if n < d.1.flatten.length then 0x00A5 else d.2.2
        q.2.2 = .ok → put.2.2 = .ok → put.2.1 = [] → exec (.ingestJobEnd f binding) s = .next (
          let w := put.1
          if w.freeBit then if code = St.success then good w.took else bad w.took code
          else { w.took with stor := { w.stor with jobs := w.stor.jobs.map fun x =>
            if x = j then { j with out := some ⟨[], none, code⟩ } else x } })) ∧
      (∀ o, j.out = some o → o.parts = [] →
        (o.code = St.success → exec (.ingestJobEnd f binding) s = .next (good s.took)) ∧
        (o.code ≠ St.success → exec (.ingestJobEnd f binding) s = .next (bad s.took o.code)))) ∧
    (j.running = true → j.out = none → s.heldTokens f binding < 64 → space j.src.toNat ≠ 5 →
      s.readWaits (flaskDom f) j.src.toNat = false →
      let q := s.hubRead (flaskDom f) .hub j.src.toNat j.len
      let d := decodeJob r j q.1
      (q.2.2 = .uncorrectable → exec (.ingestJobEnd f binding) s = .next (q.2.1.endJob j St.uncorrectable)) ∧
      (q.2.2 = .ok → r.mode.toNat = 1 →
        let base := r.target.toNat / 2 ^ 24 % 2 ^ 20
        ((s.flask f).clusters.length * 256 < base + d.2.1 → exec (.ingestJobEnd f binding) s = .next (q.2.1.endJob j 0x00A5)) ∧
        (base + d.2.1 ≤ (s.flask f).clusters.length * 256 → exec (.ingestJobEnd f binding) s = .next (q.2.1.placeJob j r
          ⟨d.1.zipIdx.map fun x => ((base + x.2) * 2 ^ 24 + r.target.toNat % 2 ^ 24, x.1, some x.2), none, d.2.2⟩ true))))) ∧
  (∀ (r : FeedRec) (j : Job) (bs : List Byte),
    (r.source = 5 → decodeJob r j bs = ([(Config.inflate 4 bs).1], 1, ingestCode (Config.inflate 4 bs).2)) ∧
    (r.source = 6 →
      let g := Config.jpeg bs
      let e := 2 ^ r.tileEdge.toNat
      let d := decodeJob r j bs
      if 16384 < g.width ∨ 16384 < g.height then d = ([], 0, 0x00A4)
      else d.2 = (jpegTiles g e, ingestCode g.code) ∧ d.1.length ≤ jpegTiles g e ∧ (g.code ≠ 0 ∨ d.1.length = jpegTiles g e) ∧
        ∀ x ∈ d.1, x.length = e * e * (if r.tileFmt = 1 then 3 else 1)))

/-- Drives, slots and ingest jobs. -/
def Obligations.DrivesAndIngest : Prop := Claims.DrivesAnswer ∧ Claims.Slots ∧ Claims.IngestJobs

/-! ### Host endpoints (R283–R309, R340–R342) -/

/-- CONFIG_REQUEST: the identification, what the command register and the device state write, and Request Retry Status while the
function is being reset (R283–R285, R303, R304). -/
def Claims.Configuration : Prop :=
  ∀ (s : State) (e : Ep), (s.ep e).speed ≠ 0 →
    ((s.ep e).flr = true → ∀ off w, exec (.configRequest e off w) s = .next (s.emit (.completion e .retry [] false))) ∧
    ((s.ep e).flr = false →
      exec (.configRequest e 0 none) s = .next (s.emit (.completion e .success (Word.bytes 0x0A101F3C) false)) ∧
      exec (.configRequest e 8 none) s = .next (s.emit (.completion e .success (Word.bytes 0x120000A1) false)) ∧
      exec (.configRequest e 4 none) s = .next (s.emit (.completion e .success (Word.bytes (0x00100000 ||| (s.ep e).cfgKept 4 |||
        (if (s.ep e).memSpace then 2 else 0) ||| if (s.ep e).bme then 4 else 0)) false)) ∧
      (∀ w : Word, Answers (exec (.configRequest e 4 (some w)) s) fun t =>
        (t.ep e).memSpace = w.getLsbD 1 ∧ (t.ep e).bme = w.getLsbD 2 ∧ (t.ep e).cfgKept 4 = w &&& 0x540 ∧
        .completion e .success [] false ∈ t.out) ∧
      exec (.configRequest e 0x10 none) s =
        .next (s.emit (.completion e .success (Word.bytes (4 ||| (s.ep e).cfgKept 0x10)) false)) ∧
      (∀ w : Word, Answers (exec (.configRequest e 0x10 (some w)) s) fun t => (t.ep e).cfgKept 0x10 = w &&& 0xFC000000) ∧
      (∀ w : Word, Answers (exec (.configRequest e 0x44 (some w)) s) fun t =>
        (t.ep e).d3 = if w.toNat % 4 = 3 then true else if w.toNat % 4 = 0 then false else (s.ep e).d3) ∧
      (∀ w : Word, Answers (exec (.configRequest e 0xB0 (some w)) s) fun t =>
        (t.ep e).fnMask = w.getLsbD 30 ∧ (t.ep e).msixEn = w.getLsbD 31))

/-- What a reset of the function leaves of its registers (R304). -/
def FunctionReset (x : Endpoint) : Prop :=
  x.bme = false ∧ x.memSpace = false ∧ x.d3 = false ∧ x.flr = false ∧ x.cfg = [] ∧ x.fnMask = false ∧ x.msixEn = false ∧
    x.noteEn = false ∧ x.devRo = true ∧ x.devNs = true

/-- Function resets, link changes, Bus Master Enable and the power state (R302–R306). -/
def Claims.Functions : Prop :=
  ∀ (s : State) (e : Ep),
    let x := s.ep e
    (x.speed ≠ 0 → x.flr = false →
      (Answers (exec (.initiateFlr e) s) fun t => (t.ep e).flr = true ∧ (t.ep e).bme = x.bme ∧ (t.ep e).speed = x.speed) ∧
      (∀ on, Answers (exec (.busMasterEnableChange e on) s) fun t => (t.ep e).bme = on ∧ t.mem = s.mem) ∧
      (∀ d3, Answers (exec (.powerStateChange e d3) s) fun t => (t.ep e).d3 = d3 ∧ t.mem = s.mem)) ∧
    (x.flr = true → Answers (exec (.flrReady e) s) fun t => FunctionReset (t.ep e)) ∧
    (x.speed ≠ 0 → ∀ i ∈ [Instr.linkDown e, .hostPerst e], Answers (exec i s) fun t =>
      FunctionReset (t.ep e) ∧ (t.ep e).speed = 0 ∧ (t.ep e).width = 0 ∧
      (t.ep e).downs = if x.downs = 0xFFFF then x.downs else x.downs + 1) ∧
    (∀ (speed : BitVec 3) (width : BitVec 5) flit, 1 ≤ speed.toNat → speed.toNat ≤ 6 → width.toNat ∈ [1, 2, 4, 8, 16] →
      (speed = 6 → flit = true) → s.phase ≠ .off → (s.phase = .coldShut → e = 0 ∧ speed.toNat ≤ 4 ∧ width.toNat ≤ 4) →
      Answers (exec (.endpointLinkUp e speed width flit) s) fun t =>
        (t.ep e).speed = speed ∧ (t.ep e).width = width ∧ (t.ep e).flit = flit)

/-- OUTBOUND_REQUEST of a core, OUTBOUND_READ_COMPLETION and COMPLETION_TIMEOUT: the entry's host address is used, a write is
acknowledged when it leaves, a read waits for its data; a write without an entry is dropped and reported, a read gets the error
response (R294–R298, R302, R304). -/
def Claims.Outbound : Prop :=
  (∀ (s : State) (m : MemReq),
    let e : Ep := BitVec.ofNat 1 (m.addr.toNat / 2 ^ 43)
    let x := s.ep e
    let o := s.outEntry e (bits m.addr.toNat 42 32)
    let a := BitVec.ofNat 64 (o.host + m.addr.toNat % 2 ^ 32)
    let act := exec (.outboundRequest m.id) s
    let gone : List MemReq := s.fab.reqs.filter fun r => decide (r.id ≠ m.id)
    let rep (r : Reply) : MemRep := ⟨m.issuer, m.gen, m.addr, m.seg, m.off, m.posted, r⟩
    let enabled : Prop := o.en = true ∧ o.dis = false ∧ o.flask = m.dom ∧ x.speed ≠ 0 ∧ x.d3 = false ∧ x.bme = true
    s.fab.reqs.find? (fun r => decide (r.id = m.id) && decide (space r.addr.toNat = 5)) = some m →
    s.stale m.issuer m.gen = false → s.memTurn m = true → s.outHeld e m.dom = false →
    s.heldBefore e m.id = false →
    (∀ n v, m.op = .store n v → n ≤ 4 →
      (enabled → o.w = true → m.addr.toNat % 2 ^ 32 + n ≤ 2 ^ o.log2 → Answers act fun t =>
        t.fab.reqs = gone ∧ t.fab.reps = s.fab.reps ++ [rep .done] ∧
        ∃ rest, t.out = s.out ++ .hostWrite e a ((Word.bytes v.payload).take n) (o.ro && x.devRo) (o.ns && x.devNs) :: rest) ∧
      (o.en = false → act = .next ((({ s with fab := { s.fab with reqs := gone } }.postDom m.dom 0x0303 St.accessFault 0xFFF
        (evData [e.toNat * 2048 + bits m.addr.toNat 42 32])).answerProc m.issuer m.gen m.addr m.seg m.off m.posted
          .done).flushNotes e))) ∧
    (∀ n, m.op = .load n →
      (enabled → o.r = true → m.addr.toNat % 2 ^ 32 + n ≤ 2 ^ o.log2 → x.flr = false → x.reads.length < 1024 → Answers act fun t =>
        t.fab.reqs = gone ∧ t.out = s.out ++ [.hostRead e a n m.id (o.ns && x.devNs)] ∧
        (t.ep e).reads = x.reads ++ [⟨m.id, .proc m.issuer m.gen m.seg m.off, m.dom, m.addr, n, none⟩]) ∧
      (o.en = false → Answers act fun t => t.fab.reqs = gone ∧ t.out = s.out ∧
        t.fab.reps = s.fab.reps ++ [⟨m.issuer, m.gen, m.addr, m.seg, m.off, false, .bus⟩]))) ∧
  (∀ (s : State) (e : Ep) (req : Nat),
    (s.ep e).reads.find? (fun r => decide (r.id = req)) = none →
    ∀ c, exec (.outboundReadCompletion e req c) s = .next (s.count (epReg Reg.pciHe0Unexp e))) ∧
  (∀ (s : State) (e : Ep) (r : OutReq) (p : Proc) (gen : Byte) (seg : BitVec 3) (off : Word),
    (s.ep e).reads.find? (fun x => decide (x.id = r.id)) = some r → r.who = .proc p gen seg off →
    let left := s.setEp e { s.ep e with reads := (s.ep e).reads.filter fun x => decide (x.id ≠ r.id) }
    let answers (x : Reply) : State := { left with fab := { left.fab with reps := left.fab.reps ++
      [⟨p, gen, r.addr, seg, off, false, x⟩] } }
    (∀ bs, exec (.outboundReadCompletion e r.id (.data bs)) s =
      .next (answers (.data ⟨BitVec.ofNat 32 (leNat (bs.take r.len)), Tag.raw⟩))) ∧
    exec (.completionTimeout e r.id) s = .next (answers .bus))

/-- Inbound TLPs: one window entry holds the offset, and its target is in the flask or in the staging area; else writes are
dropped and reads are answered Unsupported Request; a request behind one that waits stays behind it, unless it is a relaxed write
and the entry lets it pass; AtomicOps are not supported (R283, R288–R290, R297). -/
def Claims.Inbound : Prop :=
  ∀ (s : State) (e : Ep) (off : BitVec 36) (ro : Bool), s.reaches e = true →
    exec (.inboundAtomicop e off ro) s = .next (s.emit (.completion e .unsupported [] ro)) ∧
    (s.phase.serves = true →
      (∀ bs, bs ≠ [] →
        (s.inHits e off.toNat = [] → exec (.inboundWriteTlp e off bs ro) s = .next (s.count (epReg Reg.pciHe0Drop e))) ∧
        (∀ x, s.inHits e off.toNat = [x] →
          (s.inTarget x off.toNat bs.length true = none →
            exec (.inboundWriteTlp e off bs ro) s = .next (s.count (epReg Reg.pciHe0Drop e))) ∧
          (∀ d a, s.inTarget x off.toNat bs.length true = some (d, a) →
            ((s.ep e).inq = [] → s.writeWaits d a bs.length = (false, s) →
              exec (.inboundWriteTlp e off bs ro) s = .next (s.hubWrite d .host a bs).1) ∧
            ((s.ep e).inq ≠ [] → (ro && x.roOk) = false → exec (.inboundWriteTlp e off bs ro) s =
              .next (s.setEp e { s.ep e with inq := (s.ep e).inq ++ [⟨d, BitVec.ofNat 48 a, some bs, bs.length, ro⟩] })))) ∧
        (∀ x y rest, s.inHits e off.toNat = x :: y :: rest → exec (.inboundWriteTlp e off bs ro) s = .fault .windowOverlap)) ∧
      (∀ len,
        (s.inHits e off.toNat = [] → exec (.inboundReadTlp e off len ro) s =
          .next ((s.count (epReg Reg.pciHe0Ur e)).emit (.completion e .unsupported [] ro))) ∧
        (∀ x y rest, s.inHits e off.toNat = x :: y :: rest → exec (.inboundReadTlp e off len ro) s = .fault .windowOverlap) ∧
        (∀ x d a, s.inHits e off.toNat = [x] → s.inTarget x off.toNat len.toNat false = some (d, a) →
          ((s.ep e).inq ≠ [] → exec (.inboundReadTlp e off len ro) s =
            .next (s.setEp e { s.ep e with inq := (s.ep e).inq ++ [⟨d, BitVec.ofNat 48 a, none, len.toNat, ro⟩] })) ∧
          ((s.ep e).inq = [] → s.readWaits d a = false →
            let r := s.hubRead d .host a len.toNat
            (r.2.2 = .ok → exec (.inboundReadTlp e off len ro) s = .next (r.2.1.emit (.completion e .success r.1 ro))) ∧
            (r.2.2 = .uncorrectable →
              exec (.inboundReadTlp e off len ro) s = .next (r.2.1.emit (.completion e .poisoned r.1 ro)))))))

/-- Window tables, commits, vectors, the owner's notification and the attention button (R288–R293, R300, R301, R308). -/
def Claims.EndpointRegisters : Prop :=
  (∀ (s : State) (m : Master) (e : Ep), s.phase.serves = true → s.arrives m = true →
    let x := s.ep e
    (s.isOwner m = true →
      exec (.winCommitIn m e) s = .next (s.setEp e (if x.commitIn || x.commitOut then { x with collide := true }
        else { x with commitIn := true, commitOut := false })) ∧
      exec (.winCommitOut m e) s = .next (s.setEp e (if x.commitIn || x.commitOut then { x with collide := true }
        else { x with commitIn := false, commitOut := true })) ∧
      (∀ (k : BitVec 11) (w : BitVec 3) (v : Word), (x.commitIn || x.commitOut) = false →
        (k.toNat < 1024 → Answers (exec (.winShadowWrite m e false k w v) s) fun t =>
          Tab.get 0 (t.ep e).inShadow (8 * k.toNat + w.toNat) = winValue false w.toNat v ∧
          ((s.reg (epReg Reg.winHe0Ctl e)).getLsbD 0 = false → (t.ep e).inActive = x.inActive) ∧
          (t.ep e).outShadow = x.outShadow) ∧
        Answers (exec (.winShadowWrite m e true k w v) s) fun t =>
          Tab.get 0 (t.ep e).outShadow (8 * k.toNat + w.toNat) = winValue true w.toNat v ∧
          ((s.reg (epReg Reg.winHe0Ctl e)).getLsbD 0 = false → (t.ep e).outActive = x.outActive) ∧
          (t.ep e).inShadow = x.inShadow)) ∧
    (s.isOwner m = false → ∀ i ∈ [Instr.winCommitIn m e, .winCommitOut m e], exec i s = .next (s.observed m)) ∧
    ((masterIndex m = e.toNat ∨ s.isOwner m = true) → x.noteHeld = false →
      Answers (exec (.onoteAck m e) s) fun t => (t.ep e).noteArmed = true ∧ t.mem = s.mem) ∧
    (masterIndex m ≠ e.toNat → s.isOwner m = false → exec (.onoteAck m e) s = .next (s.observed m))) ∧
  (∀ v : Word, (winValue false 1 v).toNat = max 12 (min 36 (v.toNat % 64)) ∧
    (winValue true 1 v).toNat = max 12 (min 32 (v.toNat % 64))) ∧
  (∀ (s : State) (e : Ep), ((s.ep e).commitIn || (s.ep e).commitOut) = true →
    Answers (exec (.commitPoint e) s) fun t =>
      let x := s.ep e
      (t.ep e).inActive = (if x.commitIn then x.inShadow else x.inActive) ∧
      (t.ep e).outActive = (if x.commitOut then x.outShadow else x.outActive) ∧
      (t.ep e).commitIn = false ∧ (t.ep e).commitOut = false ∧ (t.ep e).winGen = x.winGen + 1 ∧ t.mem = s.mem) ∧
  (∀ (s : State) (e : Ep) (k : BitVec 11) (v : Word), s.phase.serves = true → s.reaches e = true → (s.ep e).inq = [] →
    Tab.wf MsixEntry.reset (s.ep e).msix = true →
    let x (t : State) : MsixEntry := Tab.get MsixEntry.reset (t.ep e).msix k.toNat
    (Answers (exec (.msixVectorControlWrite e k 0 v) s) fun t =>
      (x t).addr.toNat = (x s).addr.toNat / 2 ^ 32 * 2 ^ 32 + v.toNat ∧ (x t).data = (x s).data ∧ (x t).masked = (x s).masked) ∧
    (Answers (exec (.msixVectorControlWrite e k 1 v) s) fun t =>
      (x t).addr.toNat = (x s).addr.toNat % 2 ^ 32 + v.toNat * 2 ^ 32 ∧ (x t).data = (x s).data) ∧
    (Answers (exec (.msixVectorControlWrite e k 2 v) s) fun t => (x t).addr = (x s).addr ∧ (x t).data = v) ∧
    (Answers (exec (.msixVectorControlWrite e k 3 v) s) fun t => (x t).addr = (x s).addr ∧ (x t).masked = v.getLsbD 0)) ∧
  (∀ (s : State) (ms : Nat),
    let n := ((s.reg Reg.pciAttn).toNat / 2 ^ 16 + 1) % 2 ^ 16
    (ms < 1000 → exec (.attentionButtonPress ms) s = .next s) ∧
    (1000 ≤ ms → Answers (exec (.attentionButtonPress ms) s) fun t =>
      (t.reg Reg.pciAttn).toNat / 2 ^ 16 = n ∧ (t.reg Reg.pciAttn).getLsbD 0 = true ∧ t.mem = s.mem))

/-- A host's lapse holds its flasks, its beat lets them run, and the hold's end drops what they had on the way (R340–R342). -/
def Claims.HostLiveness : Prop :=
  ∀ (s : State) (e : Ep),
    let l := s.live e
    (s.phase.serves = true → l.lapsed = false → Answers (exec (.hostLivenessLapse e) s) fun t =>
      t.live e = { l with lapsed := true, holdOver := false, lapses := if l.lapses = 255 then 255 else l.lapses + 1 } ∧
      ∀ f ∈ s.bound e, (s.flask f).st = .running → (t.flask f).st = .held) ∧
    (∀ m, s.phase.serves = true → s.arrives m = true → masterIndex m = e.toNat → l.lapsed = true → Answers (exec (.hostBeat m e) s) fun t =>
      t.live e = { l with lapsed := false, holdOver := false } ∧ (t.ep e).heldTo = s.fab.nextId ∧
      ∀ f ∈ s.bound e, (s.flask f).st = .held → (t.flask f).st = .running) ∧
    (l.lapsed = true → l.holdOver = false → Answers (exec (.hostHoldExpiry e) s) fun t =>
      (t.live e).holdOver = true ∧ t.fab.reqs = s.fab.reqs.filter fun r =>
        !(decide (space r.addr.toNat = 5) && decide (r.addr.toNat / 2 ^ 43 % 2 = e.toNat) && s.outHeld e r.dom))

/-- Endpoints as functions of their bus. -/
def Claims.EndpointFunctions : Prop := Claims.Configuration ∧ Claims.Functions

/-- What passes between hosts and the module. -/
def Obligations.HostTraffic : Prop := Claims.Outbound ∧ Claims.Inbound

/-- Window tables, interrupts, notification and host liveness. -/
def Claims.EndpointControl : Prop := Claims.EndpointRegisters ∧ Claims.HostLiveness

/-- Endpoints and their hosts. -/
def Obligations.EndpointsAndHosts : Prop := Claims.EndpointFunctions ∧ Claims.EndpointControl

/-! ### Block scorers (R238–R260) -/

/-- A request is asked for by a write of a whole line to its slot (R246), and by no other write; SCORER_SCORE, SCORER_RESET and
SCORER_REBUILD are its checks at the control channel, those of R249 in its order (R246–R249, R254). -/
def Claims.ScorerRequests : Prop :=
  (∀ (s : State) (fa : Nat) (bs : List Byte) (m : Mould) (r : ScorRec),
    let o := s.mem.ownerOf (faGranule fa)
    let f : FlaskId := BitVec.ofNat 8 o.toNat
    let a := 2 * 2 ^ 44 + (s.flask f).granules.idxOf (faGranule fa) * 2 ^ 28 + fa % 2 ^ 28
    let slot : BitVec 6 := BitVec.ofNat 6 ((a - r.sumBase.toNat) / 64)
    o.toNat < 256 → (s.flask f).st.leaving = false → (s.flask f).mould = some m → m.scors = [r] →
    (bs.length = 64 → r.sumBase.toNat ≤ a → a < r.sumBase.toNat + 4096 →
      (∀ y ∈ s.scor, ¬ (y.flask = f ∧ y.region = r.region ∧ y.slot = slot)) →
      (∀ y ∈ s.asks, ¬ (y.flask = f ∧ y.scor.region = r.region ∧ y.slot = slot)) →
      ∃ n, (s.noteWrite fa bs).asks = s.asks ++ [⟨f, r, slot, bs, n⟩]) ∧
    (bs.length ≠ 64 → (s.noteWrite fa bs).asks = s.asks)) ∧
  (∀ (s : State) (f : FlaskId) (region : BitVec 16) (slot : BitVec 6) (a : ScoreAsk),
    let dom := flaskDom f
    let r := a.scor
    let q := scoreRec a.line
    let op := q.op
    let row := if op = 1 then Instr.scorerReset f region slot else if op = 2 then .scorerRebuild f region slot
      else .scorerScore f region slot
    let b := State.tap { s with asks := s.asks.erase a } 7 dom
    let waits (t : State) (st : Status) (fit : Bool) (query : List Byte) : Prop :=
      exec row s = .next { t with scor := t.scor ++ [⟨f, r.region, slot, r, a.line, query, fit, st, List.range 16, a.seq⟩] }
    s.asks.find? (fun y => y.flask == f && y.scor.region == region && y.slot == slot) = some a →
    s.readWaits dom r.sumBase.toNat = false →
    (coreRef b f q.core = none →
      exec row s = .next (b.postFlask f 0x0109 St.accessFault 0xFFF (evData [r.region.toNat, slot.toNat]))) ∧
    (∀ core, coreRef b f q.core = some core →
      (listsFit b dom q r = false → waits b St.accessFault false []) ∧
      (listsFit b dom q r = true → r.mode ≠ 0 → waits b St.denseRegion true []) ∧
      (listsFit b dom q r = true → r.mode = 0 → q.legal r = false → waits b St.malformed true []) ∧
      (listsFit b dom q r = true → r.mode = 0 → q.legal r = true → op = 1 ∨ op = 2 → waits b St.success true []) ∧
      (listsFit b dom q r = true → r.mode = 0 → q.legal r = true → op = 0 →
        let n := q.group * vecBytes r.d
        let x := b.hubRead dom .hub q.query n
        ((3 ≤ space q.query ∨ 2 ^ 48 ≤ q.query ∨ inFlask b dom q.query n = false) → waits b St.accessFault true []) ∧
        (space q.query < 3 → q.query < 2 ^ 48 → inFlask b dom q.query n = true →
          (x.2.2 = .uncorrectable → waits x.2.1 St.uncorrectable true []) ∧
          (x.2.2 = .ok → (∀ g < q.group, ((x.1.drop (g * vecBytes r.d)).take (r.d / 32)).contains 0xFF = false) →
            waits x.2.1 St.success true x.1)))))

/-- A channel's results: what it finds stands in order of falling bound, ties in order of block (R251); its list is written,
then its token issued, in the channel's turn and while the hub holds fewer than 1,024 of the region's; the slot is free when the
last channel is done (R252, R253, R255, R260). -/
def Claims.ScorerAnswers : Prop :=
  (∀ (s : State) (q : ScoreReq) (ch : Nat), (scoreRec q.line).op = 0 →
    (s.scan q ch).2.found.Pairwise fun x y => f32Lt y.1 x.1 = true ∨ (f32Lt x.1 y.1 = false ∧ x.2 < y.2)) ∧
  (∀ (st : Status) (k : Nat) (x : ScanRes), st = St.success → x.found.length < 2 ^ 16 →
    let ws := listWords st k x
    let n := min k x.found.length
    ws.length = 16 + 2 * n ∧ (ws[0]?.map fun w => w.payload.toNat) = some n ∧
    ws[3]? = some ⟨if h : k < x.found.length then x.found[k].1 else negInf, Tag.f32⟩ ∧
    ∀ i e, x.found[i]? = some e → i < k → ws[16 + 2 * i]? = some ⟨e.1, Tag.f32⟩ ∧
      ws[17 + 2 * i]? = some ⟨BitVec.ofNat 32 e.2, Tag.int⟩) ∧
  (∀ (s : State) (q : ScoreReq) (channel : BitVec 4) (core : CoreId),
    let c := scoreRec q.line
    let ch := channel.toNat
    let k := c.want q.scor
    let dom := flaskDom q.flask
    let row := Instr.scorerScanComplete q.flask q.region q.slot channel
    let rest := { q with left := q.left.filter (· ≠ ch) }
    let left (t : State) : State :=
      { t with scor := if rest.left.isEmpty then t.scor.erase q else t.scor.map fun y => if y = q then rest else y }
    let token (t : State) (st : Status) : State := t.issueToken q.flask (q.region.extractLsb' 0 12) core (BitVec.ofNat 3 c.port)
      (tokenWord 3 (q.region.toNat % 4096) (q.slot.toNat + ch * 2 ^ 6 + scoreStatus st * 2 ^ 10))
    s.scor.find? (fun y => y.flask == q.flask && y.region == q.region && y.slot == q.slot) = some q → ch ∈ q.left →
    s.scanTurn q ch = true → s.readWaits dom q.scor.sumBase.toNat = false → s.heldScores q.flask q.region < 1024 → q.lists = true →
    coreRef s q.flask c.core = some core →
    (q.status ≠ St.success → ∀ t, t = left (s.hubTagged dom (c.result + ch * c.stride q.scor) (listWords q.status k ⟨[], 0, 0, .ok⟩)) →
      coreRef t q.flask c.core = some core → exec row s = .next (token t q.status)) ∧
    (q.status = St.success → (s.scan q ch).2.res = .ok → ∀ t,
      t = left ((s.scan q ch).1.hubTagged dom (c.result + ch * c.stride q.scor) (listWords St.success k (s.scan q ch).2)) →
      coreRef t q.flask c.core = some core → exec row s = .next (token t St.success)))

/-- SUMMARY_FILL: in its turn, a block that a write has completed gets its summary; where the keys are lost or a scale is
reserved it gets the record of R244, and the flask hears of it (R242–R244, R255). -/
def Claims.SummariesFill : Prop :=
  ∀ (s : State) (f : FlaskId) (region : BitVec 16) (head : BitVec 6) (block : BitVec 16) (x : Fill),
    let dom := flaskDom f
    let r := x.scor
    let b : State := { s with fills := s.fills.erase x }
    let a := r.areaAt x.head x.block
    let k := b.hubRead dom .hub a (128 * r.d)
    let c := k.2.1.hubRead dom .hub (a + 256 * r.d) (8 * r.d)
    let at' := r.recAt x.head x.block
    let failed := (c.2.1.hubWrite dom .hub at' (failedRecord r.d)).1.postFlask f 0x0108
      St.uncorrectable 0xFFF (evData [r.region.toNat, x.head, x.block])
    s.fills.find? (fun y => y.flask == f && y.scor.region == region && decide (y.head = head.toNat ∧ y.block = block.toNat)) = some x →
    s.chanBusy (dieOf s dom r.sumBase.toNat) (chanOf s dom at') x.seq = false → s.readWaits dom at' = false →
    s.writeWaits dom at' r.recBytes = (false, s) →
    (k.2.2 = .ok → c.2.2 = .ok → c.1.contains 0xFF = false →
      exec (.summaryFill f region head block) s = .next (c.2.1.hubWrite dom .hub at' (summary r.d k.1 c.1)).1) ∧
    (k.2.2 = .ok → c.2.2 = .ok → c.1.contains 0xFF = true → exec (.summaryFill f region head block) s = .next failed) ∧
    (k.2.2 = .ok → c.2.2 = .uncorrectable → exec (.summaryFill f region head block) s = .next failed) ∧
    (k.2.2 = .uncorrectable → c.2.2 = .ok ∨ c.2.2 = .uncorrectable → exec (.summaryFill f region head block) s = .next failed)

/-- The scorers. -/
def Obligations.BlockScorers : Prop := Claims.ScorerRequests ∧ Claims.ScorerAnswers ∧ Claims.SummariesFill

/-! ### Security (R416–R453) -/

/-- KEY_UNWRAP, KEY_CLEAR and KEY_ASSIGN (R425–R428). What an unwrapping gives is `Config.keyUnwrap`'s, of which nothing is known. -/
def Claims.KeySlots : Prop :=
  (∀ (s : State) (h : CmdHdr) (p : UnwrapP),
    let i := Instr.keyUnwrap h p
    let b := s.begun h i
    let t := b.slot p.target.toNat
    let w := b.slot p.wrap.toNat
    let read := b.readTrips [.keySlot (p.target.setWidth 9), .keySlot (p.wrap.setWidth 9)]
    let r := read.hubRead (ladleDom h.ladle) .hub (cmdAddr h.ladle p.blob) p.length.toNat
    let gives (key : List Byte) (inScope : KeyAttrs → Prop) : Prop :=
      (t.loaded = true → h.flags.getLsbD 8 = false → exec i s = .next (b.done h 0x00B0)) ∧
      (t.loaded = false ∨ h.flags.getLsbD 8 = true →
        (read.cmdRange h.ladle p.blob p.length.toNat = false → exec i s = .next (read.done h St.accessFault)) ∧
        (read.cmdRange h.ladle p.blob p.length.toNat = true → r.2.2 = .ok →
          (Config.keyUnwrap key r.1 = none → exec i s = .next ((r.2.1.count 0x600018).done h 0x00B4)) ∧
          (∀ plain, Config.keyUnwrap key r.1 = some plain →
            let k := KeyAttrs.read plain
            (k.type ≠ 1 ∧ k.type ≠ 2 ∨ 16 ≤ k.usage.toNat → exec i s = .next (r.2.1.done h 0x00B3)) ∧
            (k.usage.toNat < 16 → (k.type = 1 ∧ p.length = 56 ∧ k.usage.getLsbD 3 = false) ∨
                (k.type = 2 ∧ p.length = 88 ∧ (k.usage = 8 ∨ k.usage = 0)) →
              (k.scope.toNat ≠ t.assigned.toNat → exec i s = .next (r.2.1.done h 0x00B2)) ∧
              (k.scope.toNat = t.assigned.toNat → inScope k →
                exec i s = .next (((r.2.1.setSlot p.target.toNat ⟨k.type.extractLsb' 0 2, k.usage.extractLsb' 0 4, t.assigned,
                  k.label, leBytes (if k.type = 1 then 32 else 64) k.key.toNat⟩).mirrorSlot p.target.toNat).done h
                    St.success))))))
    s.starts h i = true → b.breakout = false → p.target.toNat < 512 →
    (p.wrap.toNat < 512 →
      ((b.slotLost p.target.toNat || b.slotLost p.wrap.toNat) = true → exec i s = .next (b.done h 0x0021)) ∧
      (b.slotLost p.target.toNat = false → b.slotLost p.wrap.toNat = false →
      (h.ladle = .admin ∨ (t.assigned = ladleDom h.ladle ∧ w.assigned = ladleDom h.ladle)) →
      (w.loaded = false → exec i s = .next (b.done h 0x00B1)) ∧
      (w.loaded = true → w.usage.getLsbD 0 = false → exec i s = .next (b.done h 0x00B3)) ∧
      (w.loaded = true → w.usage.getLsbD 0 = true →
        gives w.key fun k => 255 < w.assigned.toNat ∨ k.scope.toNat = w.assigned.toNat))) ∧
    (p.wrap = 0xFFFF → b.slotLost p.target.toNat = false →
      (h.ladle ≠ .admin → exec i s = .next (b.done h 0x00B2)) ∧
      (h.ladle = .admin → b.sec.duk = none → exec i s = .next (b.done h 0x00B7)) ∧
      (∀ d, h.ladle = .admin → b.sec.duk = some d → gives (leBytes 32 d.toNat) fun _ => True))) ∧
  (∀ (s : State) (h : CmdHdr) (slot : BitVec 16),
    let i := Instr.keyClear h slot
    let b := s.begun h i
    s.starts h i = true → slot.toNat < 512 → b.slotLost slot.toNat = false →
    ((b.slot slot.toNat).assigned = ladleDom h.ladle → exec i s =
      .next (((b.setSlot slot.toNat (KeySlot.empty (b.slot slot.toNat).assigned)).mirrorSlot slot.toNat).done h St.success)) ∧
    ((b.slot slot.toNat).assigned ≠ ladleDom h.ladle → exec i s = .next (b.done h 0x00B2))) ∧
  (∀ (s : State) (h : CmdHdr) (flask first count : BitVec 16),
    let i := Instr.keyAssign h flask first count
    let b := s.begun h i
    let fl := b.flask (BitVec.ofNat 8 flask.toNat)
    s.starts h i = true → first.toNat + count.toNat ≤ 512 →
    (flask = 0x100 ∨ flask = 0x1FF ∨ (flask.toNat < 256 ∧ fl.st ≠ .failed ∧ fl.st ≠ .free)) →
    Completes s i h St.success 0 [] fun e => ∀ n, e.slot n = if first.toNat ≤ n ∧ n < first.toNat + count.toNat
      then KeySlot.empty (BitVec.ofNat 9 flask.toNat) else b.slot n)

/-- CV_COMPUTE queues the request; an idle engine takes the next one and reads its key; CV_REQUEST_COMPLETE writes the check
value or compares it (R429, R430). -/
def Claims.CheckValues : Prop :=
  (∀ (s : State) (h : CmdHdr) (p : CvP),
    let i := Instr.cvCompute h p
    let b := s.begun h i
    let n := p.tagLen.toNat
    s.starts h i = true → p.mode.toNat ≤ 2 → (if p.mode = 2 then 16 ≤ n ∧ n ≤ 64 else 4 ≤ n ∧ n ≤ 16) → p.length.toNat ≤ 2 ^ 30 →
    (∀ st, b.cvKey h.ladle p = some st → exec i s = .next (b.done h st)) ∧
    (b.cvKey h.ladle p = none → b.cmdRange h.ladle p.src p.length.toNat = true → b.cmdRange h.ladle p.tagAddr n = true →
      (b.sec.cvq.countP fun q => decide (ladleDom q.ladle = ladleDom h.ladle)) < 64 →
      exec i s = .next { b with sec := { b.sec with cvq := b.sec.cvq ++ [⟨h.ladle, h.tag, p, h.flags.getLsbD 8⟩] } })) ∧
  (∀ (s : State) (engine : BitVec 4) (q : CvReq),
    s.breakout = false → (∀ r ∈ s.sec.cvRuns, r.engine ≠ engine) → s.sec.cvq = [q] → s.cvKey q.ladle q.p = none →
    exec (.cvRequestStart engine) s = .next { s.readTrip (.keySlot (q.p.slot.setWidth 9)) with sec := { s.sec with
      cvq := [], cvTurn := (ladleDom q.ladle).toNat, cvRuns := s.sec.cvRuns ++ [⟨engine, q, (s.slot q.p.slot.toNat).key⟩] } }) ∧
  (∀ (s : State) (engine : BitVec 4) (r : CvRun),
    let q := r.req
    let dom := ladleDom q.ladle
    let n := q.p.tagLen.toNat
    let at' := cmdAddr q.ladle q.p.tagAddr
    let d := s.hubRead dom .hub (cmdAddr q.ladle q.p.src) q.p.length.toNat
    let v := (leBytes 64 (Config.mac q.p.mode.toNat r.key ((if q.p.mode = 1 then leBytes 12 q.p.iv.toNat else []) ++ d.1)).toNat).take n
    let ends (t : State) (st : Status) : State := (({ t with sec := { t.sec with
      cvRuns := t.sec.cvRuns.filter fun x => !(x.engine == engine) } }).count 0x600044).complete q.ladle q.tag st 0 []
    s.breakout = false → s.sec.cvRuns = [r] → r.engine = engine →
    (d.2.2 = .uncorrectable → exec (.cvRequestComplete engine) s = .next (ends d.2.1 St.uncorrectable)) ∧
    (d.2.2 = .ok → q.verify = false → d.2.1.writeWaits dom at' n = (false, d.2.1) → (d.2.1.hubWrite dom .hub at' v).2 = .ok →
      exec (.cvRequestComplete engine) s = .next (ends (d.2.1.hubWrite dom .hub at' v).1 St.success)) ∧
    (d.2.2 = .ok → q.verify = true →
      let w := d.2.1.hubRead dom .hub at' n
      w.2.2 = .ok → (w.1 = v → exec (.cvRequestComplete engine) s = .next (ends w.2.1 St.success)) ∧
      (w.1 ≠ v → exec (.cvRequestComplete engine) s = .next (ends (w.2.1.count 0x600048) 0x00B5))))

/-- ATTEST, MOULD_KEY_SET, DEBUG_KEY_SET, DUK_PROVISION and DUK_ROTATE (R416–R423, R431, R432, R447). -/
def Claims.Identity : Prop :=
  (∀ (s : State) (h : CmdHdr) (nonce : BitVec 256) (dest : BitVec 64) (flask : BitVec 16),
    let i := Instr.attest h nonce dest flask
    let b := s.begun h i
    let f := match ladleFlask h.ladle with
      | none => flask.toNat
      | some f => f.toNat
    let fl := b.flask (BitVec.ofNat 8 f)
    let v := b.readTrips ([.fuseShadow, .ownerRecord, .pairEpoch] ++ if f < 256 then [.mouldRoot (BitVec.ofNat 8 f)] else [])
    let body := v.report nonce f
    let w := (v.tick 8).hubWrite (ladleDom h.ladle) .hub (cmdAddr h.ladle dest)
      (body ++ leBytes 64 (Config.edSign v.idSeed (sha512 body)).toNat)
    s.starts h i = true → b.breakout = false → (f < 256 ∨ f = 0xFFFF) → (f < 256 → fl.st ≠ .failed ∧ fl.st ≠ .free) →
    (b.cmdRange h.ladle dest 320 = true → w.2 = .ok → exec i s = .next (w.1.done h St.success)) ∧
    (b.cmdRange h.ladle dest 320 = false → exec i s = .next (b.done h St.accessFault))) ∧
  (∀ (s : State) (h : CmdHdr) (keyId clear : Byte) (k : BitVec 256),
    let i := Instr.mouldKeySet h keyId clear k
    let b := s.begun h i
    let n := keyId.toNat
    s.starts h i = true → n < 16 →
    (clear = 0 → Completes s i h St.success 0 [] fun e =>
      (∀ j, j < 8 → e.reg (0x600100 + 32 * n + 4 * j) = k.extractLsb' (32 * j) 32) ∧
      (∀ m, m < 16 → (e.reg 0x600300).getLsbD m = ((b.reg 0x600300).getLsbD m || decide (m = n)))) ∧
    (clear = 1 → Completes s i h St.success 0 [] fun e =>
      (∀ j, j < 8 → e.reg (0x600100 + 32 * n + 4 * j) = 0) ∧
      (∀ m, m < 16 → (e.reg 0x600300).getLsbD m = ((b.reg 0x600300).getLsbD m && decide (m ≠ n))))) ∧
  (∀ (s : State) (h : CmdHdr) (clear : Byte) (k : BitVec 256),
    let i := Instr.debugKeySet h clear k
    s.starts h i = true →
    (clear = 0 → Completes s i h St.success 0 [] fun e =>
      (∀ j, j < 8 → e.reg (0x600400 + 4 * j) = k.extractLsb' (32 * j) 32) ∧ e.reg 0x600420 = 1) ∧
    (clear = 1 → Completes s i h St.success 0 [] fun e => (∀ j, j < 8 → e.reg (0x600400 + 4 * j) = 0) ∧ e.reg 0x600420 = 0)) ∧
  (∀ (s : State) (h : CmdHdr) (off : Word),
    let i := Instr.dukProvision h off
    let b := s.begun h i
    let r := b.hubRead 0x100 .hub (stagingBase + off.toNat) 128
    let signed := Config.edVerify (Config.rootKey 0) (sha512 (r.1.take 64)) (BitVec.ofNat 512 (leNat ((r.1.drop 64).take 64)))
    let duk := unwrap256 r.2.1.dpk ((r.1.drop 24).take 40)
    s.starts h i = true →
    (b.sec.duk.isSome = true → exec i s = .next (b.done h St.wrongState)) ∧
    (b.sec.duk = none → off.toNat + 128 ≤ 2 ^ 28 → r.2.2 = .ok → leNat (r.1.take 4) = 0x56504C4F →
      leNat ((r.1.drop 4).take 4) = 0 →
      ((r.1.drop 8).take 16 ≠ r.2.1.ident → exec i s = .next (r.2.1.done h 0x00B2)) ∧
      ((r.1.drop 8).take 16 = r.2.1.ident →
        (signed = false → exec i s = .next (r.2.1.done h St.badSignature)) ∧
        (signed = true → duk = none → exec i s = .next (r.2.1.done h 0x00B4)) ∧
        (∀ k, signed = true → duk = some k →
          Completes s i h St.success 0 [] fun e => e.sec.duk = some k ∧ e.mem = r.2.1.mem)))) ∧
  (∀ (s : State) (h : CmdHdr) (off : Word),
    let i := Instr.dukRotate h off
    let b := s.begun h i
    let r := b.hubRead 0x100 .hub (stagingBase + off.toNat) 40
    s.starts h i = true →
    (b.sec.duk = none → exec i s = .next (b.done h 0x00B7)) ∧
    (∀ old, b.sec.duk = some old → off.toNat + 40 ≤ 2 ^ 28 → r.2.2 = .ok →
      (unwrap256 old r.1 = none → exec i s = .next (r.2.1.done h 0x00B4)) ∧
      (∀ k, unwrap256 old r.1 = some k → Completes s i h St.success 0 [] fun e => e.sec.duk = some k ∧ e.mem = r.2.1.mem)))

/-- A breakout is raised by command or by a trigger, and cleared by command; each begin and each escalation adds one record
(R442–R446). -/
def Claims.Breakouts : Prop :=
  (∀ (s : State) (h : CmdHdr) (level : Byte),
    let i := Instr.breakoutRaise h level
    let b := s.begun h i
    s.starts h i = true → 1 ≤ level.toNat → level.toNat ≤ 3 →
    Completes s i h St.success 0 [] fun e => e.boLevel = max b.boLevel level.toNat ∧ e.breakout = true ∧
      (level.toNat ≤ b.boLevel → e.sec.records = b.sec.records) ∧
      (b.boLevel < level.toNat → ∃ time, e.sec.records = b.sec.records ++ [(level, 7, time)])) ∧
  (∀ (s : State) (h : CmdHdr),
    let i := Instr.breakoutClear h
    let b := s.begun h i
    let v := b.reg Reg.secBoStat
    s.starts h i = true →
    (b.boLevel = 3 → exec i s = .next (b.done h St.wrongState)) ∧
    (b.boLevel ≠ 3 → v.toNat / 8 % 2 ^ 8 ≠ 0 → exec i s = .next (b.done h 0x00B8)) ∧
    (b.boLevel = 1 ∨ b.boLevel = 2 → v.toNat / 8 % 2 ^ 8 = 0 →
      Answers (exec i s) fun t => t.boLevel = 0 ∧ t.breakout = false ∧ t.sec.records = b.sec.records)) ∧
  (∀ (s : State) (trigger : BitVec 3),
    let t := trigger.toNat
    let v := s.reg Reg.secBoStat
    let bit := BitVec.ofNat 32 (2 ^ (t + 3))
    trigger ≠ 7 → s.phase ≠ .off →
    exec (.breakoutTrigger trigger true) s = .next ((s.setReg Reg.secBoStat (v ||| bit)).raiseBreakout t (s.triggerLevel t)) ∧
    exec (.breakoutTrigger trigger false) s = .next (s.setReg Reg.secBoStat (v &&& ~~~bit))) ∧
  (∀ (s : State) (trigger level : Nat), s.boLevel < 2 → 2 ≤ level → level ≤ 3 → ∀ n,
    ((s.raiseBreakout trigger level).slot n).assigned.toNat < 256 → ((s.raiseBreakout trigger level).slot n).loaded = false)

/-- OL_CHAL answers a challenge of 64 bytes, with a nonce of the random source; OL_RESP unlocks debug for its scope where R448
grants it, and counts a refusal otherwise, the third of which locks the port until DEBUG_LOCKOUT_EXPIRY (R447–R449). -/
def Claims.DebugUnlock : Prop :=
  (∀ (s : State) (scope : Byte), (s.reg 0x600010).getLsbD 0 = true → s.sec.locked = false → scope = 1 ∨ scope = 2 →
    let n : BitVec 256 := BitVec.ofNat 256 (s.random 4)
    let bs := leBytes 32 n.toNat ++ s.ident ++ leBytes 4 s.sec.unlocks ++ [scope] ++ List.replicate 11 0
    Answers (exec (.olChal scope) s) fun t => t.sec.chal = some ⟨scope, n, false⟩ ∧ t.out = s.out ++ [.jtag bs] ∧ bs.length = 64) ∧
  (∀ (s : State) (keyIndex scope : Byte) (sig : BitVec 512) (age : Nat),
    let row := Instr.olResp keyIndex scope sig age
    (s.reg 0x600010).getLsbD 0 = true →
    (∀ c, s.sec.chal = some c → age < 60000 → c.scope = scope → c.used = false →
      (keyIndex = 0 ∨ keyIndex = 1 ∧ (s.reg 0x600420).getLsbD 0 = true) →
      (scope = 1 ∨ scope = 2 ∧ keyIndex = 0 ∧ (s.reg 0x600010).getLsbD 1 = true) →
      Config.edVerify (s.debugPub keyIndex) (sha512 (s.chalBytes scope c.nonce)) sig = true →
      Answers (exec row s) fun t => t.sec.unlocked.toNat = max s.sec.unlocked.toNat scope.toNat ∧ t.sec.debugEver = true ∧
        t.sec.chal = some { c with used := true } ∧ t.sec.unlocks = (s.sec.unlocks + 1) % 2 ^ 32 ∧
        (scope = 2 → ∀ n, (t.slot n).assigned.toNat < 256 → (t.slot n).loaded = false)) ∧
    (s.chalSigned keyIndex sig = false ∨ 60000 ≤ age ∨ s.sec.chal = none → s.sec.fails < 3 →
      Answers (exec row s) fun t => t.sec.unlocked = s.sec.unlocked ∧
        t.sec.locked = (s.sec.locked || decide (s.sec.fails = 2)) ∧ t.sec.fails = (if s.sec.fails = 2 then 0 else s.sec.fails + 1) ∧
        t.reg 0x600014 = satInc (s.reg 0x600014))) ∧
  (∀ s, exec .debugLockoutExpiry s = .next { s with sec := { s.sec with locked := false } })

/-- Keys, check values and identity. -/
def Obligations.KeysAndIdentity : Prop := Claims.KeySlots ∧ Claims.CheckValues ∧ Claims.Identity

/-- Breakout and debug unlock. -/
def Obligations.BreakoutAndDebug : Prop := Claims.Breakouts ∧ Claims.DebugUnlock
/-! ### Ownership (R433–R441) -/

/-- A transition that nothing delays: the new owner is recorded, the admin ladle starts a new generation with its ring zeroed,
and the claims are gone (R438, R440). -/
def Sys2Proof.Machine.State.isOwnedBy (s t : State) (m : Master) (nonce : BitVec 16) : Prop :=
  t.own.valid = true ∧ t.own.master = m ∧ t.own.nonce = nonce ∧ t.own.changes = s.own.changes + 1 ∧ t.own.claims = [] ∧
    t.own.hand = none ∧ t.own.electing = false ∧ t.fw.admin.gen = s.fw.admin.gen + 1 ∧ t.fw.admin.cmds = [] ∧ t.fw.admSq = []

/-- OWN_CLAIM, ELECTION_WINDOW_CLOSE, OWN_HANDOVER, OWN_ACCEPT and HANDOVER_EXPIRY; what a master asks for while the security core
restarts is queued (R435–R438, R441). -/
def Claims.OwnersChange : Prop :=
  (∀ (s : State) (m : Master) (priority : Byte) (nonce : BitVec 16) (epoch : Word),
    let p := min priority.toNat (s.ownCap m)
    let rest := s.own.claims.filter fun c => decide (c.1 ≠ m)
    s.ownWaits = false → s.arrives m = true → (m = .peer → serialOlder epoch s.twin.epoch = false) →
    Answers (exec (.ownClaim m priority nonce epoch) s) fun t =>
      t.own.claims = (if p = 0 then rest else rest ++ [(m, BitVec.ofNat 8 p, nonce)]) ∧
      t.own.valid = s.own.valid ∧ t.mem = s.mem ∧ t.regs = s.regs ∧
      (p ≠ 0 → s.own.valid = false → s.own.holding = false → s.own.next = none → t.own.electing = true) ∧
      (s.own.valid = true → t.own.electing = s.own.electing)) ∧
  (∀ (cs : List (Master × Byte × BitVec 16)) c, bestClaim cs = some c →
    c ∈ cs ∧ ∀ x ∈ cs, x.2.1.toNat < c.2.1.toNat ∨ (x.2.1 = c.2.1 ∧ masterIndex c.1 ≤ masterIndex x.1)) ∧
  (∀ (s : State), s.own.electing = true → s.ownWaits = false →
    ((∀ c ∈ s.own.claims, s.masterLive c.1 = false) →
      exec .electionWindowClose s = .next { s with own := { s.own with electing := false } }) ∧
    (∀ c, bestClaim (s.own.claims.filter fun c => s.masterLive c.1) = some c → s.fw.admin.cmds = [] → s.fw.act = none →
      s.fw.admin.sqHead = s.fw.admin.sqTail → Answers (exec .electionWindowClose s) fun t => s.isOwnedBy t c.1 c.2.2)) ∧
  (∀ (s : State) (m : Master) (target : BitVec 2) (nonce : BitVec 16), s.ownWaits = false → s.arrives m = true →
    (s.isOwner m = true → exec (.ownHandover m target nonce) s =
      .next { s with own := { s.own with hand := some (masterOf target, nonce) } }) ∧
    (s.isOwner m = false → exec (.ownHandover m target nonce) s = .next (s.observed m)) ∧
    (s.own.hand = some (m, nonce) → s.fw.admin.cmds = [] → s.fw.act = none → s.fw.admin.sqHead = s.fw.admin.sqTail →
      Answers (exec (.ownAccept m nonce) s) fun t => s.isOwnedBy t m nonce) ∧
    (s.own.hand ≠ some (m, nonce) → exec (.ownAccept m nonce) s = .next (s.observed m)) ∧
    (s.own.hand.isSome = true →
      exec .handoverExpiry s = .next { s with own := { s.own with hand := none, handFailed := true } })) ∧
  (∀ (s : State) (m : Master) (priority : Byte) (nonce : BitVec 16) (epoch : Word) (target : BitVec 2),
    let queues (a : OwnAsk) : State := { s with own := { s.own with queued := s.own.queued ++ [a] } }
    s.phase.serves = true → s.arrives m = true → s.fw.down.contains .security = true →
    ((m = .peer → serialOlder epoch s.twin.epoch = false) →
      exec (.ownClaim m priority nonce epoch) s = .next (queues (.claim m priority nonce))) ∧
    exec (.ownHandover m target nonce) s = .next (queues (.handover m target nonce)) ∧
    exec (.ownAccept m nonce) s = .next (queues (.accept m nonce)))

/-- OWNER_LOST, OWNER_HOLD_EXPIRY, MCTP_HEARTBEAT and MGMT_LIVENESS_LAPSE (R433, R434, R439, R441). -/
def Claims.OwnersAreLost : Prop :=
  (∀ s : State, s.own.valid = true → s.own.holding = false → s.masterLive s.own.master = false →
    Answers (exec .ownerLost s) fun t => t.own = { s.own with holding := true, hand := none } ∧ t.mem.lp = s.mem.lp ∧
      t.fw.logNext ≠ s.fw.logNext) ∧
  (∀ s : State, s.own.holding = true → s.ownWaits = false →
    (s.own.valid = true → s.masterLive s.own.master = true → exec .ownerHoldExpiry s = .next { s with own := { s.own with holding := false } }) ∧
    (s.own.valid = false ∨ s.masterLive s.own.master = false → Answers (exec .ownerHoldExpiry s) fun t => t.own.valid = false ∧ t.own.holding = false ∧
      t.own.claims = s.own.claims ∧ (s.own.claims ≠ [] → s.own.next = none → t.own.electing = true))) ∧
  (∀ s : State, Answers (exec .mctpHeartbeat s) fun t => t.own.mgmtLive = true ∧ t.own.valid = s.own.valid ∧
    t.own.holding = (s.own.holding && !(s.own.valid && { s with own := { s.own with mgmtLive := true } }.masterLive s.own.master))) ∧
  (∀ s : State, exec .mgmtLivenessLapse s = .next { s with own := { s.own with mgmtLive := false } })

/-- Ownership of the module. -/
def Obligations.Ownership : Prop := Claims.OwnersChange ∧ Claims.OwnersAreLost

/-! ### Twins (R454–R477) -/

/-- TWIN_PAIR, TWIN_POLICY, TWIN_READMIT and TWIN_UNPAIR (R458–R461, R470, R474, R475). -/
def Claims.TwinCommands : Prop :=
  (∀ (s : State) (h : CmdHdr) (off : Word) (trains : Bool),
    let i := Instr.twinPair h off trains
    let b := s.begun h i
    let r := b.hubRead 0x100 .hub (stagingBase + off.toNat) 192
    s.starts h i = true →
    (b.twin.st ≠ .unpaired → exec i s = .next (b.done h St.wrongState)) ∧
    (b.twin.st = .unpaired → off.toNat + 192 ≤ 2 ^ 28 → r.2.2 = .ok →
      (∀ st, pairBad b.ident r.1 = some st → exec i s = .next (r.2.1.done h st)) ∧
      (pairBad b.ident r.1 = none →
        (b.pairSigned r.1 = false → exec i s = .next (r.2.1.done h St.badSignature)) ∧
        (b.pairSigned r.1 = true → b.pairKey r.1 = none → exec i s = .next (r.2.1.done h 0x00B4)) ∧
        (∀ k, b.pairSigned r.1 = true → b.pairKey r.1 = some k →
          (trains = false ∨ r.2.1.twinDead = true → exec i s = .next (r.2.1.done h 0x00C0)) ∧
          (trains = true → r.2.1.twinDead = false → Answers (exec i s) fun t =>
            t.twin.st = .pairing ∧ t.twin.kp = some k ∧ t.twin.link = true ∧ t.twin.pairTag = some h.tag ∧
            t.twin.roleB = pairRoleB b.ident r.1 ∧ t.out = r.2.1.out ++ [.twin 1 0 (.hello b.pubKey .pairing)
              (t.linkTag t.twin.roleB 1 0 (.hello b.pubKey .pairing))]))))) ∧
  (∀ (s : State) (h : CmdHdr) (p : TwinPolicyP) (f : FlaskId),
    let i := Instr.twinPolicy h p
    let b := s.begun h i
    s.starts h i = true → p.flask.toNat = f.toNat →
    (b.twin.st = .unpaired → exec i s = .next (b.done h 0x00C2)) ∧
    (b.twin.st ≠ .unpaired → (b.flask f).st ≠ .failed → (b.flask f).st ≠ .free → p.host.toNat ≤ 2 →
      (p.keySlot.toNat < 512 ∨ p.keySlot = 0xFFFF) → (p.area.toNat < 16 ∨ p.area = 0xFF) →
      exec i s = .next (((b.setFlask f { b.flask f with policy := some p }).mirrorNow (.flask f)).done h St.success))) ∧
  (∀ (s : State) (h : CmdHdr),
    let i := Instr.twinReadmit h
    let b := s.begun h i
    s.starts h i = true → b.twin.st = .survivor →
    (b.twin.peer ≠ some .fenced ∨ b.twin.link = false → exec i s = .next (b.done h St.wrongState)) ∧
    (b.twin.peer = some .fenced → b.twin.link = true → b.twin.readmitTag = none → b.twin.kp.isSome = true → Answers (exec i s) fun t =>
      t.twin.readmitTag = some h.tag ∧ t.out = b.out ++ [.twin b.twin.epoch b.twin.seqOut (.hello b.pubKey .readmitting)
        (b.linkTag b.twin.roleB b.twin.epoch b.twin.seqOut (.hello b.pubKey .readmitting))])) ∧
  (∀ (s : State) (h : CmdHdr),
    let i := Instr.twinUnpair h
    let b := s.begun h i
    s.starts h i = true →
    (b.twin.st = .unpaired → exec i s = .next (b.done h St.wrongState)) ∧
    (b.twin.st ≠ .unpaired → Completes s i h St.success 0 [] fun e => e.twin = { Twin.reset with cable := b.twin.cable } ∧ e.mem = b.mem))

/-- TWIN_MESSAGE_RECEIVE: only a message with the right tag and number is acted on (R455–R457, R459, R464, R472). -/
def Claims.TwinMessages : Prop :=
  ∀ (s : State) (m : TwinMsg),
    let row := Instr.twinMessageReceive m
    let own : Word := if s.twin.st = .pairing then 1 else s.twin.epoch
    let seen : State := { s with twin := { s.twin with peerEpoch := m.epoch, seqIn := some m.seq.toNat } }
    s.phase.serves = true → s.twin.st ≠ .unpaired → s.twin.kp.isSome = true → s.twin.link = true → s.breakout = false →
    s.windowWaits m.body = (false, s) →
    (s.twin.accepts m = false → exec row s = .next (s.count Reg.twinRxBad)) ∧
    (s.tagged m = false → exec row s = .next (s.count Reg.twinRxBad)) ∧
    (s.tagged m = true → s.twin.accepts m = true → m.epoch = own →
      (seen.openBody m = none → exec row s = .next (seen.count Reg.twinRxBad)) ∧
      (s.twin.st = .suspect → m.body = .heartbeat → exec row s = .next { seen with twin := { seen.twin with st := .paired } }) ∧
      (s.twin.st = .paired → ∀ x, seen.openBody m = some (.mirror x) → exec row s = .next { seen with twin := { seen.twin with
        mirror := seen.twin.mirror.filter (fun y => itemSel y != itemSel x) ++ [x] } }) ∧
      (s.twin.st = .paired → ∀ f a bs, seen.openBody m = some (.windowWrite f a bs) →
        exec row s = .next (seen.hubWrite 0x100 .hub (2 * 2 ^ 44 + a.toNat) bs).1) ∧
      (s.twin.st = .paired → ∀ a n, m.body = .windowRead a n →
        let r := seen.hubRead 0x100 .hub (2 * 2 ^ 44 + a.toNat) n.toNat
        exec row s = .next (r.2.1.twinSend (.readResp (seen.windowFlask a) (if r.2.2 = .ok then r.1 else [])))) ∧
      (s.twin.st = .pairing → ∀ pub peer, m.body = .hello pub peer → ∀ tag, s.twin.pairTag = some tag →
        (seen.peerKnown pub = true →
          Answers (exec row s) fun t => t.twin.st = .paired ∧ t.twin.epoch = 1 ∧ t.twin.pairTag = none) ∧
        (seen.peerKnown pub = false → Answers (exec row s) fun t => t.twin.st = .unpaired ∧ t.twin.kp = none))) ∧
    (s.tagged m = true → s.twin.accepts m = true → m.epoch ≠ own → serialOlder own m.epoch = true → s.twin.st ≠ .pairing → m.body = .heartbeat →
      Answers (exec row s) fun t => t.twin.st = .fenced) ∧
    (s.tagged m = true → s.twin.accepts m = true → m.epoch ≠ own → serialOlder own m.epoch = false → s.twin.st = .joining →
      ∀ pub peer, m.body = .hello pub peer → Answers (exec row s) fun t => t.twin.st = .survivor ∧ t.twin.peer = some peer)

/-- What a module does with its link and about a silent peer (R462–R467, R475, R548). -/
def Claims.TwinEvents : Prop :=
  (∀ s : State, ((s.twin.st = .paired ∨ s.twin.st = .fenced) → (!s.fw.down.contains .scheduler || s.fw.act.isSome) = true →
      s.breakout = false → exec .twinHeartbeatSend s = .next (s.twinSend .heartbeat)) ∧
    (s.twin.st = .suspect ∨ s.twin.st = .split → exec .twinHeartbeatSend s = .next s) ∧
    (∀ x, s.twin.st = .paired → s.breakout = false → exec (.mirrorSend x) s = .next (s.twinSend (.mirror (s.mirrorItem x)))) ∧
    (∀ b, s.twin.kp.isSome = true → s.twin.link = true → s.twin.st = .paired →
      let r := s.readTrip .pairEpoch
      let x := s.sealBody s.twin.epoch s.twin.seqOut b
      s.twinSend b = { r with out := r.out ++ [.twin s.twin.epoch s.twin.seqOut x (s.linkTag s.twin.roleB s.twin.epoch s.twin.seqOut x)]
                              twin := { s.twin with seqOut := s.twin.seqOut + 1 } }) ∧
    (s.twin.st = .paired → exec .twinPulseLapse s =
      .next ((s.setTwin { s.twin with st := .suspect }).postOwner 0x0902 St.success 0xFFF [])) ∧
    (s.twin.st = .suspect → exec .twinUnconfirmedTick s = .next (s.postOwner 0x0903 St.success 0xFFF [])) ∧
    (s.twin.st ≠ .suspect → exec .twinUnconfirmedTick s = .next s)) ∧
  (∀ s : State, s.phase.serves = true → s.fw.down.contains .management = false → (s.twin.st = .suspect ∨ s.twin.st = .split ∨ s.twin.st = .joining) →
    exec .twinMgmtQuery s = .next (s.emit (.mgmt [BitVec.ofNat 8 (s.reg Reg.twinPeerEid).toNat, 0x7E, 0x10])) ∧
    (∀ a, (∀ x, a ≠ .inService x) → exec (.twinMgmtAnswer a) s = .next s.declare) ∧
    (s.twin.st = .suspect → ∀ x, exec (.twinMgmtAnswer (.inService x)) s =
      .next ((s.setTwin { s.twin with st := .split }).postOwner 0x0904 St.success 0xFFF []))) ∧
  (∀ (s : State) (id : Word), s.phase.serves = true →
    (s.twin.st.asks = true → id = s.reg Reg.twinPeerId → exec (.twinConfirm .mgmt id) s = .next s.declare) ∧
    (s.twin.st.asks = true → id ≠ s.reg Reg.twinPeerId → exec (.twinConfirm .mgmt id) s = .next s) ∧
    (∀ m, m ≠ .mgmt → s.isOwner m = false → exec (.twinConfirm m id) s = .next (s.observed m))) ∧
  (∀ s : State, s.declare.twin.st = .survivor ∧ s.declare.twin.epoch = nextEpoch s.twin.epoch ∧ s.declare.twin.peer = none ∧
    s.declare.twin.restarts = s.restartList ∧ s.declare.reg Reg.twinDeclares = s.reg Reg.twinDeclares + 1) ∧
  (∀ s : State, s.phase ≠ .off → s.fw.down.contains .management = false → exec .peerManagementQuery s =
    .next (s.emit (.mgmt [0x7E, 0x10, phaseCode s.phase, twinCode s.twin.st, if s.fw.down.contains .scheduler then 0 else 1]))) ∧
  (∀ s : State, s.phase.serves = true →
    (s.twin.st ≠ .unpaired → s.twinDead = false → s.twin.kp.isSome = true → Answers (exec (.twinLinkChange true) s) fun t =>
      t.twin.link = true ∧ t.twin.lanes = 0xFFFF ∧ ∃ b, t.out = s.out ++ [b]) ∧
    (s.twin.pairTag = none → ∀ row ∈ [Instr.twinLinkChange false, .twinCablePresence false], Answers (exec row s) fun t =>
      t.twin.link = false ∧ t.twin.lanes = 0 ∧ t.twin.reads = [] ∧ t.twin.st = s.twin.st) ∧
    exec (.twinCablePresence true) s = .next { s with twin := { s.twin with cable := true } })

/-- TWIN_FLASK_RESTART: the next flask of the list is created, cast and told of; or what it lacks is told (R470). -/
def Claims.TwinRestarts : Prop :=
  ∀ (s : State) (data : Option IngotData) (old : FlaskId) (rest : List FlaskId) (m : Mirrored),
    let b : State := { s with twin := { s.twin with restarts := rest } }
    s.twin.restarts = old :: rest → s.twin.st = .survivor → s.phase.serves = true → s.fw.down.contains .scheduler = false →
    s.fw.act = none → s.breakout = false → b.mirrored old = some m →
    (∀ e, b.restart old m data = .error e → exec (.twinFlaskRestart data) s =
      .next (b.postOwner 0x0908 St.success 0xFFF (evData [old.toNat, e.code]))) ∧
    (∀ f t, b.restart old m data = .ok (f, t) → exec (.twinFlaskRestart data) s =
      .next (t.postOwner 0x0907 St.success 0xFFF (evData [old.toNat, f.toNat])) ∧ (b.flask f).st = .free)

/-- The owner's commands about a twin pair, and restarts. -/
def Obligations.TwinPairs : Prop := Claims.TwinCommands ∧ Claims.TwinRestarts

/-- Messages of the peer, and the events of its link. -/
def Obligations.TwinLinks : Prop := Claims.TwinMessages ∧ Claims.TwinEvents

/-! ### Ingots (R478–R496) -/

/-- INGOT_AREA, INGOT_SETUP, INGOT_TAKE and INGOT_RESTORE (R478–R483, R490–R494). -/
def Claims.IngotCommands : Prop :=
  (∀ (s : State) (h : CmdHdr) (p : AreaP) (port : Port),
    let i := Instr.ingotArea h p
    let b := s.begun h i
    let d := b.drive port
    s.starts h i = true → p.port.toNat = port.toNat → p.role.toNat ≤ 1 → p.resv = 0 → p.storeUnits.toNat ≤ 2 ^ 26 →
    d.unsupported = false → d.ready = true →
    (p.start.toNat + p.blocks.toNat ≤ d.blocks → b.rangeTaken port p.start.toNat p.blocks.toNat = false →
      2 + (p.storeUnits.toNat + 63) / 64 + 16 * p.storeUnits.toNat ≤ p.blocks.toNat →
      ∀ n, n < 16 → b.area n = none → (∀ k < n, (b.area k).isSome = true) →
      Completes s i h St.success 0 (leBytes 8 n) fun e => e.area n = some
        ⟨port, p.role == 1, p.storeUnits.toNat, p.start.toNat, p.blocks.toNat, b.deviceId, [], 0⟩) ∧
    (d.blocks < p.start.toNat + p.blocks.toNat → exec i s = .next (b.done h 0x00A1))) ∧
  (∀ (s : State) (h : CmdHdr) (p : IngotSetupP) (f : FlaskId),
    let i := Instr.ingotSetup h p
    let b := s.begun h i
    s.starts h i = true → p.flask.toNat = f.toNat → ((b.flask f).st = .empty ∨ (b.flask f).st.isCast = true) →
    (b.flask f).ingot = false →
    (setupLegal p = false → exec i s = .next (b.done h St.malformed)) ∧
    (setupLegal p = true → (∀ e, b.trySetup f p = .error e → exec i s = .next (b.done h e)) ∧
      (∀ t, b.trySetup f p = .ok t → exec i s = .next (t.done h St.success) ∧ (t.flask f).setup = some p))) ∧
  (∀ (s : State) (h : CmdHdr) (flask : BitVec 16) (f : FlaskId),
    let i := Instr.ingotTake h flask
    let b := s.begun h i
    let fl := b.flask f
    let busy := fl.ingot || b.castUnderWay f || b.ing.waiting.any fun x => x.1 == f
    let read (p : IngotSetupP) := b.readTrip (.keySlot (p.keySlot.setWidth 9))
    s.starts h i = true → (h.ladle = .admin ∧ flask.toNat = f.toNat) ∨ (∃ n, h.ladle = .flask f n) →
    (fl.st ≠ .failed → fl.setup = none → exec i s = .next (b.done h 0x00D0)) ∧
    (∀ p, fl.setup = some p → fl.st.isCast = true →
      (busy = true → exec i s = .next { b with ing := { b.ing with waiting := b.ing.waiting ++ [(f, h.ladle, h.tag)] } }) ∧
      (busy = false → b.ingotKey p.keySlot = none → exec i s = .next ((read p).done h 0x00D4)) ∧
      (busy = false → ∀ key image shadow, b.ingotKey p.keySlot = some key →
        b.takeGranules fl p.shadowPct.toNat = some (image, shadow) → Answers (exec i s) fun t =>
          (t.flask f).ingot = true ∧ t.ing.takes = b.ing.takes ++ [⟨f, h.ladle, h.tag, image, shadow, key, none, ⟨[], []⟩, [], 0⟩] ∧
          t.mem.owner = b.mem.owner ∧ ∀ g ∈ image ++ shadow, t.granuleReserved g = true))) ∧
  (∀ (s : State) (h : CmdHdr) (flask : BitVec 16) (n : BitVec 64) (data : Option IngotData) (f : FlaskId) (p : IngotSetupP),
    let i := Instr.ingotRestore h flask 0 0 0 n data
    let b := s.begun h i
    let fl := b.flask f
    let xs := b.ingotsOf false f 0
    s.starts h i = true → (h.ladle = .admin ∧ flask.toNat = f.toNat) ∨ (∃ l, h.ladle = .flask f l) → fl.st ≠ .failed →
    (∀ x ∈ xs, x.ingot.isSome = true) → fl.setup = some p →
    (newest n.toNat xs = none → exec i s = .next (b.done h 0x00D3)) ∧
    (∀ g, newest n.toNat xs = some g →
      ((b.ingotKey p.keySlot).map keyCheck ≠ some g.keyCheck → exec i s = .next (b.done h 0x00D4)) ∧
      (∀ m, (b.ingotKey p.keySlot).map keyCheck = some g.keyCheck → fl.st.isCast = true → fl.mould = some m → m.id = g.mouldId →
        m.sequence = g.sequence → fl.rot = g.rot →
        exec i s = .next ((b.restore f (some h) data).done h (if data.isSome then St.success else St.mediaError)))))

/-- The newest ingot is the one with the highest number; a number given names the ingot (R490). -/
def Claims.NewestIngot : Prop :=
  ∀ (n : Nat) (xs : List IngotSlot) (g : IngotHdr), newest n xs = some g →
    (∃ x ∈ xs, x.ingot = some g) ∧ (n ≠ 0 → g.number = n) ∧
    (n = 0 → ∀ x ∈ xs, ∀ y, x.ingot = some y → y.number ≤ g.number)

/-- A take at its step boundary freezes the flask's valid granules and numbers its ingot after the last; the stream's end
completes the slot (R481–R489). -/
def Claims.IngotsStream : Prop :=
  (∀ (s : State) (f : FlaskId) (x : Take) (m : Mould),
    s.fw.down.contains .scheduler = false → (s.flask f).ingot = true → s.ing.takes = [x] → x.flask = f → x.ingot = none →
    (s.flask f).mould = some m →
    (s.atStep f = false → exec (.ingotStepBoundary f) s = .next s) ∧
    (s.atStep f = true → Answers (exec (.ingotStepBoundary f) s) fun t =>
      (∃ y g, t.ing.takes = [y] ∧ y.flask = f ∧ y.tag = x.tag ∧ y.ingot = some g ∧ g.number = s.nextNumber f ∧
        g.flask = f.toNat ∧ g.mouldId = m.id ∧ g.sequence = m.sequence ∧ g.keyCheck = keyCheck x.key) ∧
      (∀ g ∈ s.validGranules (s.flask f), (Tab.get none t.mem.frozen g).isSome = true) ∧
      Tab.get 0 t.ing.last f.toNat = s.nextNumber f ∧ t.mem.lp = s.mem.lp)) ∧
  (∀ (s : State) (f : FlaskId) (x : Take), s.fw.down.contains .scheduler = false → s.ing.takes = [x] → x.flask = f → x.ingot = none →
    exec (.ingotQuietTimeout f) s = .next ((s.endTake x 0x00D2).nextTake f)) ∧
  (∀ (s : State) (f : FlaskId) (x : Take) (g : IngotHdr) (p : IngotSetupP) (peer : CopyEnd) (slot : IngotSlot),
    let go (own : CopyEnd) := exec (.ingotStreamComplete f own peer) s
    s.ing.takes = [x] → x.flask = f → x.ingot = some g → s.breakout = false → (s.flask f).keyLoaded = true → x.bad = [] →
    (s.flask f).setup = some p → p.peerArea = 0xFF →
    ((s.series false (s.deviceId.extractLsb' 0 32) f).find? fun y => decide (y.slot = x.slot ∧ y.ingot = none)) = some slot →
    (∀ t, s.ownCopy slot { g with single := true } x.data (ingotKeys x.key) = some t → go .written = .next ((t.endTake x St.success).nextTake f)) ∧
    go .mediaError = .next (((s.postOwner 0x0A03 St.mediaError 0xFFF (evData [0, St.mediaError.toNat])).endTake x
      St.mediaError).nextTake f))

/-- Ingots. -/
def Obligations.IngotsTaken : Prop := Claims.IngotCommands ∧ Claims.NewestIngot ∧ Claims.IngotsStream
/-! ### Reset, start-up, clock domains, self-test (R497–R515, R235, R543–R545) -/

/-- What a reset clears and what it keeps (R497): fuses, flash and drives keep what they hold; power-on and brown-out lose the
log ring and the reference counters too. -/
def Claims.ResetClears : Prop :=
  ∀ (s : State) (src : Source),
    let t := s.resetBy src
    let deep := decide (src = .powerOn ∨ src = .brownOut)
    t.phase = .off ∧ t.pending = s.pending ∧ t.flasks = [] ∧ t.cores = [] ∧ t.clusters = [] ∧ t.mem.lp = [] ∧ t.mem.sram = [] ∧
      t.mem.lpValid = [] ∧ t.mem.sramValid = [] ∧ t.own = Own.reset ∧ t.fab = Fabric.reset ∧
      (∀ off, inFlash off = false → t.reg off = Tab.get 0 Regs.reset off) ∧
      (Tab.wf 0 s.regs = true → ∀ off, inFlash off = true → t.reg off = s.reg off) ∧
      t.mem.repairs = s.mem.repairs ∧ t.mem.fused = s.mem.fused ∧ t.mem.faulty = s.mem.faulty ∧ t.sec.seed = s.sec.seed ∧
      t.sec.duk = s.sec.duk ∧ t.sec.records = s.sec.records ∧ t.fw.running = s.fw.running ∧ t.fw.secver = s.fw.secver ∧
      t.ing.areas = s.ing.areas ∧ t.ing.slots = s.ing.slots ∧
      (t.fw.log = if deep then [] else s.fw.log) ∧ (t.refs = if deep then [] else s.refs) ∧
      (t.twin.st = if s.twin.kp.isSome then .joining else .unpaired) ∧
      (t.rst.cause = if deep then BitVec.ofNat 8 (2 ^ src.code) else s.rst.cause ||| BitVec.ofNat 8 (2 ^ src.code)) ∧
      (t.rst.resets = if src = .powerOn then 0 else s.rst.resets + 1)

/-- The module resets: each source, when it acts, and the start-up that follows (R497, R498, R506, R543–R545). -/
def Claims.SourcesReset : Prop :=
  (∀ (s : State) (env : StartupEnv), s.rst.powered = false → s.rst.mated = true →
    let b := { s with rst := { s.rst with powered := true, fuseOpen := false } }.resetBy .powerOn
    (s.rst.pinLow = false → exec (.powerOnReset env) s = .next (b.startUp env)) ∧
    (s.rst.pinLow = true → exec (.powerOnReset env) s = .next b)) ∧
  (∀ s : State, s.rst.powered = true →
    let down (b : State) : State := { b.resetBy .brownOut with rst := { (b.resetBy .brownOut).rst with powered := false } }
    exec .brownOut s = .next (down s) ∧
    exec .inputFuseOpen s = .next { down s with rst := { (down s).rst with fuseOpen := true } } ∧
    exec (.mateLChange false) s = .next (down { s with rst := { s.rst with mated := false } }) ∧
    exec (.mateLChange true) s = .next { s with rst := { s.rst with mated := true } }) ∧
  (∀ (s : State) (env : StartupEnv),
    (s.phase ≠ .off → s.phase ≠ .coldShut → exec (.moduleWatchdogExpiry env) s = .next (s.moduleReset .watchdog env)) ∧
    (s.phase.serves = true → exec (.lockUpReset env) s = .next (s.moduleReset .lockUp env)) ∧
    (s.phase ≠ .off → s.sec.unlocked = 2 → exec (.debugReset none env) s = .next (s.moduleReset .debug env)) ∧
    (s.phase ≠ .off → s.sec.unlocked ≠ 2 → ∀ d, exec (.debugReset d env) s = .next s) ∧
    (∀ (m : Master) (value : Word),
      let once := BitVec.ofNat 8 (value.toNat / 2 ^ 16 % 4)
      let kept := if once = 0 then s else s.setOpt (s.rst.opt.write { s.rst.opt.newest with once := once })
      let taken : Prop :=
        (value.toNat % 2 ^ 16 = 0xA5C3 → exec (.rstSwreset m value env) s = .next (kept.moduleReset .software env)) ∧
        (value.toNat % 2 ^ 16 ≠ 0xA5C3 → exec (.rstSwreset m value env) s = .next s)
      (s.phase.serves = true → s.sec.erasing = false → s.arrives m = true →
        (s.isOwner m = true → taken) ∧ (s.isOwner m = false → exec (.rstSwreset m value env) s = .next (s.observed m))) ∧
      (s.phase.serves = true → s.sec.erasing = false → s.arrives m = false → exec (.rstSwreset m value env) s = .next s) ∧
      (s.phase.serves = false → s.phase ≠ .off → s.sec.erasing = false →
        (m = .he0 ∨ m = .mgmt → taken) ∧ (m = .he1 ∨ m = .peer → exec (.rstSwreset m value env) s = .next s)) ∧
      (s.phase ≠ .off → s.sec.erasing = true → taken)))

/-- R503: a low on `MOD_RST_L` shorter than 100 ns is ignored, and one of 1 µs or longer is always taken as a reset; between, it
is taken whole or not at all. While the pin is held low the module stays in reset, and step 1 begins at its release. -/
def Obligations.ResetPin : Prop :=
  ∀ (s : State) (ns : Nat) (taken : Bool) (env : StartupEnv), s.rst.powered = true →
    let low := { s with rst := { s.rst with pinLow := true } }.resetBy .pin
    (s.rst.pinLow = false →
      (ns < 100 → exec (.resetPin ns taken) s = .next s) ∧
      (1000 ≤ ns → exec (.resetPin ns taken) s = .next low) ∧
      (100 ≤ ns → ns < 1000 → exec (.resetPin ns taken) s = .next (if taken then low else s)) ∧
      low.phase = .off ∧ low.rst.pinLow = true) ∧
    (s.rst.pinLow = true → s.phase = .off →
      (∀ row ∈ [Instr.resetPin ns taken, .moduleWatchdogExpiry env, .lockUpReset env, .clockFailure .hubCore env,
        .rstSwreset .he0 0xA5C3 env, .powerOnReset env], exec row s = .next s) ∧
      exec (.modRstLRelease env) s = .next ({ s with rst := { s.rst with pinLow := false } }.startUp env))

/-- What BIST finds shuts nothing. -/
def BistPasses (b : BistReport) : Prop := b.fatal.toNat &&& 0x77 = 0 ∧ b.badCheckers = 0

/-- The components of an image have their digests; a factory image's are not known (log entry 123). -/
def ComponentsGood (i : ImageHdr) : Prop := i.raw = [] ∨ imageDigestsOk i.raw = true

/-- A start-up that meets nothing wrong brings the module into service, or into test mode by its strap, with the option words
loaded (R502–R508); rails that fail, a fourth reset in a row, two bad banks, and a component with a wrong digest shut it cold
(R316, R502, R507, R512). -/
def Claims.StartUp : Prop :=
  ∀ (s : State) (env : StartupEnv),
    let want (c : OptCopy) : Bool := env.straps.getLsbD 1 || c.bankB
    (∀ c w i, env.railsOk = true → env.fuseMajority = true → s.rst.loop.toNat < 4 →
      s.rst.opt.choose env.option0Ok env.option1Ok = some (c, w) → c.once.getLsbD 1 = false → s.fw.image (want c) = some i →
      s.fw.romCheck (want c) (if want c then env.bankB else env.bankA) = St.success → env.domainsStable = true →
      env.refused = false → BistPasses env.bist →
      let t := s.startUp env
      (ComponentsGood i → (t.phase = if env.straps.getLsbD 0 then .test else .service) ∧ t.fw.start = c.start + 1 ∧
        t.rst.straps = env.straps &&& 0x1F ∧ (∀ off ∈ optRegs, t.reg off = Tab.get 0 c.regs off) ∧ t.flasks = s.flasks ∧
        t.rst.opt.which = w) ∧
      (¬ ComponentsGood i → t.phase = .coldShut ∧ t.rst.cold = 1)) ∧
    (env.railsOk = false → s.startUp env = s.coldShut 6 0) ∧
    (env.railsOk = true → env.fuseMajority = true → 4 ≤ s.rst.loop.toNat →
      s.startUp env = (s.writeTrip .fuseShadow).coldShut 5 0) ∧
    (∀ c w, env.railsOk = true → env.fuseMajority = true → s.rst.loop.toNat < 4 →
      s.rst.opt.choose env.option0Ok env.option1Ok = some (c, w) →
      s.fw.romCheck true env.bankB ≠ St.success → s.fw.romCheck false env.bankA ≠ St.success →
      (s.startUp env).phase = .coldShut ∧ (s.startUp env).rst.cold = 1)

/-- The start-up rows that go on with a start-up, and the option words' write (R505, R506, R508). -/
def Claims.StartUpGoesOn : Prop :=
  (∀ (s : State) (env e : StartupEnv), s.rst.env = some e →
    let b := s.bistMeasured env.bist
    (env.refused = true → s.rst.refusals < 20 → exec (.bistPreconditionCheck env) s =
      .next { b with rst := { b.rst with refusals := b.rst.refusals + 1 } }) ∧
    (env.refused = true → 20 ≤ s.rst.refusals → Answers (exec (.bistPreconditionCheck env) s) fun t =>
      t.phase = .coldShut ∧ t.rst.cold = 4) ∧
    (env.refused = false → Answers (exec (.bistPreconditionCheck env) s) fun t => t.rst.env = none ∧
      (BistPasses env.bist → ComponentsGood s.fw.running → t.phase ≠ .coldShut) ∧
      (BistPasses env.bist → ¬ ComponentsGood s.fw.running → t.phase = .coldShut ∧ t.rst.cold = 1) ∧
      (env.bist.badCheckers ≠ 0 → t.phase = .coldShut ∧ t.rst.cold = 2) ∧
      (env.bist.badCheckers = 0 → env.bist.fatal.toNat &&& 0x77 ≠ 0 → t.phase = .coldShut ∧ t.rst.cold = 3))) ∧
  (∀ s : State, s.phase.serves = true → s.rst.opt.dirty = true → Answers (exec .optionWordsWrite s) fun t =>
    t.rst.opt.dirty = false ∧ t.mem = s.mem ∧ t.regs = s.regs ∧
    (s.rst.opt.newest.seq.toNat + 1 < 2 ^ 32 → t.rst.opt.newest.regs = s.optNow ∧ t.rst.opt.newest.seq = s.rst.opt.newest.seq + 1)) ∧
  (∀ s : State, s.rst.opt.dirty = false → exec .optionWordsWrite s = .next s)

/-- Clock domains: a failed clock resets its domain and what depends on it; a domain is released once its clock is stable and
its parent released (R499–R501). -/
def Claims.ClockDomains : Prop :=
  (∀ (s : State) (env : StartupEnv), s.phase.serves = true →
    (∀ d ∈ [ClockDomain.aon, .hubCore], exec (.clockFailure d env) s = .next (s.moduleReset .clock env)) ∧
    (∀ d, exec (.clockFailure (.dieInfra d) env) s = .next (s.dieReset d (.dieInfra d) .clock) ∧
      exec (.clockFailure (.channels d) env) s = .next (s.dieReset d (.channels d) .clock)) ∧
    (∀ cl, exec (.clockFailure (.cluster cl) env) s = .next (s.clusterReset cl .clock)) ∧
    (s.sec.unlocked = 2 → ∀ cl, exec (.debugReset (some (.cluster cl)) env) s = .next (s.clusterReset cl .debug))) ∧
  (∀ (s : State) (d : Die) (x : ClockDomain) (src : Source) (cl : ClusterId), cl.toNat / 512 = d.toNat →
    (s.dieReset d x src).rst.resetDomains.contains (.dieInfra d) = true ∧
    (s.dieReset d x src).rst.resetDomains.contains (.channels d) = true ∧
    (s.dieReset d x src).rst.resetDomains.contains (.cluster cl) = true ∧
    (s.clusterReset cl src).rst.resetDomains.contains (.cluster cl) = true) ∧
  (∀ (s : State) (x : ClockDomain) (env : StartupEnv), s.rst.resetDomains.contains x = true →
    ((domainParents x).any s.rst.resetDomains.contains = false → exec (.domainClockStable x) s =
      .next { s with rst := { s.rst with resetDomains := s.rst.resetDomains.filter (· ≠ x) } }) ∧
    ((domainParents x).any s.rst.resetDomains.contains = true → exec (.domainClockStable x) s = .next s) ∧
    (∀ cl, x = .cluster cl →
      let d : Die := BitVec.ofNat 3 (cl.toNat / 512)
      s.rst.resetDomains.contains (.dieInfra d) = false → s.rst.resetDomains.contains (.channels d) = false →
      exec (.domainStableTimeout x env) s = .next (s.dieReset d (.dieInfra d) .clock)) ∧
    (∀ d, x = .dieInfra d → exec (.domainStableTimeout x env) s = .next (s.moduleReset .clock env)) ∧
    (s.sec.unlocked = 2 → Answers (exec (.olDbgRelease x) s) fun t => t.rst.resetDomains.contains x = false ∧ x ∈ t.rst.forced) ∧
    (s.sec.unlocked ≠ 2 → exec (.olDbgRelease x) s = .next s))

/-- Modes, run-time self-test and flips of stored bits (R235, R509–R511). -/
def Claims.SelfTest : Prop :=
  (∀ (s : State) (m : Master), s.phase.serves = true → s.arrives m = true → s.isOwner m = true →
    (s.phase = .service → s.liveFlasks = [] → exec (.rstModeReqTest m) s = .next { s with phase := .test }) ∧
    (s.phase = .service → s.liveFlasks ≠ [] → exec (.rstModeReqTest m) s = .next { s with rst := { s.rst with refused := true } }) ∧
    (s.phase = .test → exec (.rstModeReqService m) s = .next { s with phase := .service, mem := { s.mem with flip := none } }) ∧
    (s.phase ≠ .test → exec (.rstModeReqService m) s = .next s) ∧
    (s.phase ≠ .test → exec (.bistCtlFuse m) s = .next s) ∧
    (s.phase = .test → exec (.bistCtlFuse m) s = .next { s with mem := { s.mem with
      repairs := [], fused := s.mem.fused ++ s.mem.repairs } }) ∧
    (s.phase = .service → Answers (exec (.memFlipArm m) s) fun t => t.mem = s.mem ∧ (t.reg Reg.memFlipStat).getLsbD 2 = true) ∧
    (s.phase ≠ .service → Answers (exec (.memFlipArm m) s) fun t => t.mem.lp = s.mem.lp ∧ t.mem.sram = s.mem.sram ∧
      ∃ x, t.mem.flip = some x ∧ x.target = (s.reg Reg.memFlipCtl).extractLsb' 1 3 ∧
        x.copy = (s.reg Reg.memFlipCtl).extractLsb' 4 2 ∧ x.pat = (s.reg Reg.memFlipPat).extractLsb' 0 8)) ∧
  (∀ (s : State) (m : Master), s.phase.serves = true → s.arrives m = true → s.isOwner m = false →
    ∀ row ∈ [Instr.rstModeReqTest m, .rstModeReqService m, .bistCtlStart m, .bistCtlFuse m, .memFlipArm m],
      exec row s = .next (s.observed m)) ∧
  (∀ (s : State) (m : Master),
    let i := (s.reg Reg.bistRegion).toNat
    let granule := (s.reg Reg.bistCtl).getLsbD 2
    let retain := (s.reg Reg.bistCtl).getLsbD 1
    let isFree := if granule then i < 9536 ∧ s.mem.ownerOf i = 0x1FF ∧ s.granuleReserved i = false else i < 4096 ∧ s.mem.clusterOwnerOf (BitVec.ofNat 12 i) = 0x1FF
    s.phase.serves = true → s.arrives m = true → s.isOwner m = true → s.rst.bist = none →
    (¬ isFree → Answers (exec (.bistCtlStart m) s) fun t => t.rst.bist = none ∧ t.mem = s.mem ∧
      (t.reg Reg.bistStat).toNat / 2 ^ 16 = 0xE2) ∧
    (isFree → retain = false → s.phase = .service → Answers (exec (.bistCtlStart m) s) fun t => t.rst.bist = none ∧ t.mem = s.mem ∧
      (t.reg Reg.bistStat).toNat / 2 ^ 16 = 0xE3) ∧
    (isFree → retain = true → exec (.bistCtlStart m) s = .next { s with rst := { s.rst with bist := some ⟨granule, i, true⟩ } }) ∧
    (isFree → retain = false → s.phase ≠ .service → Answers (exec (.bistCtlStart m) s) fun t =>
      t.rst.bist = some ⟨granule, i, false⟩ ∧ t.mem = (if granule then s.mem.clearGranule i else s.mem.clearCluster (BitVec.ofNat 12 i)))) ∧
  (∀ (s : State) (r : Repair), s.mem.spareLeft r = true → (s.repair r).mem.repairs = s.mem.repairs ++ [r]) ∧
  (∀ (s : State) (pass : Bool) (repairs : List Repair) (b : BistRun), s.rst.bist = some b →
    Answers (exec (.runTimeBistDone pass repairs) s) fun t => t.rst.bist = none ∧
      t.mem = (repairs.foldl State.repair s).mem ∧
      (t.rst.outOfPool = if pass then s.rst.outOfPool else (b.granule, b.index) :: s.rst.outOfPool) ∧
      (t.reg Reg.bistStat).getLsbD 1 = true)

/-- Resets and start-up. -/
def Obligations.Resets : Prop := Claims.ResetClears ∧ Claims.SourcesReset ∧ Claims.StartUp ∧ Claims.StartUpGoesOn

/-- Clock domains and self-test. -/
def Obligations.DomainsAndSelfTest : Prop := Claims.ClockDomains ∧ Claims.SelfTest

/-! ### Registers (R6–R10, R287, R434, R435, R502, R512, R527) -/

/-- A read of a register that reading clears; reads change no other register. The management port's reads are the same; a read
that is not aligned gives any value, and such a write is performed at its word or ignored, a free choice (R3, R9, R287, R434; log
entry 120). -/
def Claims.RegisterReads : Prop :=
  (∀ (s : State) (m : Master) (off : BitVec 26) (r : RegRow),
    s.phase.serves = true → s.arrives m = true → off.toNat % 4 = 0 → off.toNat / 2 ^ 16 ≠ 0x18 → indexIn off.toNat Reg.pmonHubLo 8 64 = none →
    off.toNat ≠ Reg.twinHbAge → (off.toNat = Reg.ownStat → s.mem.trip = []) → rowOf off.toNat = some r →
    ∀ row, (row = Instr.registerReadClear m (off.setWidth 27) ∨ (row = .mctpRead off ∧ m = .mgmt ∧ s.fw.down.contains .management = false)) →
    (r.rc = 0 → exec row s = .next (s.emit (.value m (s.regValue off.toNat)))) ∧
    (r.rc ≠ 0 → Answers (exec row s) fun t => t.out = s.out ++ [.value m (s.regValue off.toNat)] ∧
      t.reg off.toNat = s.reg off.toNat &&& ~~~(BitVec.ofNat 32 r.rc) ∧ (∀ x, x ≠ off.toNat → t.reg x = s.reg x) ∧ t.mem = s.mem)) ∧
  (∀ (s : State) (m : Master) (off : BitVec 26), s.phase ≠ .off → s.arrives m = true → s.phase.serves = false → off.toNat % 4 = 0 →
    readsEarly off.toNat = false → exec (.registerReadClear m (off.setWidth 27)) s = .next (s.emit (.value m 0))) ∧
  (∀ (s : State) (m : Master) (off : BitVec 27) (v : Word), s.phase ≠ .off →
    (s.arrives m = false → exec (.registerReadClear m off) s = .next s) ∧
    (s.arrives m = true → off.toNat % 4 ≠ 0 →
      exec (.registerReadClear m off) s = .next (s.took.emit (.value m (s.free.extractLsb' 0 32))) ∧
      exec (.registerWrite m off v) s =
        if s.freeBit then exec (.registerWrite m (BitVec.ofNat 27 (off.toNat / 4 * 4)) v) s.took else .next s.took))

/-- The page of a flask (R267, R268): its endpoint reads `FP.ID`, its state and its counts; any other endpoint, and a page of a
FREE flask, reads zero; a write to an undefined offset, or one that the page ignores, is counted in `FP.STRAY`. -/
def Claims.FlaskPages : Prop :=
  ∀ (s : State) (m : Master) (e : Ep) (f : FlaskId) (v : Word), s.phase.serves = true → epOf m = some e → s.arrives m = true →
    let at' (r : Nat) : BitVec 27 := BitVec.ofNat 27 (2 ^ 26 + f.toNat * 2 ^ 16 + r)
    let reads (r : Nat) (w : Word) : Prop := exec (.registerReadClear m (at' r)) s = .next (s.emit (.value m w))
    (s.pageLive e f = false → ∀ r, r < 2 ^ 16 → r % 4 = 0 → reads r 0) ∧
    (s.pageLive e f = true →
      reads 0 (BitVec.ofNat 32 (f.toNat + 256)) ∧
      reads 0x04 (BitVec.ofNat 32 ((s.flask f).st.code + (if s.castUnderWay f then 8 else 0) + (if (s.flask f).ingot then 16 else 0) +
        if (s.flask f).paused then 32 else 0)) ∧ reads 0x08 (((s.flask f).mould.map fun x => x.sequence).getD 0) ∧
      reads 0x1C (s.flask f).events ∧ reads 0x20 (s.flask f).stray ∧ reads 0x24 0 ∧
      ∀ n : Nat, n < 16 → reads (0x104 + 8 * n) (s.ladle (.flask f (BitVec.ofNat 4 n))).gen) ∧
    (s.pageLive e f = false → exec (.registerWrite m (at' 0) v) s = .next (s.strayWrite f)) ∧
    (s.pageLive e f = true → exec (.registerWrite m (at' 0) v) s = .next s ∧
      exec (.registerWrite m (at' 0x24) v) s = .next (s.strayWrite f))

/-- A write takes effect from the owner alone; from any other master it is only counted, and before the module serves it is
ignored. Plain registers take the bits that their access code lets them, within their ranges (R10, R287, R435, R502). -/
def Claims.RegisterWrites : Prop :=
  (∀ (s : State) (m : Master) (off : BitVec 26) (v : Word), off.toNat % 4 = 0 →
    (s.phase.serves = false ∨ s.arrives m = false → exec (.registerWrite m (off.setWidth 27) v) s = .next s) ∧
    (s.phase ≠ .off → s.fw.down.contains .management = false →
      exec (.mctpWrite off v) s = exec (.registerWrite .mgmt (off.setWidth 27) v) s) ∧
    (s.phase.serves = true → s.arrives m = true → off.toNat ≠ Reg.ownClaim → off.toNat ≠ Reg.ownAccept → off.toNat ≠ Reg.hostBeat0 →
      off.toNat ≠ Reg.hostBeat1 → off.toNat ≠ Reg.twinConfirm → isOnote 0 off.toNat = false → isOnote 1 off.toNat = false →
      off.toNat / 2 ^ 16 ≠ 0x18 →
      (s.isOwner m = true → exec (.registerWrite m (off.setWidth 27) v) s = s.regEffect m off.toNat v) ∧
      (s.isOwner m = false → exec (.registerWrite m (off.setWidth 27) v) s = .next (s.observed m)))) ∧
  (∀ (s : State) (m : Master) (v : Word), s.phase.serves = true → s.arrives m = true → s.isOwner m = true →
    (∀ off ∈ [Reg.hostTimeout0, Reg.hostTimeout1], ∀ row, (row = Instr.registerWrite m (BitVec.ofNat 27 off) v ∨
        (row = .mctpWrite (BitVec.ofNat 26 off) v ∧ m = .mgmt ∧ s.fw.down.contains .management = false)) →
      Answers (exec row s) fun t =>
        (t.reg off).toNat % 2 ^ 20 = max 100 (min 600000 (v.toNat % 2 ^ 20)) ∧ (∀ x, x ≠ off → t.reg x = s.reg x)) ∧
    (Answers (exec (.registerWrite m (BitVec.ofNat 27 Reg.telemBudget) v) s) fun t =>
      (t.reg Reg.telemBudget).toNat % 2 ^ 12 = max 600 (min 2600 (v.toNat % 2 ^ 12))) ∧
    (Answers (exec (.registerWrite m (BitVec.ofNat 27 Reg.ladleTapEn) v) s) fun t => t.mem = s.mem ∧ t.cores = s.cores ∧
      ∀ x, x ≠ Reg.ladleTapEn → t.reg x = s.reg x))

/-- PLDM_COMMAND: a sensor's reading, and the command that the management core does not know (R526, R527). The completion
codes are the model's (PRESUMED, log entry 92). -/
def Claims.PldmAnswers : Prop :=
  ∀ s : State, s.phase ≠ .off → s.fw.down.contains .management = false →
    (∀ id v, Tab.get none s.bg.sensors id.toNat = some v → exec (.pldmCommand (.getSensorReading id)) s =
      .next (s.emit (.mgmt ([2, 0x11, 0] ++ leBytes 2 v.toNat)))) ∧
    (∀ id, Tab.get none s.bg.sensors id.toNat = none → isSensor id.toNat = false →
      exec (.pldmCommand (.getSensorReading id)) s = .next (s.emit (.mgmt [2, 0x11, 0x80]))) ∧
    (∀ eid, Answers (exec (.pldmCommand (.setEventReceiver eid)) s) fun t => t.bg.eid = eid ∧ t.mem = s.mem ∧ t.regs = s.regs) ∧
    (∀ req ∈ [PldmReq.getTid, .getVersion, .getTypes, .getCommands, .getPdrRepositoryInfo],
      Answers (exec (.pldmCommand req) s) fun t => ∃ bs, t.out = s.out ++ [.mgmt bs] ∧ bs.length = 11 ∧ t.mem = s.mem ∧ t.regs = s.regs)

/-- Reads and writes of registers. -/
def Obligations.Registers : Prop := Claims.RegisterReads ∧ Claims.FlaskPages ∧ Claims.RegisterWrites ∧ Claims.PldmAnswers
/-! ### After reset, and what every step keeps -/

/-- The state after reset: nothing waits, the stores are in canonical form, no flask lives, no master owns the module, and
registers read as the spec's tables give them (R7, R261, R438, R458, R497, R502, R515, R524). That the module stands right
after a start-up that met nothing wrong is the model's choice (log entry 18). -/
def Obligations.StateAfterReset : Prop :=
  let s := State.reset
  s.pending = [] ∧ s.mem.wf = true ∧ Tab.wf 0 s.regs = true ∧ s.phase = .service ∧ s.liveFlasks = [] ∧ s.own.valid = false ∧
    s.own.claims = [] ∧ s.twin.st = .unpaired ∧ s.twin.epoch = 0 ∧ s.breakout = false ∧ s.sec.unlocked = 0 ∧
    s.regValue Reg.idDevice = 0x0A101F3C ∧ s.regValue Reg.rstMode = 0 ∧
    (∀ e ∈ [(Reg.ownMgmtTimeout, 5000), (Reg.hostTimeout0, 5000), (Reg.hostTimeout1, 5000), (Reg.hostHold, 2000),
      (Reg.rstWdog, 2000), (Reg.telemBudget, 2600), (Reg.ownObsWrites0, 0), (Reg.twinDeclares, 0)], s.regValue e.1 = BitVec.ofNat 32 e.2) ∧
    ∀ p : Proc, (s.core p).wait = none ∧ (s.core p).moves.toList.all Option.isNone = true

/-- No instruction that a processor issues breaks the canonical form of the stores (R207–R218). -/
def Obligations.InstructionsKeepStores : Prop :=
  ∀ (i : Instr) (s t : State), i.issuedBy.isSome = true → s.mem.wf = true → exec i s = .next t → t.mem.wf = true

/-- No instruction of a program reaches the module's keys, its owner, its twin, its drives, its transport or its ingots: those
change only by ladle commands, register writes and events. Firmware's own operations of `sys` are apart (R312). -/
def Obligations.InstructionsReachOnlyCores : Prop :=
  ∀ (i : Instr) (s t : State), i.issuedBy.isSome = true → i.firmwareOp = false → exec i s = .next t →
    t.sec = s.sec ∧ t.own = s.own ∧ t.twin = s.twin ∧ t.stor = s.stor ∧ t.xport = s.xport ∧ t.ing = s.ing ∧ t.pending = s.pending

/-- Every step keeps the stores in their canonical form: equal memories are equal data (R207–R218). -/
def Obligations.EveryStepKeepsStores : Prop :=
  ∀ s t : State, s.mem.wf = true → step s = .next t → t.mem.wf = true
end

