-- ==== Sys2Proof/Decode.lean ====
section
/-!
DEFINITION. Commands from words: no row of spec/opcode_table.json gives bits, so no word spells a command.
-/

namespace Sys2Proof

def decodeTableWord (_nbits _w : Nat) : Option Instr := none

end Sys2Proof
end

