-- ==== Sys2Proof/Laws/Tab.lean ====
section
/-!
SUPPORT. The sparse map: what a key reads as after a put, and that every operation keeps the canonical form.
-/

namespace Sys2Proof.Machine.Tab
variable {α : Type}

theorem get_erase_ne (d : α) (t : Tab α) {k k' : Nat} (h : k' ≠ k) : get d (erase k t) k' = get d t k' := by
  induction t with
  | nil => rfl
  | cons e t ih =>
    obtain ⟨a, v⟩ := e
    simp only [erase]
    split
    · next ha => simp [get, ih, ha, Ne.symm h]
    · simp [get, ih]

theorem get_erase_self (d : α) (t : Tab α) (k : Nat) : get d (erase k t) k = d := by
  induction t with
  | nil => rfl
  | cons e t ih =>
    obtain ⟨a, w⟩ := e
    simp only [erase]
    split
    · exact ih
    · next ha => simp [get, ih, ha]

theorem mem_erase (t : Tab α) (k : Nat) : ∀ e ∈ erase k t, e.1 ≠ k := by
  induction t with
  | nil => simp [erase]
  | cons e t ih =>
    obtain ⟨a, w⟩ := e
    simp only [erase]
    split
    · exact ih
    · next ha =>
      intro e he
      rcases List.mem_cons.mp he with rfl | he
      · exact ha
      · exact ih e he

theorem get_ins_self (d v : α) (t : Tab α) (k : Nat) (h : ∀ e ∈ t, e.1 ≠ k) : get d (ins k v t) k = v := by
  induction t with
  | nil => simp [ins, get]
  | cons e t ih =>
    obtain ⟨a, w⟩ := e
    have ha : a ≠ k := h (a, w) (by simp)
    have ht : ∀ e ∈ t, e.1 ≠ k := fun e he => h e (by simp [he])
    simp only [ins]
    split <;> simp [get, ha, ih ht]

theorem get_ins_ne (d v : α) (t : Tab α) {k k' : Nat} (h : k' ≠ k) : get d (ins k v t) k' = get d t k' := by
  induction t with
  | nil => simp [ins, get, Ne.symm h]
  | cons e t ih =>
    obtain ⟨a, w⟩ := e
    simp only [ins]
    split <;> simp [get, ih, Ne.symm h]

/-- What a put key reads as. -/
@[simp] theorem get_put_self [DecidableEq α] (d v : α) (t : Tab α) (k : Nat) : get d (put d t k v) k = v := by
  by_cases hv : v = d
  · simp [put, hv, get_erase_self]
  · simp [put, hv, get_ins_self _ _ _ _ (mem_erase t k)]

/-- Every other key reads as before. -/
theorem get_put_ne [DecidableEq α] (d v : α) (t : Tab α) {k k' : Nat} (h : k' ≠ k) :
    get d (put d t k v) k' = get d t k' := by
  by_cases hv : v = d
  · simp [put, hv, get_erase_ne d t h]
  · simp [put, hv, get_ins_ne d v _ h, get_erase_ne d t h]

theorem get_eraseRange_in (d : α) (t : Tab α) (lo hi : Nat) {k : Nat} (h1 : lo ≤ k) (h2 : k < hi) :
    get d (eraseRange lo hi t) k = d := by
  induction t with
  | nil => rfl
  | cons e t ih =>
    obtain ⟨a, w⟩ := e
    simp only [eraseRange, List.filter_cons]
    split
    · next ha =>
      have : a ≠ k := by rintro rfl; simp [h1, h2] at ha
      simp only [get, this, if_false]; exact ih
    · exact ih

theorem get_eraseRange_out (d : α) (t : Tab α) (lo hi : Nat) {k : Nat} (h : ¬ (lo ≤ k ∧ k < hi)) :
    get d (eraseRange lo hi t) k = get d t k := by
  induction t with
  | nil => rfl
  | cons e t ih =>
    obtain ⟨a, w⟩ := e
    simp only [eraseRange, List.filter_cons]
    split
    · simp only [get]; split
      · rfl
      · exact ih
    · next ha =>
      have : a ≠ k := by
        rintro rfl
        simp only [Bool.not_eq_true', Bool.and_eq_false_iff, decide_eq_false_iff_not] at ha
        simp at ha
        exact h ha
      simp only [get, this, if_false]; exact ih

/-! ### The canonical form -/

theorem sortedFrom_mono {n m : Nat} (h : n ≤ m) : ∀ {t : Tab α}, sortedFrom m t = true → sortedFrom n t = true
  | [], _ => rfl
  | (k, v) :: t, hs => by
    simp only [sortedFrom, Bool.and_eq_true, decide_eq_true_eq] at hs ⊢
    exact ⟨Nat.le_trans h hs.1, hs.2⟩

theorem sortedFrom_filter (f : Nat × α → Bool) : ∀ {t : Tab α} {n : Nat}, sortedFrom n t = true → sortedFrom n (t.filter f) = true
  | [], _, _ => rfl
  | (k, v) :: t, n, hs => by
    simp only [sortedFrom, Bool.and_eq_true, decide_eq_true_eq] at hs
    rw [List.filter_cons]
    split
    · simp only [sortedFrom, Bool.and_eq_true, decide_eq_true_eq]
      exact ⟨hs.1, sortedFrom_filter f hs.2⟩
    · exact sortedFrom_mono (by omega) (sortedFrom_filter f hs.2)

theorem erase_eq_filter (k : Nat) (t : Tab α) : erase k t = t.filter fun e => !decide (e.1 = k) := by
  induction t with
  | nil => rfl
  | cons e t ih =>
    obtain ⟨a, w⟩ := e
    simp only [erase, List.filter_cons]
    by_cases ha : a = k <;> simp [ha, ih]

theorem sortedFrom_ins (k : Nat) (v : α) : ∀ {t : Tab α} {n : Nat}, n ≤ k → (∀ e ∈ t, e.1 ≠ k) →
    sortedFrom n t = true → sortedFrom n (ins k v t) = true
  | [], n, hn, _, _ => by simp [ins, sortedFrom, hn]
  | (a, w) :: t, n, hn, hk, hs => by
    have ha : a ≠ k := hk (a, w) (by simp)
    simp only [sortedFrom, Bool.and_eq_true, decide_eq_true_eq] at hs
    simp only [ins]
    split
    · next hlt =>
      simp only [sortedFrom, Bool.and_eq_true, decide_eq_true_eq]
      exact ⟨hn, hlt, hs.2⟩
    · next hlt =>
      simp only [sortedFrom, Bool.and_eq_true, decide_eq_true_eq]
      exact ⟨hs.1, sortedFrom_ins k v (by omega) (fun e he => hk e (by simp [he])) hs.2⟩

theorem mem_ins (k : Nat) (v : α) (t : Tab α) : ∀ e ∈ ins k v t, e = (k, v) ∨ e ∈ t := by
  induction t with
  | nil => simp [ins]
  | cons e t ih =>
    obtain ⟨a, w⟩ := e
    simp only [ins]
    split
    · intro e he; simpa using he
    · intro e he
      rcases List.mem_cons.mp he with rfl | he
      · exact .inr (by simp)
      · rcases ih e he with h | h
        · exact .inl h
        · exact .inr (by simp [h])

variable [DecidableEq α]

theorem wf_filter {d : α} {t : Tab α} (f : Nat × α → Bool) (h : wf d t = true) : wf d (t.filter f) = true := by
  simp only [wf, Bool.and_eq_true, List.all_eq_true] at h ⊢
  exact ⟨sortedFrom_filter f h.1, fun e he => h.2 e ((List.mem_filter.mp he).1)⟩

theorem wf_erase {d : α} {t : Tab α} (k : Nat) (h : wf d t = true) : wf d (erase k t) = true := by
  rw [erase_eq_filter]; exact wf_filter _ h

theorem wf_eraseRange {d : α} {t : Tab α} (lo hi : Nat) (h : wf d t = true) : wf d (eraseRange lo hi t) = true :=
  wf_filter _ h

/-- A put keeps the canonical form. -/
theorem wf_put {d : α} {t : Tab α} (k : Nat) (v : α) (h : wf d t = true) : wf d (put d t k v) = true := by
  have he := wf_erase (d := d) k h
  by_cases hv : v = d
  · simpa [put, hv] using he
  · simp only [wf, Bool.and_eq_true, List.all_eq_true] at he
    simp only [put, hv, if_false, wf, Bool.and_eq_true, List.all_eq_true]
    refine ⟨sortedFrom_ins k v (Nat.zero_le _) (mem_erase t k) he.1, fun e hm => ?_⟩
    rcases mem_ins k v _ e hm with rfl | hm
    · simp [hv]
    · exact he.2 e hm

theorem wf_putAll {d : α} : ∀ (r t : Tab α), wf d t = true → wf d (putAll d t r) = true
  | [], _, h => h
  | (k, v) :: r, _, h => wf_putAll r _ (wf_put k v h)

end Sys2Proof.Machine.Tab
end

