-- ==== Sys2Proof/Laws/Issue.lean ====
section
/-!
SUPPORT. The processors' table, the issue of an instruction, and what a completed instruction leaves as it was.
-/

namespace Sys2Proof.Machine

/-! ### The processors -/

theorem procKey_inj {p q : Proc} (h : procKey p = procKey q) : p = q := by
  cases p <;> cases q <;> simp only [procKey] at h
  all_goals first
    | (congr 1; exact BitVec.eq_of_toNat_eq (by omega))
    | (exfalso; rename_i a b; have := a.isLt; have := b.isLt; omega)

@[simp] theorem State.core_setCore (s : State) (p : Proc) (c : Core) : (s.setCore p c).core p = c := by
  unfold State.setCore State.core
  split <;> simp [*]

theorem State.core_setCore_ne (s : State) {p q : Proc} (c : Core) (h : q ≠ p) : (s.setCore p c).core q = s.core q := by
  have hk : procKey q ≠ procKey p := fun e => h (procKey_inj e)
  unfold State.setCore State.core
  split <;> split <;> simp [Tab.get_put_ne _ _ _ hk]

/-- A put of one processor's state changes nothing else. -/
theorem State.setCore_rest (s : State) (p : Proc) (c : Core) :
    { s.setCore p c with cores := s.cores, fwCores := s.fwCores } = s := by
  unfold State.setCore; split <;> rfl

@[simp] theorem State.setCore_mem (s : State) (p : Proc) (c : Core) : (s.setCore p c).mem = s.mem := by
  unfold State.setCore; split <;> rfl
@[simp] theorem State.setCore_pending (s : State) (p : Proc) (c : Core) : (s.setCore p c).pending = s.pending := by
  unfold State.setCore; split <;> rfl
@[simp] theorem State.setCore_phase (s : State) (p : Proc) (c : Core) : (s.setCore p c).phase = s.phase := by
  unfold State.setCore; split <;> rfl
@[simp] theorem State.setCore_fab (s : State) (p : Proc) (c : Core) : (s.setCore p c).fab = s.fab := by
  unfold State.setCore; split <;> rfl
@[simp] theorem State.setCore_flasks (s : State) (p : Proc) (c : Core) : (s.setCore p c).flasks = s.flasks := by
  unfold State.setCore; split <;> rfl
@[simp] theorem State.setCore_clusters (s : State) (p : Proc) (c : Core) : (s.setCore p c).clusters = s.clusters := by
  unfold State.setCore; split <;> rfl
@[simp] theorem State.setCore_regs (s : State) (p : Proc) (c : Core) : (s.setCore p c).regs = s.regs := by
  unfold State.setCore; split <;> rfl
@[simp] theorem State.setCore_refs (s : State) (p : Proc) (c : Core) : (s.setCore p c).refs = s.refs := by
  unfold State.setCore; split <;> rfl
@[simp] theorem State.setCore_fresh (s : State) (p : Proc) (c : Core) : (s.setCore p c).fresh = s.fresh := by
  unfold State.setCore; split <;> rfl

theorem Tab.erase_ins {α : Type} (k : Nat) (v : α) (t : Tab α) (h : ∀ e ∈ t, e.1 ≠ k) :
    Tab.erase k (Tab.ins k v t) = t := by
  induction t with
  | nil => simp [Tab.ins, Tab.erase]
  | cons e t ih =>
    obtain ⟨a, w⟩ := e
    have ha : a ≠ k := h (a, w) (by simp)
    have ht : ∀ e ∈ t, e.1 ≠ k := fun e he => h e (by simp [he])
    have hid : ∀ u : Tab α, (∀ e ∈ u, e.1 ≠ k) → Tab.erase k u = u := by
      intro u hu
      rw [Tab.erase_eq_filter, List.filter_eq_self]
      intro e he
      simp [hu e he]
    simp only [Tab.ins]
    split
    · simp [Tab.erase, ha, hid t ht]
    · simp [Tab.erase, ha, ih ht]

/-- Of two puts of a key, the second stands. -/
@[simp] theorem Tab.put_put {α : Type} [DecidableEq α] (d v w : α) (t : Tab α) (k : Nat) :
    Tab.put d (Tab.put d t k v) k w = Tab.put d t k w := by
  have hid : ∀ u : Tab α, (∀ e ∈ u, e.1 ≠ k) → Tab.erase k u = u := by
    intro u hu
    rw [Tab.erase_eq_filter, List.filter_eq_self]
    intro e he
    simp [hu e he]
  have he : Tab.erase k (Tab.put d t k v) = Tab.erase k t := by
    unfold Tab.put
    split
    · exact hid _ (Tab.mem_erase t k)
    · exact Tab.erase_ins k v _ (Tab.mem_erase t k)
  unfold Tab.put at he ⊢
  rw [he]

@[simp] theorem State.setCore_setCore (s : State) (p : Proc) (c c' : Core) :
    (s.setCore p c).setCore p c' = s.setCore p c' := by
  unfold State.setCore; split <;> simp

theorem OnlyCore.setCore (s : State) (p : Proc) (c : Core) : OnlyCore s (s.setCore p c) p :=
  ⟨s.setCore_rest p c, fun _ h => s.core_setCore_ne c h⟩

theorem OnlyCore.trans {s t u : State} {p : Proc} (h : OnlyCore s t p) (k : OnlyCore t u p) : OnlyCore s u p := by
  refine ⟨?_, fun q hq => (k.2 q hq).trans (h.2 q hq)⟩
  have h1 := h.1
  have k1 := k.1
  rw [← k1] at h1
  exact h1

/-! ### Issue -/

/-- Where no event is reported, the checker finds what the store holds. -/
@[simp] theorem State.foundWord_stored (s : State) (k : Nat) : s.foundWord k .stored = s.mem.wordMark k := by
  unfold State.foundWord Mem.wordMark
  rw [if_neg (by decide)]
  cases Tab.get false s.mem.sramValid (k / 16)
  · rfl
  · simp only [Bool.not_true, Bool.false_eq_true, if_false, if_true]
    cases Tab.get WordMark.good s.mem.sramMark k <;> rfl

/-- A whole word that is not tagged POISON is read as it stands. -/
theorem State.readWord_good {s : State} {k : Nat} {src : Src} (hm : s.mem.wordMark k = .good) (hp : (s.mem.word k).tag ≠ Tag.poison) :
    s.readWord k src .stored = (s.mem.word k, false, s) := by
  simp [State.readWord, hm, hp]

/-- A word that is fetched without a trap changes nothing. -/
theorem State.fetchTrap_of_fetches {s : State} {p : Proc} {i : Nat} (h : s.fetches p i = true) :
    s.fetchTrap p i = (none, s) := by
  simp only [State.fetches, Bool.and_eq_true, decide_eq_true_eq, Bool.or_eq_true, Bool.not_eq_true'] at h
  obtain ⟨⟨hi, hm⟩, hc⟩ := h
  have hi' : ¬ procWords p ≤ i := by omega
  unfold State.fetchTrap
  simp only [ge_iff_le, hi', hm, Bool.not_true, Bool.false_eq_true, or_self, if_false]
  rcases hc with hc | hc
  · simp [hc]
  · split
    · rfl
    · unfold State.fetch
      split at hc
      · next e he =>
        simp only [decide_eq_true_eq] at hc
        simp [he, hc]
      · next he =>
        simp only [Bool.and_eq_true, decide_eq_true_eq] at hc
        have hp : (s.mem.word (storeBase p / 4 + i)).tag ≠ Tag.poison := by rw [hc.2]; decide
        simp [he, State.readWord_good hc.1 hp, hc.2]

/-- The spec of issue: a processor that reaches an instruction whose condition holds runs its body on the state with the
next words fetched ahead. -/
theorem State.issue_of_issues {s : State} {p : Proc} {cond : BitVec 4} {legal : Bool} {flow : Flow}
    (h : s.issues p cond flow = true) (hlegal : legal = true) (body : State → Body) :
    s.issue p cond legal flow body = (s.fetched p flow).settle p flow.len (body (s.fetched p flow)) := by
  simp only [State.issues, State.atIssue, Bool.and_eq_true, decide_eq_true_eq, Option.isNone_iff_eq_none,
    List.isEmpty_iff, Bool.not_eq_true', Bool.and_eq_false_iff, Bool.or_eq_true] at h
  obtain ⟨⟨⟨⟨⟨⟨⟨⟨⟨hr, hw⟩, hp⟩, he⟩, ht⟩, hf⟩, hf2⟩, hl⟩, hc⟩, hh⟩ := h
  have htm : ((s.core p).a.timers.pending && (s.core p).a.stat.te) = false := by
    rcases ht with ht | ht <;> simp [ht]
  have hnl : ¬ procWords p ≤ (s.core p).a.pc + flow.len := by omega
  have hsnd : (if flow = .call then s.fetchTrap p ((s.core p).a.pc + 1) else (none, s)) = (none, s) := by
    split
    · next hcall => exact State.fetchTrap_of_fetches (hf2.resolve_left (by simp [hcall]))
    · rfl
  unfold State.issue
  simp only [hr, hw, hp, he, htm, State.fetchTrap_of_fetches hf, hsnd, hnl, hc, hh, hlegal, State.fetched]
  simp

theorem State.fetchAhead_eq (s : State) (p : Proc) (i : Nat) :
    ∃ w, s.fetchAhead p i = s.setCore p { s.core p with ahead := w } := ⟨_, rfl⟩

theorem State.fetched_eq (s : State) (p : Proc) (flow : Flow) :
    ∃ w, s.fetched p flow = s.setCore p { s.core p with ahead := w } := ⟨_, rfl⟩

@[simp] theorem State.fetched_mem (s : State) (p : Proc) (flow : Flow) : (s.fetched p flow).mem = s.mem :=
  State.setCore_mem _ _ _

/-- What the body of an instruction finds in its core: everything but the words fetched ahead as it was. -/
theorem State.core_fetched (s : State) (p : Proc) (flow : Flow) :
    ∃ w, (s.fetched p flow).core p = { s.core p with ahead := w } := by
  obtain ⟨w, h⟩ := s.fetched_eq p flow
  exact ⟨w, by rw [h, State.core_setCore]⟩

@[simp] theorem State.fetched_a (s : State) (p : Proc) (flow : Flow) : ((s.fetched p flow).core p).a = (s.core p).a := by
  obtain ⟨w, h⟩ := s.core_fetched p flow
  rw [h]

@[simp] theorem State.fetched_reg (s : State) (p : Proc) (flow : Flow) (r : RegNo) :
    ((s.fetched p flow).core p).reg r = (s.core p).reg r := by simp [Core.reg]

theorem State.issues_wait {s : State} {p : Proc} {cond : BitVec 4} {flow : Flow} (h : s.issues p cond flow = true) :
    (s.core p).wait = none := by
  simp only [State.issues, State.atIssue, Bool.and_eq_true, Option.isNone_iff_eq_none] at h
  exact h.1.1.1.1.1.1.1.1.2

/-- An instruction whose body only writes registers and `STAT` of its own core retires with them. -/
theorem State.retires_of_ok {s : State} {p : Proc} {cond : BitVec 4} {flow : Flow} (h : s.issues p cond flow = true)
    (f : Core → Core) (g : Vector TWord 16) (stat : Stat)
    (hf : ∀ w, f { s.core p with ahead := w } =
      { s.core p with ahead := w, a := { (s.core p).a with g := g, stat := stat } }) :
    Retires s ((s.fetched p flow).settle p flow.len (.ok ((s.fetched p flow).modCore p f))) p
      ((s.core p).a.pc + flow.len) g stat := by
  obtain ⟨w, hs⟩ := s.fetched_eq p flow
  have hw := State.issues_wait h
  rw [hs]
  unfold State.settle State.retire State.modCore
  refine ⟨((OnlyCore.setCore _ _ _).trans (OnlyCore.setCore _ _ _)).trans (OnlyCore.setCore _ _ _), ?_⟩
  simp only [State.core_setCore, hf]
  simp [Core.bump, Arch.timersAfter, hw]

/-- The same, when the body goes to another word. -/
theorem State.retires_of_jump {s : State} {p : Proc} {cond : BitVec 4} {flow : Flow} (h : s.issues p cond flow = true)
    (n : Nat) (f : Core → Core) (g : Vector TWord 16) (stat : Stat)
    (hf : ∀ w, f { s.core p with ahead := w } =
      { s.core p with ahead := w, a := { (s.core p).a with g := g, stat := stat } }) :
    Retires s ((s.fetched p flow).settle p flow.len (.jump ((s.fetched p flow).modCore p f) n)) p n g stat := by
  obtain ⟨w, hs⟩ := s.fetched_eq p flow
  have hw := State.issues_wait h
  rw [hs]
  unfold State.settle State.retire State.modCore
  refine ⟨((OnlyCore.setCore _ _ _).trans (OnlyCore.setCore _ _ _)).trans (OnlyCore.setCore _ _ _), ?_⟩
  simp only [State.core_setCore, hf]
  simp [Core.bump, Arch.timersAfter, hw]

end Sys2Proof.Machine
end

