-- ==== Sys2Proof/Laws/Memory.lean ====
section
/-!
SUPPORT. The stores: what reads give after writes, and that every operation on them keeps their canonical form.
-/

namespace Sys2Proof.Machine

/-! ### The canonical form -/

/-- The canonical form of each table of the stores. -/
theorem Mem.wf_iff (m : Mem) : m.wf = true ↔ Memory.wf m.lp = true ∧ Tab.wf TWord.zero m.sram = true ∧
    Tab.wf false m.sramValid = true ∧ Tab.wf WordMark.good m.sramMark = true ∧ Tab.wf false m.lpValid = true ∧
    Tab.wf CwMark.good m.lpMark = true := by
  simp only [Mem.wf, Bool.and_eq_true, and_assoc]

theorem Mem.reset_wf : Mem.reset.wf = true := by decide

/-- Only the six tables count. -/
theorem Mem.wf_congr {m n : Mem} (h1 : n.lp = m.lp) (h2 : n.sram = m.sram) (h3 : n.sramValid = m.sramValid)
    (h4 : n.sramMark = m.sramMark) (h5 : n.lpValid = m.lpValid) (h6 : n.lpMark = m.lpMark) (h : m.wf = true) : n.wf = true := by
  rw [Mem.wf_iff] at h ⊢
  rw [h1, h2, h3, h4, h5, h6]
  exact h

section
variable {m : Mem}

@[simp] theorem Mem.wf_setWordMark (k : Nat) (x : WordMark) (h : m.wf = true) : (m.setWordMark k x).wf = true := by
  rw [Mem.wf_iff] at h ⊢
  obtain ⟨a, b, c, d, e, f⟩ := h
  exact ⟨a, b, c, by exact Tab.wf_put _ _ d, e, f⟩

@[simp] theorem Mem.wf_flipWord (k : Nat) (h : m.wf = true) : (m.flipWord k).wf = true := by
  unfold Mem.flipWord
  rw [Mem.wf_iff] at h
  obtain ⟨a, b, c, d, e, f⟩ := h
  split
  · exact (Mem.wf_iff m).mpr ⟨a, b, c, d, e, f⟩
  · dsimp only
    repeat' split
    all_goals (rw [Mem.wf_iff]; try dsimp only)
    all_goals first
      | exact ⟨a, b, c, d, e, f⟩
      | exact ⟨a, b, c, Tab.wf_put _ _ d, e, f⟩
      | exact ⟨a, Tab.wf_put _ _ b, c, Tab.wf_put _ _ d, e, f⟩

/-- A write of a word keeps the form. -/
@[simp] theorem Mem.wf_setWord (k : Nat) (w : TWord) (h : m.wf = true) : (m.setWord k w).wf = true := by
  unfold Mem.setWord
  apply Mem.wf_flipWord
  rw [Mem.wf_iff] at h
  obtain ⟨a, b, c, d, e, f⟩ := h
  split
  all_goals (rw [Mem.wf_iff]; try dsimp only)
  · exact ⟨a, Tab.wf_put _ _ b, c, Tab.wf_put _ _ d, e, f⟩
  · exact ⟨a, Tab.wf_put _ _ (Tab.wf_eraseRange _ _ b), Tab.wf_put _ _ c, Tab.wf_put _ _ (Tab.wf_eraseRange _ _ d), e, f⟩

@[simp] theorem Mem.wf_clearLines (lo hi : Nat) (h : m.wf = true) : (m.clearLines lo hi).wf = true := by
  rw [Mem.wf_iff] at h ⊢
  obtain ⟨a, b, c, d, e, f⟩ := h
  exact ⟨a, b, Tab.wf_eraseRange _ _ c, d, e, f⟩

@[simp] theorem Mem.wf_setCw (a : Nat) (x : CwMark) (h : m.wf = true) : (m.setCw a x).wf = true := by
  rw [Mem.wf_iff] at h ⊢
  obtain ⟨a', b, c, d, e, f⟩ := h
  exact ⟨a', b, c, d, e, Tab.wf_put _ _ f⟩

@[simp] theorem Mem.wf_poisonCw (a : Nat) (h : m.wf = true) : (m.poisonCw a).wf = true := by
  unfold Mem.poisonCw; split
  · exact Mem.wf_setCw _ _ h
  · exact h

@[simp] theorem Mem.wf_touchUnit (a : Nat) (h : m.wf = true) : (m.touchUnit a).wf = true := by
  unfold Mem.touchUnit
  split
  · exact h
  · rw [Mem.wf_iff] at h ⊢
    obtain ⟨a', b, c, d, e, f⟩ := h
    dsimp only
    exact ⟨Tab.wf_eraseRange _ _ a', b, c, d, Tab.wf_put _ _ e, Tab.wf_eraseRange _ _ f⟩

@[simp] theorem Mem.wf_putBytes (bs : List Byte) : ∀ {m : Mem} (a : Nat), m.wf = true → (m.putBytes a bs).wf = true := by
  induction bs with
  | nil => intro m a h; exact h
  | cons b bs ih =>
    intro m a h
    refine ih (a + 1) ?_
    rw [Mem.wf_iff] at h ⊢
    exact ⟨Tab.wf_put _ _ h.1, h.2⟩

@[simp] theorem Mem.wf_copyGranule (g : Nat) (h : m.wf = true) : (m.copyGranule g).wf = true := by
  unfold Mem.copyGranule
  repeat' split
  all_goals exact Mem.wf_congr rfl rfl rfl rfl rfl rfl h

@[simp] theorem Mem.wf_flipLine (a : Nat) (h : m.wf = true) : (m.flipLine a).wf = true := by
  unfold Mem.flipLine
  split
  · exact h
  · have h' : ∀ x, ({ m with flip := none, flipDone := x } : Mem).wf = true := fun _ => Mem.wf_congr rfl rfl rfl rfl rfl rfl h
    dsimp only
    repeat' split
    all_goals first
      | with_reducible exact Mem.wf_setCw _ _ (Mem.wf_putBytes _ _ (h' _))
      | with_reducible exact Mem.wf_putBytes _ _ (h' _)
      | with_reducible exact Mem.wf_setCw _ _ (h' _)
      | with_reducible exact h' _
      | exact h

/-- A write within a line of LPDDR keeps the form. -/
@[simp] theorem Mem.wf_setLine (a : Nat) (bs : List Byte) (h : m.wf = true) : (m.setLine a bs).wf = true :=
  Mem.wf_flipLine _ (Mem.wf_setCw _ _ (Mem.wf_setCw _ _ (Mem.wf_putBytes _ _ (Mem.wf_touchUnit _ (Mem.wf_copyGranule _ h)))))

@[simp] theorem Mem.wf_writeTrip (w : Nat) (h : m.wf = true) : (m.writeTrip w).wf = true := by
  have h' : ({ m with trip := m.trip.filter fun x => x.1 != w } : Mem).wf = true := Mem.wf_congr rfl rfl rfl rfl rfl rfl h
  unfold Mem.writeTrip
  dsimp only
  split
  · exact h'
  · split
    · exact Mem.wf_congr rfl rfl rfl rfl rfl rfl h
    · exact h'

@[simp] theorem Mem.wf_clearUnits (lo hi : Nat) (h : m.wf = true) : (m.clearUnits lo hi).wf = true := by
  rw [Mem.wf_iff] at h ⊢
  obtain ⟨a, b, c, d, e, f⟩ := h
  exact ⟨a, b, c, d, Tab.wf_eraseRange _ _ e, f⟩

@[simp] theorem Mem.wf_putImage (c : CoreId) (r : SegtRec) (h : m.wf = true) : (m.putImage c r).wf = true := by
  unfold Mem.putImage
  generalize (r.image.getD []).zipIdx = xs
  induction xs generalizing m with
  | nil => exact h
  | cons x xs ih => exact ih (Mem.wf_setWord _ _ h)

@[simp] theorem Mem.wf_clearCluster (cl : ClusterId) (h : m.wf = true) : (m.clearCluster cl).wf = true :=
  Mem.wf_clearLines _ _ (Mem.wf_clearLines _ _ h)

@[simp] theorem Mem.wf_clearGranule (g : Nat) (h : m.wf = true) : (m.clearGranule g).wf = true := Mem.wf_clearUnits _ _ h

@[simp] theorem Mem.wf_loadStore (p : Proc) (bs : List Byte) (h : m.wf = true) : (m.loadStore p bs).wf = true := by
  unfold Mem.loadStore
  have key : ∀ (l : List Nat) (f : Nat → Nat × TWord) {m : Mem}, m.wf = true →
      (l.foldl (fun m i => m.setWord (f i).1 (f i).2) m).wf = true := by
    intro l f
    induction l with
    | nil => intro m h; exact h
    | cons x l ih => intro m h; exact ih (Mem.wf_setWord _ _ h)
  exact key _ (fun i => (_, _)) (Mem.wf_clearLines _ _ h)

@[simp] theorem Mem.wf_filterUnits (f : Nat × Bool → Bool) (h : m.wf = true) :
    ({ m with lpValid := m.lpValid.filter f } : Mem).wf = true := by
  rw [Mem.wf_iff] at h ⊢
  obtain ⟨a, b, c, d, e, f'⟩ := h
  exact ⟨a, b, c, d, Tab.wf_filter f e, f'⟩

end

/-! ### Reads after writes: tagged memory -/

section
variable (m : Mem)

@[simp] theorem Mem.flipWord_of_none (k : Nat) (h : m.flip = none) : m.flipWord k = m := by simp [Mem.flipWord, h]

/-- A word written reads as written (R215). -/
theorem Mem.word_setWord_self (k : Nat) (w : TWord) (h : m.flip = none) : (m.setWord k w).word k = w := by
  unfold Mem.setWord
  split
  · next hv => dsimp only; rw [Mem.flipWord_of_none _ _ (by exact h)]; simp [Mem.word, hv]
  · dsimp only; rw [Mem.flipWord_of_none _ _ (by exact h)]; simp [Mem.word]

/-- Every other word reads as before; on a line that was not valid, as 0 tagged RAW (R214, R215). -/
theorem Mem.word_setWord_ne {k j : Nat} (w : TWord) (h : m.flip = none) (hj : j ≠ k) : (m.setWord k w).word j = m.word j := by
  unfold Mem.setWord
  split
  · next hv =>
    dsimp only
    rw [Mem.flipWord_of_none _ _ (by exact h)]
    simp [Mem.word, Tab.get_put_ne _ _ _ hj]
  · next hv =>
    dsimp only
    rw [Mem.flipWord_of_none _ _ (by exact h)]
    simp only [Mem.word, Tab.get_put_ne _ _ _ hj]
    by_cases hl : j / 16 = k / 16
    · have hr : k / 16 * 16 ≤ j ∧ j < k / 16 * 16 + 16 := by omega
      rw [hl, Tab.get_put_self, if_pos rfl, Tab.get_eraseRange_in _ _ _ _ hr.1 hr.2, if_neg hv]
    · have hr : ¬ (k / 16 * 16 ≤ j ∧ j < k / 16 * 16 + 16) := by omega
      rw [Tab.get_put_ne _ _ _ hl, Tab.get_eraseRange_out _ _ _ _ hr]

/-- A word written is whole. -/
theorem Mem.wordMark_setWord_self (k : Nat) (w : TWord) (h : m.flip = none) : (m.setWord k w).wordMark k = .good := by
  unfold Mem.setWord
  split
  · next hv => dsimp only; rw [Mem.flipWord_of_none _ _ (by exact h)]; simp [Mem.wordMark, hv]
  · dsimp only; rw [Mem.flipWord_of_none _ _ (by exact h)]; simp [Mem.wordMark]

/-- Tagged memory and LPDDR are apart. -/
@[simp] theorem Mem.byte_setWord (k : Nat) (w : TWord) (a : Nat) : (m.setWord k w).byte a = m.byte a := by
  have hf : ∀ n : Mem, (n.flipWord k).lp = n.lp ∧ (n.flipWord k).lpValid = n.lpValid := by
    intro n
    unfold Mem.flipWord
    split
    · exact ⟨rfl, rfl⟩
    · dsimp only
      repeat' split
      all_goals exact ⟨rfl, rfl⟩
  unfold Mem.setWord Mem.byte
  rw [(hf _).1, (hf _).2]
  split <;> rfl

/-! ### Reads after writes: LPDDR -/

theorem Mem.lp_putBytes_out (bs : List Byte) : ∀ (m : Mem) (a x : Nat), x < a ∨ a + bs.length ≤ x →
    Tab.get 0 (m.putBytes a bs).lp x = Tab.get 0 m.lp x := by
  induction bs with
  | nil => intro m a x _; rfl
  | cons b bs ih =>
    intro m a x hx
    simp only [List.length_cons] at hx
    show Tab.get 0 (Mem.putBytes { m with lp := Tab.put 0 m.lp a b } (a + 1) bs).lp x = _
    rw [ih _ (a + 1) x (by omega)]
    exact Tab.get_put_ne _ _ _ (by omega)

theorem Mem.lp_putBytes_in (bs : List Byte) : ∀ (m : Mem) (a i : Nat) (h : i < bs.length),
    Tab.get 0 (m.putBytes a bs).lp (a + i) = bs[i] := by
  induction bs with
  | nil => intro m a i h; exact absurd h (Nat.not_lt_zero _)
  | cons b bs ih =>
    intro m a i h
    show Tab.get 0 (Mem.putBytes { m with lp := Tab.put 0 m.lp a b } (a + 1) bs).lp (a + i) = _
    cases i with
    | zero =>
      rw [Mem.lp_putBytes_out _ _ _ _ (by omega)]
      simp
    | succ i =>
      have := ih { m with lp := Tab.put 0 m.lp a b } (a + 1) i (by simpa using h)
      rw [show a + (i + 1) = a + 1 + i by omega, this]
      rfl

theorem Mem.putBytes_rest (bs : List Byte) : ∀ (m : Mem) (a : Nat), { m.putBytes a bs with lp := m.lp } = m := by
  induction bs with
  | nil => intro m a; rfl
  | cons b bs ih =>
    intro m a
    have := ih { m with lp := Tab.put 0 m.lp a b } (a + 1)
    show ({ Mem.putBytes { m with lp := Tab.put 0 m.lp a b } (a + 1) bs with lp := m.lp } : Mem) = m
    generalize Mem.putBytes { m with lp := Tab.put 0 m.lp a b } (a + 1) bs = n at this
    cases n; cases m; simp_all

end

end Sys2Proof.Machine
end

