-- ==== Sys2Proof/Laws/State.lean ====
section
/-!
SUPPORT. What each update of `State` leaves as it was, field by field, and what a read after a write of one table gives.
-/

namespace Sys2Proof.Machine

variable (s : State)

section
variable (p : Proc) (c : Core)
@[simp] theorem State.setCore_fills : (s.setCore p c).fills = s.fills := by unfold State.setCore; split <;> rfl
@[simp] theorem State.setCore_asks : (s.setCore p c).asks = s.asks := by unfold State.setCore; split <;> rfl
@[simp] theorem State.setCore_out : (s.setCore p c).out = s.out := by unfold State.setCore; split <;> rfl
@[simp] theorem State.setCore_fw : (s.setCore p c).fw = s.fw := by unfold State.setCore; split <;> rfl
@[simp] theorem State.setCore_live0 : (s.setCore p c).live0 = s.live0 := by unfold State.setCore; split <;> rfl
@[simp] theorem State.setCore_live1 : (s.setCore p c).live1 = s.live1 := by unfold State.setCore; split <;> rfl
@[simp] theorem State.setCore_he0 : (s.setCore p c).he0 = s.he0 := by unfold State.setCore; split <;> rfl
@[simp] theorem State.setCore_he1 : (s.setCore p c).he1 = s.he1 := by unfold State.setCore; split <;> rfl
@[simp] theorem State.setCore_own : (s.setCore p c).own = s.own := by unfold State.setCore; split <;> rfl
@[simp] theorem State.setCore_net : (s.setCore p c).net = s.net := by unfold State.setCore; split <;> rfl
@[simp] theorem State.setCore_xport : (s.setCore p c).xport = s.xport := by unfold State.setCore; split <;> rfl
@[simp] theorem State.setCore_stor : (s.setCore p c).stor = s.stor := by unfold State.setCore; split <;> rfl
@[simp] theorem State.setCore_scor : (s.setCore p c).scor = s.scor := by unfold State.setCore; split <;> rfl
@[simp] theorem State.setCore_sec : (s.setCore p c).sec = s.sec := by unfold State.setCore; split <;> rfl
@[simp] theorem State.setCore_twin : (s.setCore p c).twin = s.twin := by unfold State.setCore; split <;> rfl
@[simp] theorem State.setCore_ing : (s.setCore p c).ing = s.ing := by unfold State.setCore; split <;> rfl
@[simp] theorem State.setCore_rst : (s.setCore p c).rst = s.rst := by unfold State.setCore; split <;> rfl
@[simp] theorem State.setCore_bg : (s.setCore p c).bg = s.bg := by unfold State.setCore; split <;> rfl
end

section
variable (f : FlaskId) (v : Flask)
@[simp] theorem State.setFlask_pending : (s.setFlask f v).pending = s.pending := rfl
@[simp] theorem State.setFlask_fresh : (s.setFlask f v).fresh = s.fresh := rfl
@[simp] theorem State.setFlask_fills : (s.setFlask f v).fills = s.fills := rfl
@[simp] theorem State.setFlask_asks : (s.setFlask f v).asks = s.asks := rfl
@[simp] theorem State.setFlask_out : (s.setFlask f v).out = s.out := rfl
@[simp] theorem State.setFlask_regs : (s.setFlask f v).regs = s.regs := rfl
@[simp] theorem State.setFlask_cores : (s.setFlask f v).cores = s.cores := rfl
@[simp] theorem State.setFlask_fwCores : (s.setFlask f v).fwCores = s.fwCores := rfl
@[simp] theorem State.setFlask_clusters : (s.setFlask f v).clusters = s.clusters := rfl
@[simp] theorem State.setFlask_fab : (s.setFlask f v).fab = s.fab := rfl
@[simp] theorem State.setFlask_mem : (s.setFlask f v).mem = s.mem := rfl
@[simp] theorem State.setFlask_fw : (s.setFlask f v).fw = s.fw := rfl
@[simp] theorem State.setFlask_live0 : (s.setFlask f v).live0 = s.live0 := rfl
@[simp] theorem State.setFlask_live1 : (s.setFlask f v).live1 = s.live1 := rfl
@[simp] theorem State.setFlask_he0 : (s.setFlask f v).he0 = s.he0 := rfl
@[simp] theorem State.setFlask_he1 : (s.setFlask f v).he1 = s.he1 := rfl
@[simp] theorem State.setFlask_own : (s.setFlask f v).own = s.own := rfl
@[simp] theorem State.setFlask_phase : (s.setFlask f v).phase = s.phase := rfl
@[simp] theorem State.setFlask_net : (s.setFlask f v).net = s.net := rfl
@[simp] theorem State.setFlask_xport : (s.setFlask f v).xport = s.xport := rfl
@[simp] theorem State.setFlask_stor : (s.setFlask f v).stor = s.stor := rfl
@[simp] theorem State.setFlask_scor : (s.setFlask f v).scor = s.scor := rfl
@[simp] theorem State.setFlask_sec : (s.setFlask f v).sec = s.sec := rfl
@[simp] theorem State.setFlask_twin : (s.setFlask f v).twin = s.twin := rfl
@[simp] theorem State.setFlask_ing : (s.setFlask f v).ing = s.ing := rfl
@[simp] theorem State.setFlask_rst : (s.setFlask f v).rst = s.rst := rfl
@[simp] theorem State.setFlask_bg : (s.setFlask f v).bg = s.bg := rfl
@[simp] theorem State.setFlask_refs : (s.setFlask f v).refs = s.refs := rfl
end

section
variable (off : Nat) (v : Word)
@[simp] theorem State.setReg_pending : (s.setReg off v).pending = s.pending := rfl
@[simp] theorem State.setReg_fresh : (s.setReg off v).fresh = s.fresh := rfl
@[simp] theorem State.setReg_fills : (s.setReg off v).fills = s.fills := rfl
@[simp] theorem State.setReg_asks : (s.setReg off v).asks = s.asks := rfl
@[simp] theorem State.setReg_out : (s.setReg off v).out = s.out := rfl
@[simp] theorem State.setReg_cores : (s.setReg off v).cores = s.cores := rfl
@[simp] theorem State.setReg_fwCores : (s.setReg off v).fwCores = s.fwCores := rfl
@[simp] theorem State.setReg_clusters : (s.setReg off v).clusters = s.clusters := rfl
@[simp] theorem State.setReg_fab : (s.setReg off v).fab = s.fab := rfl
@[simp] theorem State.setReg_mem : (s.setReg off v).mem = s.mem := rfl
@[simp] theorem State.setReg_flasks : (s.setReg off v).flasks = s.flasks := rfl
@[simp] theorem State.setReg_fw : (s.setReg off v).fw = s.fw := rfl
@[simp] theorem State.setReg_live0 : (s.setReg off v).live0 = s.live0 := rfl
@[simp] theorem State.setReg_live1 : (s.setReg off v).live1 = s.live1 := rfl
@[simp] theorem State.setReg_he0 : (s.setReg off v).he0 = s.he0 := rfl
@[simp] theorem State.setReg_he1 : (s.setReg off v).he1 = s.he1 := rfl
@[simp] theorem State.setReg_own : (s.setReg off v).own = s.own := rfl
@[simp] theorem State.setReg_phase : (s.setReg off v).phase = s.phase := rfl
@[simp] theorem State.setReg_net : (s.setReg off v).net = s.net := rfl
@[simp] theorem State.setReg_xport : (s.setReg off v).xport = s.xport := rfl
@[simp] theorem State.setReg_stor : (s.setReg off v).stor = s.stor := rfl
@[simp] theorem State.setReg_scor : (s.setReg off v).scor = s.scor := rfl
@[simp] theorem State.setReg_sec : (s.setReg off v).sec = s.sec := rfl
@[simp] theorem State.setReg_twin : (s.setReg off v).twin = s.twin := rfl
@[simp] theorem State.setReg_ing : (s.setReg off v).ing = s.ing := rfl
@[simp] theorem State.setReg_rst : (s.setReg off v).rst = s.rst := rfl
@[simp] theorem State.setReg_bg : (s.setReg off v).bg = s.bg := rfl
@[simp] theorem State.setReg_refs : (s.setReg off v).refs = s.refs := rfl
end

section
variable (off : Nat)
@[simp] theorem State.count_pending : (s.count off).pending = s.pending := rfl
@[simp] theorem State.count_fresh : (s.count off).fresh = s.fresh := rfl
@[simp] theorem State.count_fills : (s.count off).fills = s.fills := rfl
@[simp] theorem State.count_asks : (s.count off).asks = s.asks := rfl
@[simp] theorem State.count_out : (s.count off).out = s.out := rfl
@[simp] theorem State.count_cores : (s.count off).cores = s.cores := rfl
@[simp] theorem State.count_fwCores : (s.count off).fwCores = s.fwCores := rfl
@[simp] theorem State.count_clusters : (s.count off).clusters = s.clusters := rfl
@[simp] theorem State.count_fab : (s.count off).fab = s.fab := rfl
@[simp] theorem State.count_mem : (s.count off).mem = s.mem := rfl
@[simp] theorem State.count_flasks : (s.count off).flasks = s.flasks := rfl
@[simp] theorem State.count_fw : (s.count off).fw = s.fw := rfl
@[simp] theorem State.count_live0 : (s.count off).live0 = s.live0 := rfl
@[simp] theorem State.count_live1 : (s.count off).live1 = s.live1 := rfl
@[simp] theorem State.count_he0 : (s.count off).he0 = s.he0 := rfl
@[simp] theorem State.count_he1 : (s.count off).he1 = s.he1 := rfl
@[simp] theorem State.count_own : (s.count off).own = s.own := rfl
@[simp] theorem State.count_phase : (s.count off).phase = s.phase := rfl
@[simp] theorem State.count_net : (s.count off).net = s.net := rfl
@[simp] theorem State.count_xport : (s.count off).xport = s.xport := rfl
@[simp] theorem State.count_stor : (s.count off).stor = s.stor := rfl
@[simp] theorem State.count_scor : (s.count off).scor = s.scor := rfl
@[simp] theorem State.count_sec : (s.count off).sec = s.sec := rfl
@[simp] theorem State.count_twin : (s.count off).twin = s.twin := rfl
@[simp] theorem State.count_ing : (s.count off).ing = s.ing := rfl
@[simp] theorem State.count_rst : (s.count off).rst = s.rst := rfl
@[simp] theorem State.count_bg : (s.count off).bg = s.bg := rfl
@[simp] theorem State.count_refs : (s.count off).refs = s.refs := rfl
end

section
variable (cl : ClusterId) (c : Cluster)
@[simp] theorem State.setCluster_pending : (s.setCluster cl c).pending = s.pending := rfl
@[simp] theorem State.setCluster_fresh : (s.setCluster cl c).fresh = s.fresh := rfl
@[simp] theorem State.setCluster_fills : (s.setCluster cl c).fills = s.fills := rfl
@[simp] theorem State.setCluster_asks : (s.setCluster cl c).asks = s.asks := rfl
@[simp] theorem State.setCluster_out : (s.setCluster cl c).out = s.out := rfl
@[simp] theorem State.setCluster_regs : (s.setCluster cl c).regs = s.regs := rfl
@[simp] theorem State.setCluster_cores : (s.setCluster cl c).cores = s.cores := rfl
@[simp] theorem State.setCluster_fwCores : (s.setCluster cl c).fwCores = s.fwCores := rfl
@[simp] theorem State.setCluster_fab : (s.setCluster cl c).fab = s.fab := rfl
@[simp] theorem State.setCluster_mem : (s.setCluster cl c).mem = s.mem := rfl
@[simp] theorem State.setCluster_flasks : (s.setCluster cl c).flasks = s.flasks := rfl
@[simp] theorem State.setCluster_fw : (s.setCluster cl c).fw = s.fw := rfl
@[simp] theorem State.setCluster_live0 : (s.setCluster cl c).live0 = s.live0 := rfl
@[simp] theorem State.setCluster_live1 : (s.setCluster cl c).live1 = s.live1 := rfl
@[simp] theorem State.setCluster_he0 : (s.setCluster cl c).he0 = s.he0 := rfl
@[simp] theorem State.setCluster_he1 : (s.setCluster cl c).he1 = s.he1 := rfl
@[simp] theorem State.setCluster_own : (s.setCluster cl c).own = s.own := rfl
@[simp] theorem State.setCluster_phase : (s.setCluster cl c).phase = s.phase := rfl
@[simp] theorem State.setCluster_net : (s.setCluster cl c).net = s.net := rfl
@[simp] theorem State.setCluster_xport : (s.setCluster cl c).xport = s.xport := rfl
@[simp] theorem State.setCluster_stor : (s.setCluster cl c).stor = s.stor := rfl
@[simp] theorem State.setCluster_scor : (s.setCluster cl c).scor = s.scor := rfl
@[simp] theorem State.setCluster_sec : (s.setCluster cl c).sec = s.sec := rfl
@[simp] theorem State.setCluster_twin : (s.setCluster cl c).twin = s.twin := rfl
@[simp] theorem State.setCluster_ing : (s.setCluster cl c).ing = s.ing := rfl
@[simp] theorem State.setCluster_rst : (s.setCluster cl c).rst = s.rst := rfl
@[simp] theorem State.setCluster_bg : (s.setCluster cl c).bg = s.bg := rfl
@[simp] theorem State.setCluster_refs : (s.setCluster cl c).refs = s.refs := rfl
end

section
variable (o : Out)
@[simp] theorem State.emit_pending : (s.emit o).pending = s.pending := rfl
@[simp] theorem State.emit_fresh : (s.emit o).fresh = s.fresh := rfl
@[simp] theorem State.emit_fills : (s.emit o).fills = s.fills := rfl
@[simp] theorem State.emit_asks : (s.emit o).asks = s.asks := rfl
@[simp] theorem State.emit_regs : (s.emit o).regs = s.regs := rfl
@[simp] theorem State.emit_cores : (s.emit o).cores = s.cores := rfl
@[simp] theorem State.emit_fwCores : (s.emit o).fwCores = s.fwCores := rfl
@[simp] theorem State.emit_clusters : (s.emit o).clusters = s.clusters := rfl
@[simp] theorem State.emit_fab : (s.emit o).fab = s.fab := rfl
@[simp] theorem State.emit_mem : (s.emit o).mem = s.mem := rfl
@[simp] theorem State.emit_flasks : (s.emit o).flasks = s.flasks := rfl
@[simp] theorem State.emit_fw : (s.emit o).fw = s.fw := rfl
@[simp] theorem State.emit_live0 : (s.emit o).live0 = s.live0 := rfl
@[simp] theorem State.emit_live1 : (s.emit o).live1 = s.live1 := rfl
@[simp] theorem State.emit_he0 : (s.emit o).he0 = s.he0 := rfl
@[simp] theorem State.emit_he1 : (s.emit o).he1 = s.he1 := rfl
@[simp] theorem State.emit_own : (s.emit o).own = s.own := rfl
@[simp] theorem State.emit_phase : (s.emit o).phase = s.phase := rfl
@[simp] theorem State.emit_net : (s.emit o).net = s.net := rfl
@[simp] theorem State.emit_xport : (s.emit o).xport = s.xport := rfl
@[simp] theorem State.emit_stor : (s.emit o).stor = s.stor := rfl
@[simp] theorem State.emit_scor : (s.emit o).scor = s.scor := rfl
@[simp] theorem State.emit_sec : (s.emit o).sec = s.sec := rfl
@[simp] theorem State.emit_twin : (s.emit o).twin = s.twin := rfl
@[simp] theorem State.emit_ing : (s.emit o).ing = s.ing := rfl
@[simp] theorem State.emit_rst : (s.emit o).rst = s.rst := rfl
@[simp] theorem State.emit_bg : (s.emit o).bg = s.bg := rfl
@[simp] theorem State.emit_refs : (s.emit o).refs = s.refs := rfl
end

section
@[simp] theorem State.took_pending : (s.took).pending = s.pending := rfl
@[simp] theorem State.took_fills : (s.took).fills = s.fills := rfl
@[simp] theorem State.took_asks : (s.took).asks = s.asks := rfl
@[simp] theorem State.took_out : (s.took).out = s.out := rfl
@[simp] theorem State.took_regs : (s.took).regs = s.regs := rfl
@[simp] theorem State.took_cores : (s.took).cores = s.cores := rfl
@[simp] theorem State.took_fwCores : (s.took).fwCores = s.fwCores := rfl
@[simp] theorem State.took_clusters : (s.took).clusters = s.clusters := rfl
@[simp] theorem State.took_fab : (s.took).fab = s.fab := rfl
@[simp] theorem State.took_mem : (s.took).mem = s.mem := rfl
@[simp] theorem State.took_flasks : (s.took).flasks = s.flasks := rfl
@[simp] theorem State.took_fw : (s.took).fw = s.fw := rfl
@[simp] theorem State.took_live0 : (s.took).live0 = s.live0 := rfl
@[simp] theorem State.took_live1 : (s.took).live1 = s.live1 := rfl
@[simp] theorem State.took_he0 : (s.took).he0 = s.he0 := rfl
@[simp] theorem State.took_he1 : (s.took).he1 = s.he1 := rfl
@[simp] theorem State.took_own : (s.took).own = s.own := rfl
@[simp] theorem State.took_phase : (s.took).phase = s.phase := rfl
@[simp] theorem State.took_net : (s.took).net = s.net := rfl
@[simp] theorem State.took_xport : (s.took).xport = s.xport := rfl
@[simp] theorem State.took_stor : (s.took).stor = s.stor := rfl
@[simp] theorem State.took_scor : (s.took).scor = s.scor := rfl
@[simp] theorem State.took_sec : (s.took).sec = s.sec := rfl
@[simp] theorem State.took_twin : (s.took).twin = s.twin := rfl
@[simp] theorem State.took_ing : (s.took).ing = s.ing := rfl
@[simp] theorem State.took_rst : (s.took).rst = s.rst := rfl
@[simp] theorem State.took_bg : (s.took).bg = s.bg := rfl
@[simp] theorem State.took_refs : (s.took).refs = s.refs := rfl
end

section
variable (w : TripWord)
@[simp] theorem State.writeTrip_pending : (s.writeTrip w).pending = s.pending := rfl
@[simp] theorem State.writeTrip_fresh : (s.writeTrip w).fresh = s.fresh := rfl
@[simp] theorem State.writeTrip_fills : (s.writeTrip w).fills = s.fills := rfl
@[simp] theorem State.writeTrip_asks : (s.writeTrip w).asks = s.asks := rfl
@[simp] theorem State.writeTrip_out : (s.writeTrip w).out = s.out := rfl
@[simp] theorem State.writeTrip_regs : (s.writeTrip w).regs = s.regs := rfl
@[simp] theorem State.writeTrip_cores : (s.writeTrip w).cores = s.cores := rfl
@[simp] theorem State.writeTrip_fwCores : (s.writeTrip w).fwCores = s.fwCores := rfl
@[simp] theorem State.writeTrip_clusters : (s.writeTrip w).clusters = s.clusters := rfl
@[simp] theorem State.writeTrip_fab : (s.writeTrip w).fab = s.fab := rfl
@[simp] theorem State.writeTrip_flasks : (s.writeTrip w).flasks = s.flasks := rfl
@[simp] theorem State.writeTrip_fw : (s.writeTrip w).fw = s.fw := rfl
@[simp] theorem State.writeTrip_live0 : (s.writeTrip w).live0 = s.live0 := rfl
@[simp] theorem State.writeTrip_live1 : (s.writeTrip w).live1 = s.live1 := rfl
@[simp] theorem State.writeTrip_he0 : (s.writeTrip w).he0 = s.he0 := rfl
@[simp] theorem State.writeTrip_he1 : (s.writeTrip w).he1 = s.he1 := rfl
@[simp] theorem State.writeTrip_own : (s.writeTrip w).own = s.own := rfl
@[simp] theorem State.writeTrip_phase : (s.writeTrip w).phase = s.phase := rfl
@[simp] theorem State.writeTrip_net : (s.writeTrip w).net = s.net := rfl
@[simp] theorem State.writeTrip_xport : (s.writeTrip w).xport = s.xport := rfl
@[simp] theorem State.writeTrip_stor : (s.writeTrip w).stor = s.stor := rfl
@[simp] theorem State.writeTrip_scor : (s.writeTrip w).scor = s.scor := rfl
@[simp] theorem State.writeTrip_sec : (s.writeTrip w).sec = s.sec := rfl
@[simp] theorem State.writeTrip_twin : (s.writeTrip w).twin = s.twin := rfl
@[simp] theorem State.writeTrip_ing : (s.writeTrip w).ing = s.ing := rfl
@[simp] theorem State.writeTrip_rst : (s.writeTrip w).rst = s.rst := rfl
@[simp] theorem State.writeTrip_bg : (s.writeTrip w).bg = s.bg := rfl
@[simp] theorem State.writeTrip_refs : (s.writeTrip w).refs = s.refs := rfl
end

section
variable (w : TripWord)
@[simp] theorem State.repairTrip_pending : (s.repairTrip w).pending = s.pending := rfl
@[simp] theorem State.repairTrip_fresh : (s.repairTrip w).fresh = s.fresh := rfl
@[simp] theorem State.repairTrip_fills : (s.repairTrip w).fills = s.fills := rfl
@[simp] theorem State.repairTrip_asks : (s.repairTrip w).asks = s.asks := rfl
@[simp] theorem State.repairTrip_out : (s.repairTrip w).out = s.out := rfl
@[simp] theorem State.repairTrip_regs : (s.repairTrip w).regs = s.regs := rfl
@[simp] theorem State.repairTrip_cores : (s.repairTrip w).cores = s.cores := rfl
@[simp] theorem State.repairTrip_fwCores : (s.repairTrip w).fwCores = s.fwCores := rfl
@[simp] theorem State.repairTrip_clusters : (s.repairTrip w).clusters = s.clusters := rfl
@[simp] theorem State.repairTrip_fab : (s.repairTrip w).fab = s.fab := rfl
@[simp] theorem State.repairTrip_flasks : (s.repairTrip w).flasks = s.flasks := rfl
@[simp] theorem State.repairTrip_fw : (s.repairTrip w).fw = s.fw := rfl
@[simp] theorem State.repairTrip_live0 : (s.repairTrip w).live0 = s.live0 := rfl
@[simp] theorem State.repairTrip_live1 : (s.repairTrip w).live1 = s.live1 := rfl
@[simp] theorem State.repairTrip_he0 : (s.repairTrip w).he0 = s.he0 := rfl
@[simp] theorem State.repairTrip_he1 : (s.repairTrip w).he1 = s.he1 := rfl
@[simp] theorem State.repairTrip_own : (s.repairTrip w).own = s.own := rfl
@[simp] theorem State.repairTrip_phase : (s.repairTrip w).phase = s.phase := rfl
@[simp] theorem State.repairTrip_net : (s.repairTrip w).net = s.net := rfl
@[simp] theorem State.repairTrip_xport : (s.repairTrip w).xport = s.xport := rfl
@[simp] theorem State.repairTrip_stor : (s.repairTrip w).stor = s.stor := rfl
@[simp] theorem State.repairTrip_scor : (s.repairTrip w).scor = s.scor := rfl
@[simp] theorem State.repairTrip_sec : (s.repairTrip w).sec = s.sec := rfl
@[simp] theorem State.repairTrip_twin : (s.repairTrip w).twin = s.twin := rfl
@[simp] theorem State.repairTrip_ing : (s.repairTrip w).ing = s.ing := rfl
@[simp] theorem State.repairTrip_rst : (s.repairTrip w).rst = s.rst := rfl
@[simp] theorem State.repairTrip_bg : (s.repairTrip w).bg = s.bg := rfl
@[simp] theorem State.repairTrip_refs : (s.repairTrip w).refs = s.refs := rfl
end

section
variable (d : Nat)
@[simp] theorem State.tick_pending : (s.tick d).pending = s.pending := rfl
@[simp] theorem State.tick_fills : (s.tick d).fills = s.fills := rfl
@[simp] theorem State.tick_asks : (s.tick d).asks = s.asks := rfl
@[simp] theorem State.tick_out : (s.tick d).out = s.out := rfl
@[simp] theorem State.tick_regs : (s.tick d).regs = s.regs := rfl
@[simp] theorem State.tick_cores : (s.tick d).cores = s.cores := rfl
@[simp] theorem State.tick_fwCores : (s.tick d).fwCores = s.fwCores := rfl
@[simp] theorem State.tick_clusters : (s.tick d).clusters = s.clusters := rfl
@[simp] theorem State.tick_fab : (s.tick d).fab = s.fab := rfl
@[simp] theorem State.tick_mem : (s.tick d).mem = s.mem := rfl
@[simp] theorem State.tick_flasks : (s.tick d).flasks = s.flasks := rfl
@[simp] theorem State.tick_fw : (s.tick d).fw = s.fw := rfl
@[simp] theorem State.tick_live0 : (s.tick d).live0 = s.live0 := rfl
@[simp] theorem State.tick_live1 : (s.tick d).live1 = s.live1 := rfl
@[simp] theorem State.tick_he0 : (s.tick d).he0 = s.he0 := rfl
@[simp] theorem State.tick_he1 : (s.tick d).he1 = s.he1 := rfl
@[simp] theorem State.tick_own : (s.tick d).own = s.own := rfl
@[simp] theorem State.tick_phase : (s.tick d).phase = s.phase := rfl
@[simp] theorem State.tick_net : (s.tick d).net = s.net := rfl
@[simp] theorem State.tick_xport : (s.tick d).xport = s.xport := rfl
@[simp] theorem State.tick_stor : (s.tick d).stor = s.stor := rfl
@[simp] theorem State.tick_scor : (s.tick d).scor = s.scor := rfl
@[simp] theorem State.tick_sec : (s.tick d).sec = s.sec := rfl
@[simp] theorem State.tick_twin : (s.tick d).twin = s.twin := rfl
@[simp] theorem State.tick_ing : (s.tick d).ing = s.ing := rfl
@[simp] theorem State.tick_rst : (s.tick d).rst = s.rst := rfl
@[simp] theorem State.tick_bg : (s.tick d).bg = s.bg := rfl
end

section
variable (p : Port) (x : NetPort)
@[simp] theorem State.setPort_pending : (s.setPort p x).pending = s.pending := rfl
@[simp] theorem State.setPort_fresh : (s.setPort p x).fresh = s.fresh := rfl
@[simp] theorem State.setPort_fills : (s.setPort p x).fills = s.fills := rfl
@[simp] theorem State.setPort_asks : (s.setPort p x).asks = s.asks := rfl
@[simp] theorem State.setPort_out : (s.setPort p x).out = s.out := rfl
@[simp] theorem State.setPort_regs : (s.setPort p x).regs = s.regs := rfl
@[simp] theorem State.setPort_cores : (s.setPort p x).cores = s.cores := rfl
@[simp] theorem State.setPort_fwCores : (s.setPort p x).fwCores = s.fwCores := rfl
@[simp] theorem State.setPort_clusters : (s.setPort p x).clusters = s.clusters := rfl
@[simp] theorem State.setPort_fab : (s.setPort p x).fab = s.fab := rfl
@[simp] theorem State.setPort_mem : (s.setPort p x).mem = s.mem := rfl
@[simp] theorem State.setPort_flasks : (s.setPort p x).flasks = s.flasks := rfl
@[simp] theorem State.setPort_fw : (s.setPort p x).fw = s.fw := rfl
@[simp] theorem State.setPort_live0 : (s.setPort p x).live0 = s.live0 := rfl
@[simp] theorem State.setPort_live1 : (s.setPort p x).live1 = s.live1 := rfl
@[simp] theorem State.setPort_he0 : (s.setPort p x).he0 = s.he0 := rfl
@[simp] theorem State.setPort_he1 : (s.setPort p x).he1 = s.he1 := rfl
@[simp] theorem State.setPort_own : (s.setPort p x).own = s.own := rfl
@[simp] theorem State.setPort_phase : (s.setPort p x).phase = s.phase := rfl
@[simp] theorem State.setPort_xport : (s.setPort p x).xport = s.xport := rfl
@[simp] theorem State.setPort_stor : (s.setPort p x).stor = s.stor := rfl
@[simp] theorem State.setPort_scor : (s.setPort p x).scor = s.scor := rfl
@[simp] theorem State.setPort_sec : (s.setPort p x).sec = s.sec := rfl
@[simp] theorem State.setPort_twin : (s.setPort p x).twin = s.twin := rfl
@[simp] theorem State.setPort_ing : (s.setPort p x).ing = s.ing := rfl
@[simp] theorem State.setPort_rst : (s.setPort p x).rst = s.rst := rfl
@[simp] theorem State.setPort_bg : (s.setPort p x).bg = s.bg := rfl
@[simp] theorem State.setPort_refs : (s.setPort p x).refs = s.refs := rfl
end

section
variable (c : Nat) (x : Option NetClass)
@[simp] theorem State.setNetClass_pending : (s.setNetClass c x).pending = s.pending := rfl
@[simp] theorem State.setNetClass_fresh : (s.setNetClass c x).fresh = s.fresh := rfl
@[simp] theorem State.setNetClass_fills : (s.setNetClass c x).fills = s.fills := rfl
@[simp] theorem State.setNetClass_asks : (s.setNetClass c x).asks = s.asks := rfl
@[simp] theorem State.setNetClass_out : (s.setNetClass c x).out = s.out := rfl
@[simp] theorem State.setNetClass_regs : (s.setNetClass c x).regs = s.regs := rfl
@[simp] theorem State.setNetClass_cores : (s.setNetClass c x).cores = s.cores := rfl
@[simp] theorem State.setNetClass_fwCores : (s.setNetClass c x).fwCores = s.fwCores := rfl
@[simp] theorem State.setNetClass_clusters : (s.setNetClass c x).clusters = s.clusters := rfl
@[simp] theorem State.setNetClass_fab : (s.setNetClass c x).fab = s.fab := rfl
@[simp] theorem State.setNetClass_mem : (s.setNetClass c x).mem = s.mem := rfl
@[simp] theorem State.setNetClass_flasks : (s.setNetClass c x).flasks = s.flasks := rfl
@[simp] theorem State.setNetClass_fw : (s.setNetClass c x).fw = s.fw := rfl
@[simp] theorem State.setNetClass_live0 : (s.setNetClass c x).live0 = s.live0 := rfl
@[simp] theorem State.setNetClass_live1 : (s.setNetClass c x).live1 = s.live1 := rfl
@[simp] theorem State.setNetClass_he0 : (s.setNetClass c x).he0 = s.he0 := rfl
@[simp] theorem State.setNetClass_he1 : (s.setNetClass c x).he1 = s.he1 := rfl
@[simp] theorem State.setNetClass_own : (s.setNetClass c x).own = s.own := rfl
@[simp] theorem State.setNetClass_phase : (s.setNetClass c x).phase = s.phase := rfl
@[simp] theorem State.setNetClass_xport : (s.setNetClass c x).xport = s.xport := rfl
@[simp] theorem State.setNetClass_stor : (s.setNetClass c x).stor = s.stor := rfl
@[simp] theorem State.setNetClass_scor : (s.setNetClass c x).scor = s.scor := rfl
@[simp] theorem State.setNetClass_sec : (s.setNetClass c x).sec = s.sec := rfl
@[simp] theorem State.setNetClass_twin : (s.setNetClass c x).twin = s.twin := rfl
@[simp] theorem State.setNetClass_ing : (s.setNetClass c x).ing = s.ing := rfl
@[simp] theorem State.setNetClass_rst : (s.setNetClass c x).rst = s.rst := rfl
@[simp] theorem State.setNetClass_bg : (s.setNetClass c x).bg = s.bg := rfl
@[simp] theorem State.setNetClass_refs : (s.setNetClass c x).refs = s.refs := rfl
end

section
variable (i : Nat) (x : Shaper)
@[simp] theorem State.setShaper_pending : (s.setShaper i x).pending = s.pending := rfl
@[simp] theorem State.setShaper_fresh : (s.setShaper i x).fresh = s.fresh := rfl
@[simp] theorem State.setShaper_fills : (s.setShaper i x).fills = s.fills := rfl
@[simp] theorem State.setShaper_asks : (s.setShaper i x).asks = s.asks := rfl
@[simp] theorem State.setShaper_out : (s.setShaper i x).out = s.out := rfl
@[simp] theorem State.setShaper_regs : (s.setShaper i x).regs = s.regs := rfl
@[simp] theorem State.setShaper_cores : (s.setShaper i x).cores = s.cores := rfl
@[simp] theorem State.setShaper_fwCores : (s.setShaper i x).fwCores = s.fwCores := rfl
@[simp] theorem State.setShaper_clusters : (s.setShaper i x).clusters = s.clusters := rfl
@[simp] theorem State.setShaper_fab : (s.setShaper i x).fab = s.fab := rfl
@[simp] theorem State.setShaper_mem : (s.setShaper i x).mem = s.mem := rfl
@[simp] theorem State.setShaper_flasks : (s.setShaper i x).flasks = s.flasks := rfl
@[simp] theorem State.setShaper_fw : (s.setShaper i x).fw = s.fw := rfl
@[simp] theorem State.setShaper_live0 : (s.setShaper i x).live0 = s.live0 := rfl
@[simp] theorem State.setShaper_live1 : (s.setShaper i x).live1 = s.live1 := rfl
@[simp] theorem State.setShaper_he0 : (s.setShaper i x).he0 = s.he0 := rfl
@[simp] theorem State.setShaper_he1 : (s.setShaper i x).he1 = s.he1 := rfl
@[simp] theorem State.setShaper_own : (s.setShaper i x).own = s.own := rfl
@[simp] theorem State.setShaper_phase : (s.setShaper i x).phase = s.phase := rfl
@[simp] theorem State.setShaper_xport : (s.setShaper i x).xport = s.xport := rfl
@[simp] theorem State.setShaper_stor : (s.setShaper i x).stor = s.stor := rfl
@[simp] theorem State.setShaper_scor : (s.setShaper i x).scor = s.scor := rfl
@[simp] theorem State.setShaper_sec : (s.setShaper i x).sec = s.sec := rfl
@[simp] theorem State.setShaper_twin : (s.setShaper i x).twin = s.twin := rfl
@[simp] theorem State.setShaper_ing : (s.setShaper i x).ing = s.ing := rfl
@[simp] theorem State.setShaper_rst : (s.setShaper i x).rst = s.rst := rfl
@[simp] theorem State.setShaper_bg : (s.setShaper i x).bg = s.bg := rfl
@[simp] theorem State.setShaper_refs : (s.setShaper i x).refs = s.refs := rfl
end

section
variable (i : Nat) (ws : List Word)
@[simp] theorem State.putRule_pending : (s.putRule i ws).pending = s.pending := rfl
@[simp] theorem State.putRule_fresh : (s.putRule i ws).fresh = s.fresh := rfl
@[simp] theorem State.putRule_fills : (s.putRule i ws).fills = s.fills := rfl
@[simp] theorem State.putRule_asks : (s.putRule i ws).asks = s.asks := rfl
@[simp] theorem State.putRule_out : (s.putRule i ws).out = s.out := rfl
@[simp] theorem State.putRule_regs : (s.putRule i ws).regs = s.regs := rfl
@[simp] theorem State.putRule_cores : (s.putRule i ws).cores = s.cores := rfl
@[simp] theorem State.putRule_fwCores : (s.putRule i ws).fwCores = s.fwCores := rfl
@[simp] theorem State.putRule_clusters : (s.putRule i ws).clusters = s.clusters := rfl
@[simp] theorem State.putRule_fab : (s.putRule i ws).fab = s.fab := rfl
@[simp] theorem State.putRule_mem : (s.putRule i ws).mem = s.mem := rfl
@[simp] theorem State.putRule_flasks : (s.putRule i ws).flasks = s.flasks := rfl
@[simp] theorem State.putRule_fw : (s.putRule i ws).fw = s.fw := rfl
@[simp] theorem State.putRule_live0 : (s.putRule i ws).live0 = s.live0 := rfl
@[simp] theorem State.putRule_live1 : (s.putRule i ws).live1 = s.live1 := rfl
@[simp] theorem State.putRule_he0 : (s.putRule i ws).he0 = s.he0 := rfl
@[simp] theorem State.putRule_he1 : (s.putRule i ws).he1 = s.he1 := rfl
@[simp] theorem State.putRule_own : (s.putRule i ws).own = s.own := rfl
@[simp] theorem State.putRule_phase : (s.putRule i ws).phase = s.phase := rfl
@[simp] theorem State.putRule_xport : (s.putRule i ws).xport = s.xport := rfl
@[simp] theorem State.putRule_stor : (s.putRule i ws).stor = s.stor := rfl
@[simp] theorem State.putRule_scor : (s.putRule i ws).scor = s.scor := rfl
@[simp] theorem State.putRule_sec : (s.putRule i ws).sec = s.sec := rfl
@[simp] theorem State.putRule_twin : (s.putRule i ws).twin = s.twin := rfl
@[simp] theorem State.putRule_ing : (s.putRule i ws).ing = s.ing := rfl
@[simp] theorem State.putRule_rst : (s.putRule i ws).rst = s.rst := rfl
@[simp] theorem State.putRule_bg : (s.putRule i ws).bg = s.bg := rfl
@[simp] theorem State.putRule_refs : (s.putRule i ws).refs = s.refs := rfl
end

section
variable (n : Nat) (q : Qp)
@[simp] theorem State.setQp_pending : (s.setQp n q).pending = s.pending := rfl
@[simp] theorem State.setQp_fresh : (s.setQp n q).fresh = s.fresh := rfl
@[simp] theorem State.setQp_fills : (s.setQp n q).fills = s.fills := rfl
@[simp] theorem State.setQp_asks : (s.setQp n q).asks = s.asks := rfl
@[simp] theorem State.setQp_out : (s.setQp n q).out = s.out := rfl
@[simp] theorem State.setQp_regs : (s.setQp n q).regs = s.regs := rfl
@[simp] theorem State.setQp_cores : (s.setQp n q).cores = s.cores := rfl
@[simp] theorem State.setQp_fwCores : (s.setQp n q).fwCores = s.fwCores := rfl
@[simp] theorem State.setQp_clusters : (s.setQp n q).clusters = s.clusters := rfl
@[simp] theorem State.setQp_fab : (s.setQp n q).fab = s.fab := rfl
@[simp] theorem State.setQp_mem : (s.setQp n q).mem = s.mem := rfl
@[simp] theorem State.setQp_flasks : (s.setQp n q).flasks = s.flasks := rfl
@[simp] theorem State.setQp_fw : (s.setQp n q).fw = s.fw := rfl
@[simp] theorem State.setQp_live0 : (s.setQp n q).live0 = s.live0 := rfl
@[simp] theorem State.setQp_live1 : (s.setQp n q).live1 = s.live1 := rfl
@[simp] theorem State.setQp_he0 : (s.setQp n q).he0 = s.he0 := rfl
@[simp] theorem State.setQp_he1 : (s.setQp n q).he1 = s.he1 := rfl
@[simp] theorem State.setQp_own : (s.setQp n q).own = s.own := rfl
@[simp] theorem State.setQp_phase : (s.setQp n q).phase = s.phase := rfl
@[simp] theorem State.setQp_net : (s.setQp n q).net = s.net := rfl
@[simp] theorem State.setQp_stor : (s.setQp n q).stor = s.stor := rfl
@[simp] theorem State.setQp_scor : (s.setQp n q).scor = s.scor := rfl
@[simp] theorem State.setQp_sec : (s.setQp n q).sec = s.sec := rfl
@[simp] theorem State.setQp_twin : (s.setQp n q).twin = s.twin := rfl
@[simp] theorem State.setQp_ing : (s.setQp n q).ing = s.ing := rfl
@[simp] theorem State.setQp_rst : (s.setQp n q).rst = s.rst := rfl
@[simp] theorem State.setQp_bg : (s.setQp n q).bg = s.bg := rfl
@[simp] theorem State.setQp_refs : (s.setQp n q).refs = s.refs := rfl
end

section
variable (i : Nat) (m : Option Mr)
@[simp] theorem State.setMr_pending : (s.setMr i m).pending = s.pending := rfl
@[simp] theorem State.setMr_fresh : (s.setMr i m).fresh = s.fresh := rfl
@[simp] theorem State.setMr_fills : (s.setMr i m).fills = s.fills := rfl
@[simp] theorem State.setMr_asks : (s.setMr i m).asks = s.asks := rfl
@[simp] theorem State.setMr_out : (s.setMr i m).out = s.out := rfl
@[simp] theorem State.setMr_regs : (s.setMr i m).regs = s.regs := rfl
@[simp] theorem State.setMr_cores : (s.setMr i m).cores = s.cores := rfl
@[simp] theorem State.setMr_fwCores : (s.setMr i m).fwCores = s.fwCores := rfl
@[simp] theorem State.setMr_clusters : (s.setMr i m).clusters = s.clusters := rfl
@[simp] theorem State.setMr_fab : (s.setMr i m).fab = s.fab := rfl
@[simp] theorem State.setMr_mem : (s.setMr i m).mem = s.mem := rfl
@[simp] theorem State.setMr_flasks : (s.setMr i m).flasks = s.flasks := rfl
@[simp] theorem State.setMr_fw : (s.setMr i m).fw = s.fw := rfl
@[simp] theorem State.setMr_live0 : (s.setMr i m).live0 = s.live0 := rfl
@[simp] theorem State.setMr_live1 : (s.setMr i m).live1 = s.live1 := rfl
@[simp] theorem State.setMr_he0 : (s.setMr i m).he0 = s.he0 := rfl
@[simp] theorem State.setMr_he1 : (s.setMr i m).he1 = s.he1 := rfl
@[simp] theorem State.setMr_own : (s.setMr i m).own = s.own := rfl
@[simp] theorem State.setMr_phase : (s.setMr i m).phase = s.phase := rfl
@[simp] theorem State.setMr_net : (s.setMr i m).net = s.net := rfl
@[simp] theorem State.setMr_stor : (s.setMr i m).stor = s.stor := rfl
@[simp] theorem State.setMr_scor : (s.setMr i m).scor = s.scor := rfl
@[simp] theorem State.setMr_sec : (s.setMr i m).sec = s.sec := rfl
@[simp] theorem State.setMr_twin : (s.setMr i m).twin = s.twin := rfl
@[simp] theorem State.setMr_ing : (s.setMr i m).ing = s.ing := rfl
@[simp] theorem State.setMr_rst : (s.setMr i m).rst = s.rst := rfl
@[simp] theorem State.setMr_bg : (s.setMr i m).bg = s.bg := rfl
@[simp] theorem State.setMr_refs : (s.setMr i m).refs = s.refs := rfl
end

section
variable (p : Port) (d : Drive)
@[simp] theorem State.setDrive_pending : (s.setDrive p d).pending = s.pending := rfl
@[simp] theorem State.setDrive_fresh : (s.setDrive p d).fresh = s.fresh := rfl
@[simp] theorem State.setDrive_fills : (s.setDrive p d).fills = s.fills := rfl
@[simp] theorem State.setDrive_asks : (s.setDrive p d).asks = s.asks := rfl
@[simp] theorem State.setDrive_out : (s.setDrive p d).out = s.out := rfl
@[simp] theorem State.setDrive_regs : (s.setDrive p d).regs = s.regs := rfl
@[simp] theorem State.setDrive_cores : (s.setDrive p d).cores = s.cores := rfl
@[simp] theorem State.setDrive_fwCores : (s.setDrive p d).fwCores = s.fwCores := rfl
@[simp] theorem State.setDrive_clusters : (s.setDrive p d).clusters = s.clusters := rfl
@[simp] theorem State.setDrive_fab : (s.setDrive p d).fab = s.fab := rfl
@[simp] theorem State.setDrive_mem : (s.setDrive p d).mem = s.mem := rfl
@[simp] theorem State.setDrive_flasks : (s.setDrive p d).flasks = s.flasks := rfl
@[simp] theorem State.setDrive_fw : (s.setDrive p d).fw = s.fw := rfl
@[simp] theorem State.setDrive_live0 : (s.setDrive p d).live0 = s.live0 := rfl
@[simp] theorem State.setDrive_live1 : (s.setDrive p d).live1 = s.live1 := rfl
@[simp] theorem State.setDrive_he0 : (s.setDrive p d).he0 = s.he0 := rfl
@[simp] theorem State.setDrive_he1 : (s.setDrive p d).he1 = s.he1 := rfl
@[simp] theorem State.setDrive_own : (s.setDrive p d).own = s.own := rfl
@[simp] theorem State.setDrive_phase : (s.setDrive p d).phase = s.phase := rfl
@[simp] theorem State.setDrive_net : (s.setDrive p d).net = s.net := rfl
@[simp] theorem State.setDrive_xport : (s.setDrive p d).xport = s.xport := rfl
@[simp] theorem State.setDrive_scor : (s.setDrive p d).scor = s.scor := rfl
@[simp] theorem State.setDrive_sec : (s.setDrive p d).sec = s.sec := rfl
@[simp] theorem State.setDrive_twin : (s.setDrive p d).twin = s.twin := rfl
@[simp] theorem State.setDrive_ing : (s.setDrive p d).ing = s.ing := rfl
@[simp] theorem State.setDrive_rst : (s.setDrive p d).rst = s.rst := rfl
@[simp] theorem State.setDrive_bg : (s.setDrive p d).bg = s.bg := rfl
@[simp] theorem State.setDrive_refs : (s.setDrive p d).refs = s.refs := rfl
end

section
variable (k : Nat) (v : Option Volume)
@[simp] theorem State.setVol_pending : (s.setVol k v).pending = s.pending := rfl
@[simp] theorem State.setVol_fresh : (s.setVol k v).fresh = s.fresh := rfl
@[simp] theorem State.setVol_fills : (s.setVol k v).fills = s.fills := rfl
@[simp] theorem State.setVol_asks : (s.setVol k v).asks = s.asks := rfl
@[simp] theorem State.setVol_out : (s.setVol k v).out = s.out := rfl
@[simp] theorem State.setVol_regs : (s.setVol k v).regs = s.regs := rfl
@[simp] theorem State.setVol_cores : (s.setVol k v).cores = s.cores := rfl
@[simp] theorem State.setVol_fwCores : (s.setVol k v).fwCores = s.fwCores := rfl
@[simp] theorem State.setVol_clusters : (s.setVol k v).clusters = s.clusters := rfl
@[simp] theorem State.setVol_fab : (s.setVol k v).fab = s.fab := rfl
@[simp] theorem State.setVol_mem : (s.setVol k v).mem = s.mem := rfl
@[simp] theorem State.setVol_flasks : (s.setVol k v).flasks = s.flasks := rfl
@[simp] theorem State.setVol_fw : (s.setVol k v).fw = s.fw := rfl
@[simp] theorem State.setVol_live0 : (s.setVol k v).live0 = s.live0 := rfl
@[simp] theorem State.setVol_live1 : (s.setVol k v).live1 = s.live1 := rfl
@[simp] theorem State.setVol_he0 : (s.setVol k v).he0 = s.he0 := rfl
@[simp] theorem State.setVol_he1 : (s.setVol k v).he1 = s.he1 := rfl
@[simp] theorem State.setVol_own : (s.setVol k v).own = s.own := rfl
@[simp] theorem State.setVol_phase : (s.setVol k v).phase = s.phase := rfl
@[simp] theorem State.setVol_net : (s.setVol k v).net = s.net := rfl
@[simp] theorem State.setVol_xport : (s.setVol k v).xport = s.xport := rfl
@[simp] theorem State.setVol_scor : (s.setVol k v).scor = s.scor := rfl
@[simp] theorem State.setVol_sec : (s.setVol k v).sec = s.sec := rfl
@[simp] theorem State.setVol_twin : (s.setVol k v).twin = s.twin := rfl
@[simp] theorem State.setVol_ing : (s.setVol k v).ing = s.ing := rfl
@[simp] theorem State.setVol_rst : (s.setVol k v).rst = s.rst := rfl
@[simp] theorem State.setVol_bg : (s.setVol k v).bg = s.bg := rfl
@[simp] theorem State.setVol_refs : (s.setVol k v).refs = s.refs := rfl
end

section
variable (f : List DrvCmd → List DrvCmd)
@[simp] theorem State.setCmds_pending : (s.setCmds f).pending = s.pending := rfl
@[simp] theorem State.setCmds_fresh : (s.setCmds f).fresh = s.fresh := rfl
@[simp] theorem State.setCmds_fills : (s.setCmds f).fills = s.fills := rfl
@[simp] theorem State.setCmds_asks : (s.setCmds f).asks = s.asks := rfl
@[simp] theorem State.setCmds_out : (s.setCmds f).out = s.out := rfl
@[simp] theorem State.setCmds_regs : (s.setCmds f).regs = s.regs := rfl
@[simp] theorem State.setCmds_cores : (s.setCmds f).cores = s.cores := rfl
@[simp] theorem State.setCmds_fwCores : (s.setCmds f).fwCores = s.fwCores := rfl
@[simp] theorem State.setCmds_clusters : (s.setCmds f).clusters = s.clusters := rfl
@[simp] theorem State.setCmds_fab : (s.setCmds f).fab = s.fab := rfl
@[simp] theorem State.setCmds_mem : (s.setCmds f).mem = s.mem := rfl
@[simp] theorem State.setCmds_flasks : (s.setCmds f).flasks = s.flasks := rfl
@[simp] theorem State.setCmds_fw : (s.setCmds f).fw = s.fw := rfl
@[simp] theorem State.setCmds_live0 : (s.setCmds f).live0 = s.live0 := rfl
@[simp] theorem State.setCmds_live1 : (s.setCmds f).live1 = s.live1 := rfl
@[simp] theorem State.setCmds_he0 : (s.setCmds f).he0 = s.he0 := rfl
@[simp] theorem State.setCmds_he1 : (s.setCmds f).he1 = s.he1 := rfl
@[simp] theorem State.setCmds_own : (s.setCmds f).own = s.own := rfl
@[simp] theorem State.setCmds_phase : (s.setCmds f).phase = s.phase := rfl
@[simp] theorem State.setCmds_net : (s.setCmds f).net = s.net := rfl
@[simp] theorem State.setCmds_xport : (s.setCmds f).xport = s.xport := rfl
@[simp] theorem State.setCmds_scor : (s.setCmds f).scor = s.scor := rfl
@[simp] theorem State.setCmds_sec : (s.setCmds f).sec = s.sec := rfl
@[simp] theorem State.setCmds_twin : (s.setCmds f).twin = s.twin := rfl
@[simp] theorem State.setCmds_ing : (s.setCmds f).ing = s.ing := rfl
@[simp] theorem State.setCmds_rst : (s.setCmds f).rst = s.rst := rfl
@[simp] theorem State.setCmds_bg : (s.setCmds f).bg = s.bg := rfl
@[simp] theorem State.setCmds_refs : (s.setCmds f).refs = s.refs := rfl
end

section
variable (i : Nat) (k : KeySlot)
@[simp] theorem State.setSlot_pending : (s.setSlot i k).pending = s.pending := rfl
@[simp] theorem State.setSlot_fresh : (s.setSlot i k).fresh = s.fresh := rfl
@[simp] theorem State.setSlot_fills : (s.setSlot i k).fills = s.fills := rfl
@[simp] theorem State.setSlot_asks : (s.setSlot i k).asks = s.asks := rfl
@[simp] theorem State.setSlot_out : (s.setSlot i k).out = s.out := rfl
@[simp] theorem State.setSlot_regs : (s.setSlot i k).regs = s.regs := rfl
@[simp] theorem State.setSlot_cores : (s.setSlot i k).cores = s.cores := rfl
@[simp] theorem State.setSlot_fwCores : (s.setSlot i k).fwCores = s.fwCores := rfl
@[simp] theorem State.setSlot_clusters : (s.setSlot i k).clusters = s.clusters := rfl
@[simp] theorem State.setSlot_fab : (s.setSlot i k).fab = s.fab := rfl
@[simp] theorem State.setSlot_flasks : (s.setSlot i k).flasks = s.flasks := rfl
@[simp] theorem State.setSlot_fw : (s.setSlot i k).fw = s.fw := rfl
@[simp] theorem State.setSlot_live0 : (s.setSlot i k).live0 = s.live0 := rfl
@[simp] theorem State.setSlot_live1 : (s.setSlot i k).live1 = s.live1 := rfl
@[simp] theorem State.setSlot_he0 : (s.setSlot i k).he0 = s.he0 := rfl
@[simp] theorem State.setSlot_he1 : (s.setSlot i k).he1 = s.he1 := rfl
@[simp] theorem State.setSlot_own : (s.setSlot i k).own = s.own := rfl
@[simp] theorem State.setSlot_phase : (s.setSlot i k).phase = s.phase := rfl
@[simp] theorem State.setSlot_net : (s.setSlot i k).net = s.net := rfl
@[simp] theorem State.setSlot_xport : (s.setSlot i k).xport = s.xport := rfl
@[simp] theorem State.setSlot_stor : (s.setSlot i k).stor = s.stor := rfl
@[simp] theorem State.setSlot_scor : (s.setSlot i k).scor = s.scor := rfl
@[simp] theorem State.setSlot_twin : (s.setSlot i k).twin = s.twin := rfl
@[simp] theorem State.setSlot_ing : (s.setSlot i k).ing = s.ing := rfl
@[simp] theorem State.setSlot_rst : (s.setSlot i k).rst = s.rst := rfl
@[simp] theorem State.setSlot_bg : (s.setSlot i k).bg = s.bg := rfl
@[simp] theorem State.setSlot_refs : (s.setSlot i k).refs = s.refs := rfl
end

section
variable (a : Nat) (v : Option Area)
@[simp] theorem State.setArea_pending : (s.setArea a v).pending = s.pending := rfl
@[simp] theorem State.setArea_fresh : (s.setArea a v).fresh = s.fresh := rfl
@[simp] theorem State.setArea_fills : (s.setArea a v).fills = s.fills := rfl
@[simp] theorem State.setArea_asks : (s.setArea a v).asks = s.asks := rfl
@[simp] theorem State.setArea_out : (s.setArea a v).out = s.out := rfl
@[simp] theorem State.setArea_regs : (s.setArea a v).regs = s.regs := rfl
@[simp] theorem State.setArea_cores : (s.setArea a v).cores = s.cores := rfl
@[simp] theorem State.setArea_fwCores : (s.setArea a v).fwCores = s.fwCores := rfl
@[simp] theorem State.setArea_clusters : (s.setArea a v).clusters = s.clusters := rfl
@[simp] theorem State.setArea_fab : (s.setArea a v).fab = s.fab := rfl
@[simp] theorem State.setArea_mem : (s.setArea a v).mem = s.mem := rfl
@[simp] theorem State.setArea_flasks : (s.setArea a v).flasks = s.flasks := rfl
@[simp] theorem State.setArea_fw : (s.setArea a v).fw = s.fw := rfl
@[simp] theorem State.setArea_live0 : (s.setArea a v).live0 = s.live0 := rfl
@[simp] theorem State.setArea_live1 : (s.setArea a v).live1 = s.live1 := rfl
@[simp] theorem State.setArea_he0 : (s.setArea a v).he0 = s.he0 := rfl
@[simp] theorem State.setArea_he1 : (s.setArea a v).he1 = s.he1 := rfl
@[simp] theorem State.setArea_own : (s.setArea a v).own = s.own := rfl
@[simp] theorem State.setArea_phase : (s.setArea a v).phase = s.phase := rfl
@[simp] theorem State.setArea_net : (s.setArea a v).net = s.net := rfl
@[simp] theorem State.setArea_xport : (s.setArea a v).xport = s.xport := rfl
@[simp] theorem State.setArea_stor : (s.setArea a v).stor = s.stor := rfl
@[simp] theorem State.setArea_scor : (s.setArea a v).scor = s.scor := rfl
@[simp] theorem State.setArea_sec : (s.setArea a v).sec = s.sec := rfl
@[simp] theorem State.setArea_twin : (s.setArea a v).twin = s.twin := rfl
@[simp] theorem State.setArea_rst : (s.setArea a v).rst = s.rst := rfl
@[simp] theorem State.setArea_bg : (s.setArea a v).bg = s.bg := rfl
@[simp] theorem State.setArea_refs : (s.setArea a v).refs = s.refs := rfl
end

section
variable (o : Options)
@[simp] theorem State.setOpt_pending : (s.setOpt o).pending = s.pending := rfl
@[simp] theorem State.setOpt_fresh : (s.setOpt o).fresh = s.fresh := rfl
@[simp] theorem State.setOpt_fills : (s.setOpt o).fills = s.fills := rfl
@[simp] theorem State.setOpt_asks : (s.setOpt o).asks = s.asks := rfl
@[simp] theorem State.setOpt_out : (s.setOpt o).out = s.out := rfl
@[simp] theorem State.setOpt_regs : (s.setOpt o).regs = s.regs := rfl
@[simp] theorem State.setOpt_cores : (s.setOpt o).cores = s.cores := rfl
@[simp] theorem State.setOpt_fwCores : (s.setOpt o).fwCores = s.fwCores := rfl
@[simp] theorem State.setOpt_clusters : (s.setOpt o).clusters = s.clusters := rfl
@[simp] theorem State.setOpt_fab : (s.setOpt o).fab = s.fab := rfl
@[simp] theorem State.setOpt_mem : (s.setOpt o).mem = s.mem := rfl
@[simp] theorem State.setOpt_flasks : (s.setOpt o).flasks = s.flasks := rfl
@[simp] theorem State.setOpt_fw : (s.setOpt o).fw = s.fw := rfl
@[simp] theorem State.setOpt_live0 : (s.setOpt o).live0 = s.live0 := rfl
@[simp] theorem State.setOpt_live1 : (s.setOpt o).live1 = s.live1 := rfl
@[simp] theorem State.setOpt_he0 : (s.setOpt o).he0 = s.he0 := rfl
@[simp] theorem State.setOpt_he1 : (s.setOpt o).he1 = s.he1 := rfl
@[simp] theorem State.setOpt_own : (s.setOpt o).own = s.own := rfl
@[simp] theorem State.setOpt_phase : (s.setOpt o).phase = s.phase := rfl
@[simp] theorem State.setOpt_net : (s.setOpt o).net = s.net := rfl
@[simp] theorem State.setOpt_xport : (s.setOpt o).xport = s.xport := rfl
@[simp] theorem State.setOpt_stor : (s.setOpt o).stor = s.stor := rfl
@[simp] theorem State.setOpt_scor : (s.setOpt o).scor = s.scor := rfl
@[simp] theorem State.setOpt_sec : (s.setOpt o).sec = s.sec := rfl
@[simp] theorem State.setOpt_twin : (s.setOpt o).twin = s.twin := rfl
@[simp] theorem State.setOpt_ing : (s.setOpt o).ing = s.ing := rfl
@[simp] theorem State.setOpt_bg : (s.setOpt o).bg = s.bg := rfl
@[simp] theorem State.setOpt_refs : (s.setOpt o).refs = s.refs := rfl
end

section
variable (t : Twin)
@[simp] theorem State.setTwin_pending : (s.setTwin t).pending = s.pending := rfl
@[simp] theorem State.setTwin_fresh : (s.setTwin t).fresh = s.fresh := rfl
@[simp] theorem State.setTwin_fills : (s.setTwin t).fills = s.fills := rfl
@[simp] theorem State.setTwin_asks : (s.setTwin t).asks = s.asks := rfl
@[simp] theorem State.setTwin_out : (s.setTwin t).out = s.out := rfl
@[simp] theorem State.setTwin_regs : (s.setTwin t).regs = s.regs := rfl
@[simp] theorem State.setTwin_cores : (s.setTwin t).cores = s.cores := rfl
@[simp] theorem State.setTwin_fwCores : (s.setTwin t).fwCores = s.fwCores := rfl
@[simp] theorem State.setTwin_clusters : (s.setTwin t).clusters = s.clusters := rfl
@[simp] theorem State.setTwin_fab : (s.setTwin t).fab = s.fab := rfl
@[simp] theorem State.setTwin_mem : (s.setTwin t).mem = s.mem := rfl
@[simp] theorem State.setTwin_flasks : (s.setTwin t).flasks = s.flasks := rfl
@[simp] theorem State.setTwin_fw : (s.setTwin t).fw = s.fw := rfl
@[simp] theorem State.setTwin_live0 : (s.setTwin t).live0 = s.live0 := rfl
@[simp] theorem State.setTwin_live1 : (s.setTwin t).live1 = s.live1 := rfl
@[simp] theorem State.setTwin_he0 : (s.setTwin t).he0 = s.he0 := rfl
@[simp] theorem State.setTwin_he1 : (s.setTwin t).he1 = s.he1 := rfl
@[simp] theorem State.setTwin_own : (s.setTwin t).own = s.own := rfl
@[simp] theorem State.setTwin_phase : (s.setTwin t).phase = s.phase := rfl
@[simp] theorem State.setTwin_net : (s.setTwin t).net = s.net := rfl
@[simp] theorem State.setTwin_xport : (s.setTwin t).xport = s.xport := rfl
@[simp] theorem State.setTwin_stor : (s.setTwin t).stor = s.stor := rfl
@[simp] theorem State.setTwin_scor : (s.setTwin t).scor = s.scor := rfl
@[simp] theorem State.setTwin_sec : (s.setTwin t).sec = s.sec := rfl
@[simp] theorem State.setTwin_ing : (s.setTwin t).ing = s.ing := rfl
@[simp] theorem State.setTwin_rst : (s.setTwin t).rst = s.rst := rfl
@[simp] theorem State.setTwin_bg : (s.setTwin t).bg = s.bg := rfl
@[simp] theorem State.setTwin_refs : (s.setTwin t).refs = s.refs := rfl
end

section
variable (line : Nat) (x : Option Proc)
@[simp] theorem State.breakResv_pending : (s.breakResv line x).pending = s.pending := rfl
@[simp] theorem State.breakResv_fresh : (s.breakResv line x).fresh = s.fresh := rfl
@[simp] theorem State.breakResv_fills : (s.breakResv line x).fills = s.fills := rfl
@[simp] theorem State.breakResv_asks : (s.breakResv line x).asks = s.asks := rfl
@[simp] theorem State.breakResv_out : (s.breakResv line x).out = s.out := rfl
@[simp] theorem State.breakResv_regs : (s.breakResv line x).regs = s.regs := rfl
@[simp] theorem State.breakResv_clusters : (s.breakResv line x).clusters = s.clusters := rfl
@[simp] theorem State.breakResv_fab : (s.breakResv line x).fab = s.fab := rfl
@[simp] theorem State.breakResv_mem : (s.breakResv line x).mem = s.mem := rfl
@[simp] theorem State.breakResv_flasks : (s.breakResv line x).flasks = s.flasks := rfl
@[simp] theorem State.breakResv_fw : (s.breakResv line x).fw = s.fw := rfl
@[simp] theorem State.breakResv_live0 : (s.breakResv line x).live0 = s.live0 := rfl
@[simp] theorem State.breakResv_live1 : (s.breakResv line x).live1 = s.live1 := rfl
@[simp] theorem State.breakResv_he0 : (s.breakResv line x).he0 = s.he0 := rfl
@[simp] theorem State.breakResv_he1 : (s.breakResv line x).he1 = s.he1 := rfl
@[simp] theorem State.breakResv_own : (s.breakResv line x).own = s.own := rfl
@[simp] theorem State.breakResv_phase : (s.breakResv line x).phase = s.phase := rfl
@[simp] theorem State.breakResv_net : (s.breakResv line x).net = s.net := rfl
@[simp] theorem State.breakResv_xport : (s.breakResv line x).xport = s.xport := rfl
@[simp] theorem State.breakResv_stor : (s.breakResv line x).stor = s.stor := rfl
@[simp] theorem State.breakResv_scor : (s.breakResv line x).scor = s.scor := rfl
@[simp] theorem State.breakResv_sec : (s.breakResv line x).sec = s.sec := rfl
@[simp] theorem State.breakResv_twin : (s.breakResv line x).twin = s.twin := rfl
@[simp] theorem State.breakResv_ing : (s.breakResv line x).ing = s.ing := rfl
@[simp] theorem State.breakResv_rst : (s.breakResv line x).rst = s.rst := rfl
@[simp] theorem State.breakResv_bg : (s.breakResv line x).bg = s.bg := rfl
@[simp] theorem State.breakResv_refs : (s.breakResv line x).refs = s.refs := rfl
end

section
variable (w : Waiter) (r : Reply)
@[simp] theorem State.wakeWith_pending : (s.wakeWith w r).pending = s.pending := rfl
@[simp] theorem State.wakeWith_fresh : (s.wakeWith w r).fresh = s.fresh := rfl
@[simp] theorem State.wakeWith_fills : (s.wakeWith w r).fills = s.fills := rfl
@[simp] theorem State.wakeWith_asks : (s.wakeWith w r).asks = s.asks := rfl
@[simp] theorem State.wakeWith_out : (s.wakeWith w r).out = s.out := rfl
@[simp] theorem State.wakeWith_regs : (s.wakeWith w r).regs = s.regs := rfl
@[simp] theorem State.wakeWith_cores : (s.wakeWith w r).cores = s.cores := rfl
@[simp] theorem State.wakeWith_fwCores : (s.wakeWith w r).fwCores = s.fwCores := rfl
@[simp] theorem State.wakeWith_clusters : (s.wakeWith w r).clusters = s.clusters := rfl
@[simp] theorem State.wakeWith_mem : (s.wakeWith w r).mem = s.mem := rfl
@[simp] theorem State.wakeWith_flasks : (s.wakeWith w r).flasks = s.flasks := rfl
@[simp] theorem State.wakeWith_fw : (s.wakeWith w r).fw = s.fw := rfl
@[simp] theorem State.wakeWith_live0 : (s.wakeWith w r).live0 = s.live0 := rfl
@[simp] theorem State.wakeWith_live1 : (s.wakeWith w r).live1 = s.live1 := rfl
@[simp] theorem State.wakeWith_he0 : (s.wakeWith w r).he0 = s.he0 := rfl
@[simp] theorem State.wakeWith_he1 : (s.wakeWith w r).he1 = s.he1 := rfl
@[simp] theorem State.wakeWith_own : (s.wakeWith w r).own = s.own := rfl
@[simp] theorem State.wakeWith_phase : (s.wakeWith w r).phase = s.phase := rfl
@[simp] theorem State.wakeWith_net : (s.wakeWith w r).net = s.net := rfl
@[simp] theorem State.wakeWith_xport : (s.wakeWith w r).xport = s.xport := rfl
@[simp] theorem State.wakeWith_stor : (s.wakeWith w r).stor = s.stor := rfl
@[simp] theorem State.wakeWith_scor : (s.wakeWith w r).scor = s.scor := rfl
@[simp] theorem State.wakeWith_sec : (s.wakeWith w r).sec = s.sec := rfl
@[simp] theorem State.wakeWith_twin : (s.wakeWith w r).twin = s.twin := rfl
@[simp] theorem State.wakeWith_ing : (s.wakeWith w r).ing = s.ing := rfl
@[simp] theorem State.wakeWith_rst : (s.wakeWith w r).rst = s.rst := rfl
@[simp] theorem State.wakeWith_bg : (s.wakeWith w r).bg = s.bg := rfl
@[simp] theorem State.wakeWith_refs : (s.wakeWith w r).refs = s.refs := rfl
end

section
variable (cl : ClusterId) (event n : Nat)
@[simp] theorem State.clCount_pending : (s.clCount cl event n).pending = s.pending := rfl
@[simp] theorem State.clCount_fresh : (s.clCount cl event n).fresh = s.fresh := rfl
@[simp] theorem State.clCount_fills : (s.clCount cl event n).fills = s.fills := rfl
@[simp] theorem State.clCount_asks : (s.clCount cl event n).asks = s.asks := rfl
@[simp] theorem State.clCount_out : (s.clCount cl event n).out = s.out := rfl
@[simp] theorem State.clCount_regs : (s.clCount cl event n).regs = s.regs := rfl
@[simp] theorem State.clCount_cores : (s.clCount cl event n).cores = s.cores := rfl
@[simp] theorem State.clCount_fwCores : (s.clCount cl event n).fwCores = s.fwCores := rfl
@[simp] theorem State.clCount_clusters : (s.clCount cl event n).clusters = s.clusters := rfl
@[simp] theorem State.clCount_fab : (s.clCount cl event n).fab = s.fab := rfl
@[simp] theorem State.clCount_mem : (s.clCount cl event n).mem = s.mem := rfl
@[simp] theorem State.clCount_flasks : (s.clCount cl event n).flasks = s.flasks := rfl
@[simp] theorem State.clCount_fw : (s.clCount cl event n).fw = s.fw := rfl
@[simp] theorem State.clCount_live0 : (s.clCount cl event n).live0 = s.live0 := rfl
@[simp] theorem State.clCount_live1 : (s.clCount cl event n).live1 = s.live1 := rfl
@[simp] theorem State.clCount_he0 : (s.clCount cl event n).he0 = s.he0 := rfl
@[simp] theorem State.clCount_he1 : (s.clCount cl event n).he1 = s.he1 := rfl
@[simp] theorem State.clCount_own : (s.clCount cl event n).own = s.own := rfl
@[simp] theorem State.clCount_phase : (s.clCount cl event n).phase = s.phase := rfl
@[simp] theorem State.clCount_net : (s.clCount cl event n).net = s.net := rfl
@[simp] theorem State.clCount_xport : (s.clCount cl event n).xport = s.xport := rfl
@[simp] theorem State.clCount_stor : (s.clCount cl event n).stor = s.stor := rfl
@[simp] theorem State.clCount_scor : (s.clCount cl event n).scor = s.scor := rfl
@[simp] theorem State.clCount_sec : (s.clCount cl event n).sec = s.sec := rfl
@[simp] theorem State.clCount_twin : (s.clCount cl event n).twin = s.twin := rfl
@[simp] theorem State.clCount_ing : (s.clCount cl event n).ing = s.ing := rfl
@[simp] theorem State.clCount_rst : (s.clCount cl event n).rst = s.rst := rfl
@[simp] theorem State.clCount_refs : (s.clCount cl event n).refs = s.refs := rfl
end

section
variable (event inst n : Nat)
@[simp] theorem State.hubCount_pending : (s.hubCount event inst n).pending = s.pending := rfl
@[simp] theorem State.hubCount_fresh : (s.hubCount event inst n).fresh = s.fresh := rfl
@[simp] theorem State.hubCount_fills : (s.hubCount event inst n).fills = s.fills := rfl
@[simp] theorem State.hubCount_asks : (s.hubCount event inst n).asks = s.asks := rfl
@[simp] theorem State.hubCount_out : (s.hubCount event inst n).out = s.out := rfl
@[simp] theorem State.hubCount_regs : (s.hubCount event inst n).regs = s.regs := rfl
@[simp] theorem State.hubCount_cores : (s.hubCount event inst n).cores = s.cores := rfl
@[simp] theorem State.hubCount_fwCores : (s.hubCount event inst n).fwCores = s.fwCores := rfl
@[simp] theorem State.hubCount_clusters : (s.hubCount event inst n).clusters = s.clusters := rfl
@[simp] theorem State.hubCount_fab : (s.hubCount event inst n).fab = s.fab := rfl
@[simp] theorem State.hubCount_mem : (s.hubCount event inst n).mem = s.mem := rfl
@[simp] theorem State.hubCount_flasks : (s.hubCount event inst n).flasks = s.flasks := rfl
@[simp] theorem State.hubCount_fw : (s.hubCount event inst n).fw = s.fw := rfl
@[simp] theorem State.hubCount_live0 : (s.hubCount event inst n).live0 = s.live0 := rfl
@[simp] theorem State.hubCount_live1 : (s.hubCount event inst n).live1 = s.live1 := rfl
@[simp] theorem State.hubCount_he0 : (s.hubCount event inst n).he0 = s.he0 := rfl
@[simp] theorem State.hubCount_he1 : (s.hubCount event inst n).he1 = s.he1 := rfl
@[simp] theorem State.hubCount_own : (s.hubCount event inst n).own = s.own := rfl
@[simp] theorem State.hubCount_phase : (s.hubCount event inst n).phase = s.phase := rfl
@[simp] theorem State.hubCount_net : (s.hubCount event inst n).net = s.net := rfl
@[simp] theorem State.hubCount_xport : (s.hubCount event inst n).xport = s.xport := rfl
@[simp] theorem State.hubCount_stor : (s.hubCount event inst n).stor = s.stor := rfl
@[simp] theorem State.hubCount_scor : (s.hubCount event inst n).scor = s.scor := rfl
@[simp] theorem State.hubCount_sec : (s.hubCount event inst n).sec = s.sec := rfl
@[simp] theorem State.hubCount_twin : (s.hubCount event inst n).twin = s.twin := rfl
@[simp] theorem State.hubCount_ing : (s.hubCount event inst n).ing = s.ing := rfl
@[simp] theorem State.hubCount_rst : (s.hubCount event inst n).rst = s.rst := rfl
@[simp] theorem State.hubCount_refs : (s.hubCount event inst n).refs = s.refs := rfl
end

section
variable (e : Ep) (v : Endpoint)
@[simp] theorem State.setEp_pending : (s.setEp e v).pending = s.pending := by unfold State.setEp; split <;> rfl
@[simp] theorem State.setEp_fresh : (s.setEp e v).fresh = s.fresh := by unfold State.setEp; split <;> rfl
@[simp] theorem State.setEp_fills : (s.setEp e v).fills = s.fills := by unfold State.setEp; split <;> rfl
@[simp] theorem State.setEp_asks : (s.setEp e v).asks = s.asks := by unfold State.setEp; split <;> rfl
@[simp] theorem State.setEp_out : (s.setEp e v).out = s.out := by unfold State.setEp; split <;> rfl
@[simp] theorem State.setEp_regs : (s.setEp e v).regs = s.regs := by unfold State.setEp; split <;> rfl
@[simp] theorem State.setEp_cores : (s.setEp e v).cores = s.cores := by unfold State.setEp; split <;> rfl
@[simp] theorem State.setEp_fwCores : (s.setEp e v).fwCores = s.fwCores := by unfold State.setEp; split <;> rfl
@[simp] theorem State.setEp_clusters : (s.setEp e v).clusters = s.clusters := by unfold State.setEp; split <;> rfl
@[simp] theorem State.setEp_fab : (s.setEp e v).fab = s.fab := by unfold State.setEp; split <;> rfl
@[simp] theorem State.setEp_mem : (s.setEp e v).mem = s.mem := by unfold State.setEp; split <;> rfl
@[simp] theorem State.setEp_flasks : (s.setEp e v).flasks = s.flasks := by unfold State.setEp; split <;> rfl
@[simp] theorem State.setEp_fw : (s.setEp e v).fw = s.fw := by unfold State.setEp; split <;> rfl
@[simp] theorem State.setEp_live0 : (s.setEp e v).live0 = s.live0 := by unfold State.setEp; split <;> rfl
@[simp] theorem State.setEp_live1 : (s.setEp e v).live1 = s.live1 := by unfold State.setEp; split <;> rfl
@[simp] theorem State.setEp_own : (s.setEp e v).own = s.own := by unfold State.setEp; split <;> rfl
@[simp] theorem State.setEp_phase : (s.setEp e v).phase = s.phase := by unfold State.setEp; split <;> rfl
@[simp] theorem State.setEp_net : (s.setEp e v).net = s.net := by unfold State.setEp; split <;> rfl
@[simp] theorem State.setEp_xport : (s.setEp e v).xport = s.xport := by unfold State.setEp; split <;> rfl
@[simp] theorem State.setEp_stor : (s.setEp e v).stor = s.stor := by unfold State.setEp; split <;> rfl
@[simp] theorem State.setEp_scor : (s.setEp e v).scor = s.scor := by unfold State.setEp; split <;> rfl
@[simp] theorem State.setEp_sec : (s.setEp e v).sec = s.sec := by unfold State.setEp; split <;> rfl
@[simp] theorem State.setEp_twin : (s.setEp e v).twin = s.twin := by unfold State.setEp; split <;> rfl
@[simp] theorem State.setEp_ing : (s.setEp e v).ing = s.ing := by unfold State.setEp; split <;> rfl
@[simp] theorem State.setEp_rst : (s.setEp e v).rst = s.rst := by unfold State.setEp; split <;> rfl
@[simp] theorem State.setEp_bg : (s.setEp e v).bg = s.bg := by unfold State.setEp; split <;> rfl
@[simp] theorem State.setEp_refs : (s.setEp e v).refs = s.refs := by unfold State.setEp; split <;> rfl
end

section
variable (e : Ep) (v : Live)
@[simp] theorem State.setLive_pending : (s.setLive e v).pending = s.pending := by unfold State.setLive; split <;> rfl
@[simp] theorem State.setLive_fresh : (s.setLive e v).fresh = s.fresh := by unfold State.setLive; split <;> rfl
@[simp] theorem State.setLive_fills : (s.setLive e v).fills = s.fills := by unfold State.setLive; split <;> rfl
@[simp] theorem State.setLive_asks : (s.setLive e v).asks = s.asks := by unfold State.setLive; split <;> rfl
@[simp] theorem State.setLive_out : (s.setLive e v).out = s.out := by unfold State.setLive; split <;> rfl
@[simp] theorem State.setLive_regs : (s.setLive e v).regs = s.regs := by unfold State.setLive; split <;> rfl
@[simp] theorem State.setLive_cores : (s.setLive e v).cores = s.cores := by unfold State.setLive; split <;> rfl
@[simp] theorem State.setLive_fwCores : (s.setLive e v).fwCores = s.fwCores := by unfold State.setLive; split <;> rfl
@[simp] theorem State.setLive_clusters : (s.setLive e v).clusters = s.clusters := by unfold State.setLive; split <;> rfl
@[simp] theorem State.setLive_fab : (s.setLive e v).fab = s.fab := by unfold State.setLive; split <;> rfl
@[simp] theorem State.setLive_mem : (s.setLive e v).mem = s.mem := by unfold State.setLive; split <;> rfl
@[simp] theorem State.setLive_flasks : (s.setLive e v).flasks = s.flasks := by unfold State.setLive; split <;> rfl
@[simp] theorem State.setLive_fw : (s.setLive e v).fw = s.fw := by unfold State.setLive; split <;> rfl
@[simp] theorem State.setLive_he0 : (s.setLive e v).he0 = s.he0 := by unfold State.setLive; split <;> rfl
@[simp] theorem State.setLive_he1 : (s.setLive e v).he1 = s.he1 := by unfold State.setLive; split <;> rfl
@[simp] theorem State.setLive_own : (s.setLive e v).own = s.own := by unfold State.setLive; split <;> rfl
@[simp] theorem State.setLive_phase : (s.setLive e v).phase = s.phase := by unfold State.setLive; split <;> rfl
@[simp] theorem State.setLive_net : (s.setLive e v).net = s.net := by unfold State.setLive; split <;> rfl
@[simp] theorem State.setLive_xport : (s.setLive e v).xport = s.xport := by unfold State.setLive; split <;> rfl
@[simp] theorem State.setLive_stor : (s.setLive e v).stor = s.stor := by unfold State.setLive; split <;> rfl
@[simp] theorem State.setLive_scor : (s.setLive e v).scor = s.scor := by unfold State.setLive; split <;> rfl
@[simp] theorem State.setLive_sec : (s.setLive e v).sec = s.sec := by unfold State.setLive; split <;> rfl
@[simp] theorem State.setLive_twin : (s.setLive e v).twin = s.twin := by unfold State.setLive; split <;> rfl
@[simp] theorem State.setLive_ing : (s.setLive e v).ing = s.ing := by unfold State.setLive; split <;> rfl
@[simp] theorem State.setLive_rst : (s.setLive e v).rst = s.rst := by unfold State.setLive; split <;> rfl
@[simp] theorem State.setLive_bg : (s.setLive e v).bg = s.bg := by unfold State.setLive; split <;> rfl
@[simp] theorem State.setLive_refs : (s.setLive e v).refs = s.refs := by unfold State.setLive; split <;> rfl
end

section
variable (l : LadleRef) (v : Ladle)
@[simp] theorem State.setLadle_pending : (s.setLadle l v).pending = s.pending := by cases l <;> rfl
@[simp] theorem State.setLadle_fresh : (s.setLadle l v).fresh = s.fresh := by cases l <;> rfl
@[simp] theorem State.setLadle_fills : (s.setLadle l v).fills = s.fills := by cases l <;> rfl
@[simp] theorem State.setLadle_asks : (s.setLadle l v).asks = s.asks := by cases l <;> rfl
@[simp] theorem State.setLadle_out : (s.setLadle l v).out = s.out := by cases l <;> rfl
@[simp] theorem State.setLadle_regs : (s.setLadle l v).regs = s.regs := by cases l <;> rfl
@[simp] theorem State.setLadle_cores : (s.setLadle l v).cores = s.cores := by cases l <;> rfl
@[simp] theorem State.setLadle_fwCores : (s.setLadle l v).fwCores = s.fwCores := by cases l <;> rfl
@[simp] theorem State.setLadle_clusters : (s.setLadle l v).clusters = s.clusters := by cases l <;> rfl
@[simp] theorem State.setLadle_fab : (s.setLadle l v).fab = s.fab := by cases l <;> rfl
@[simp] theorem State.setLadle_mem : (s.setLadle l v).mem = s.mem := by cases l <;> rfl
@[simp] theorem State.setLadle_live0 : (s.setLadle l v).live0 = s.live0 := by cases l <;> rfl
@[simp] theorem State.setLadle_live1 : (s.setLadle l v).live1 = s.live1 := by cases l <;> rfl
@[simp] theorem State.setLadle_he0 : (s.setLadle l v).he0 = s.he0 := by cases l <;> rfl
@[simp] theorem State.setLadle_he1 : (s.setLadle l v).he1 = s.he1 := by cases l <;> rfl
@[simp] theorem State.setLadle_own : (s.setLadle l v).own = s.own := by cases l <;> rfl
@[simp] theorem State.setLadle_phase : (s.setLadle l v).phase = s.phase := by cases l <;> rfl
@[simp] theorem State.setLadle_net : (s.setLadle l v).net = s.net := by cases l <;> rfl
@[simp] theorem State.setLadle_xport : (s.setLadle l v).xport = s.xport := by cases l <;> rfl
@[simp] theorem State.setLadle_stor : (s.setLadle l v).stor = s.stor := by cases l <;> rfl
@[simp] theorem State.setLadle_scor : (s.setLadle l v).scor = s.scor := by cases l <;> rfl
@[simp] theorem State.setLadle_sec : (s.setLadle l v).sec = s.sec := by cases l <;> rfl
@[simp] theorem State.setLadle_twin : (s.setLadle l v).twin = s.twin := by cases l <;> rfl
@[simp] theorem State.setLadle_ing : (s.setLadle l v).ing = s.ing := by cases l <;> rfl
@[simp] theorem State.setLadle_rst : (s.setLadle l v).rst = s.rst := by cases l <;> rfl
@[simp] theorem State.setLadle_bg : (s.setLadle l v).bg = s.bg := by cases l <;> rfl
@[simp] theorem State.setLadle_refs : (s.setLadle l v).refs = s.refs := by cases l <;> rfl
end

section
variable (l : LadleRef) (b : EventBox)
@[simp] theorem State.setBox_pending : (s.setBox l b).pending = s.pending := by cases l <;> rfl
@[simp] theorem State.setBox_fresh : (s.setBox l b).fresh = s.fresh := by cases l <;> rfl
@[simp] theorem State.setBox_fills : (s.setBox l b).fills = s.fills := by cases l <;> rfl
@[simp] theorem State.setBox_asks : (s.setBox l b).asks = s.asks := by cases l <;> rfl
@[simp] theorem State.setBox_out : (s.setBox l b).out = s.out := by cases l <;> rfl
@[simp] theorem State.setBox_regs : (s.setBox l b).regs = s.regs := by cases l <;> rfl
@[simp] theorem State.setBox_cores : (s.setBox l b).cores = s.cores := by cases l <;> rfl
@[simp] theorem State.setBox_fwCores : (s.setBox l b).fwCores = s.fwCores := by cases l <;> rfl
@[simp] theorem State.setBox_clusters : (s.setBox l b).clusters = s.clusters := by cases l <;> rfl
@[simp] theorem State.setBox_fab : (s.setBox l b).fab = s.fab := by cases l <;> rfl
@[simp] theorem State.setBox_mem : (s.setBox l b).mem = s.mem := by cases l <;> rfl
@[simp] theorem State.setBox_live0 : (s.setBox l b).live0 = s.live0 := by cases l <;> rfl
@[simp] theorem State.setBox_live1 : (s.setBox l b).live1 = s.live1 := by cases l <;> rfl
@[simp] theorem State.setBox_he0 : (s.setBox l b).he0 = s.he0 := by cases l <;> rfl
@[simp] theorem State.setBox_he1 : (s.setBox l b).he1 = s.he1 := by cases l <;> rfl
@[simp] theorem State.setBox_own : (s.setBox l b).own = s.own := by cases l <;> rfl
@[simp] theorem State.setBox_phase : (s.setBox l b).phase = s.phase := by cases l <;> rfl
@[simp] theorem State.setBox_net : (s.setBox l b).net = s.net := by cases l <;> rfl
@[simp] theorem State.setBox_xport : (s.setBox l b).xport = s.xport := by cases l <;> rfl
@[simp] theorem State.setBox_stor : (s.setBox l b).stor = s.stor := by cases l <;> rfl
@[simp] theorem State.setBox_scor : (s.setBox l b).scor = s.scor := by cases l <;> rfl
@[simp] theorem State.setBox_sec : (s.setBox l b).sec = s.sec := by cases l <;> rfl
@[simp] theorem State.setBox_twin : (s.setBox l b).twin = s.twin := by cases l <;> rfl
@[simp] theorem State.setBox_ing : (s.setBox l b).ing = s.ing := by cases l <;> rfl
@[simp] theorem State.setBox_rst : (s.setBox l b).rst = s.rst := by cases l <;> rfl
@[simp] theorem State.setBox_bg : (s.setBox l b).bg = s.bg := by cases l <;> rfl
@[simp] theorem State.setBox_refs : (s.setBox l b).refs = s.refs := by cases l <;> rfl
end

/-! ### A read after a write -/

@[simp] theorem State.flask_setFlask (f : FlaskId) (v : Flask) : (s.setFlask f v).flask f = v := Tab.get_put_self ..
theorem State.flask_setFlask_ne {f g : FlaskId} (v : Flask) (h : g ≠ f) : (s.setFlask f v).flask g = s.flask g :=
  Tab.get_put_ne _ _ _ (fun e => h (BitVec.eq_of_toNat_eq e))
@[simp] theorem State.reg_setReg (off : Nat) (v : Word) : (s.setReg off v).reg off = v := Tab.get_put_self ..
theorem State.reg_setReg_ne {off k : Nat} (v : Word) (h : k ≠ off) : (s.setReg off v).reg k = s.reg k :=
  Tab.get_put_ne _ _ _ h
@[simp] theorem State.reg_count (off : Nat) : (s.count off).reg off = satInc (s.reg off) := Tab.get_put_self ..
theorem State.reg_count_ne {off k : Nat} (h : k ≠ off) : (s.count off).reg k = s.reg k := s.reg_setReg_ne _ h
@[simp] theorem State.cluster_setCluster (cl : ClusterId) (c : Cluster) : (s.setCluster cl c).cluster cl = c :=
  Tab.get_put_self ..
theorem State.cluster_setCluster_ne {cl k : ClusterId} (c : Cluster) (h : k ≠ cl) : (s.setCluster cl c).cluster k = s.cluster k :=
  Tab.get_put_ne _ _ _ (fun e => h (BitVec.eq_of_toNat_eq e))
@[simp] theorem State.netClass_setNetClass (c : Nat) (x : Option NetClass) : (s.setNetClass c x).netClass c = x :=
  Tab.get_put_self ..
theorem State.netClass_setNetClass_ne {c k : Nat} (x : Option NetClass) (h : k ≠ c) :
    (s.setNetClass c x).netClass k = s.netClass k := Tab.get_put_ne _ _ _ h
@[simp] theorem State.core_setFlask (f : FlaskId) (v : Flask) (p : Proc) : (s.setFlask f v).core p = s.core p := rfl
@[simp] theorem State.core_setReg (off : Nat) (v : Word) (p : Proc) : (s.setReg off v).core p = s.core p := rfl
@[simp] theorem State.core_setCluster (cl : ClusterId) (c : Cluster) (p : Proc) : (s.setCluster cl c).core p = s.core p := rfl
@[simp] theorem State.core_emit (o : Out) (p : Proc) : (s.emit o).core p = s.core p := rfl
@[simp] theorem State.ep_setEp (e : Ep) (v : Endpoint) : (s.setEp e v).ep e = v := by
  unfold State.setEp State.ep; split <;> simp [*]
theorem State.ep_setEp_ne {e k : Ep} (v : Endpoint) (h : k ≠ e) : (s.setEp e v).ep k = s.ep k := by
  have two : ∀ e k : BitVec 1, k ≠ e → (k = 0 ↔ e ≠ 0) := by decide
  have := two e k h
  unfold State.setEp State.ep
  split <;> split <;> simp_all
@[simp] theorem State.ladle_setLadle (l : LadleRef) (v : Ladle) : (s.setLadle l v).ladle l = v := by
  cases l with
  | admin => rfl
  | flask f n =>
    simp only [State.setLadle, State.ladle, State.flask_setFlask]
    exact Tab.get_put_self ..

end Sys2Proof.Machine
end

