-- ==== Sys2Proof/Laws/Keeps.lean ====
section
/-!
SUPPORT. The shared operations keep the stores in canonical form: for each operation that statements and meanings go through,
one lemma that says so.
-/

namespace Sys2Proof.Machine

variable {s : State}

theorem foldl_wf {β : Type} {f : State → β → State} (hf : ∀ s b, s.mem.wf = true → (f s b).mem.wf = true) :
    ∀ (l : List β) {s : State}, s.mem.wf = true → (l.foldl f s).mem.wf = true
  | [], _, h => h
  | b :: l, _, h => foldl_wf hf l (hf _ b h)

theorem foldl_wf_fst {β γ : Type} {f : State × γ → β → State × γ} (hf : ∀ r b, r.1.mem.wf = true → (f r b).1.mem.wf = true) :
    ∀ (l : List β) {r : State × γ}, r.1.mem.wf = true → (l.foldl f r).1.mem.wf = true
  | [], _, h => h
  | b :: l, _, h => foldl_wf_fst hf l (hf _ b h)

theorem foldl_wf_mid {α β γ : Type} {f : α × State × γ → β → α × State × γ}
    (hf : ∀ r b, r.2.1.mem.wf = true → (f r b).2.1.mem.wf = true) :
    ∀ (l : List β) {r : α × State × γ}, r.2.1.mem.wf = true → (l.foldl f r).2.1.mem.wf = true
  | [], _, h => h
  | b :: l, _, h => foldl_wf_mid hf l (hf _ b h)

@[simp] theorem ite_wf {c : Prop} [Decidable c] {a b : State} (ha : a.mem.wf = true) (hb : b.mem.wf = true) :
    (if c then a else b).mem.wf = true := by split <;> assumption

@[simp] theorem Mem.mk_wf {m : Mem} (h : m.wf = true) (a b : Tab Domain) (c : Tab (Option Frozen)) (d e : List Nat)
    (f g : List Repair) (i j : List Nat) (k : List (Nat × Nat × Nat)) (l : List Nat) (n : List (Nat × BitVec 2)) (o : Option Flip)
    (q : Bool) :
    Mem.wf ⟨m.sram, m.sramValid, m.sramMark, m.lp, m.lpValid, m.lpMark, a, b, c, d, e, f, g, i, j, k, l, n, o, q⟩ = true :=
  Mem.wf_congr rfl rfl rfl rfl rfl rfl h

/-- What the body of an instruction answers keeps the stores in canonical form. -/
def Body.keeps : Body → Prop
  | .ok s => s.mem.wf = true
  | .jump s _ => s.mem.wf = true
  | .trap s _ => s.mem.wf = true
  | .wait s _ => s.mem.wf = true

/-- An outcome that goes on has its stores in canonical form. -/
def Keeps (o : Answer) : Prop := ∀ t, o = .next t → t.mem.wf = true

@[simp] theorem Keeps.next {t : State} : Keeps (.next t) ↔ t.mem.wf = true :=
  ⟨fun h => h t rfl, fun h u e => by cases e; exact h⟩
@[simp] theorem Keeps.fault (f : Fault) : Keeps (.fault f) := fun _ e => by cases e
@[simp] theorem Keeps.refused (f : Refusal) : Keeps (.refused f) := fun _ e => by cases e

/-! ### Events -/

@[simp] theorem State.raiseMsix_wf (e : Ep) (entry : Nat)
    (hw : s.mem.wf = true) : (s.raiseMsix e entry).mem.wf = true := by
  unfold State.raiseMsix; (try dsimp only); (repeat' split) <;> simp (maxDischargeDepth := 30) [*]

@[simp] theorem State.flushMsix_wf (e : Ep) (h : s.mem.wf = true) : (s.flushMsix e).mem.wf = true := by
  unfold State.flushMsix; exact foldl_wf (fun s x hs => by simp (maxDischargeDepth := 30) [hs]) _ h

@[simp] theorem State.sendNote_wf (e : Ep) (h : s.mem.wf = true) : (s.sendNote e).mem.wf = true := by
  simp [State.sendNote, h]

@[simp] theorem State.notifyOwner_wf  (hw : s.mem.wf = true) : (s.notifyOwner).mem.wf = true := by
  unfold State.notifyOwner; (try dsimp only); (repeat' split) <;> simp (maxDischargeDepth := 30) [*]

@[simp] theorem State.logMem_wf (memory : Nat) (ue poison : Bool) (src : Src) (fa : Nat)
    (hw : s.mem.wf = true) : (s.logMem memory ue poison src fa).mem.wf = true := by
  unfold State.logMem; (try dsimp only); simp (maxDischargeDepth := 30) [*]

@[simp] theorem State.writeTrip_wf (w : TripWord) (h : s.mem.wf = true) : (s.writeTrip w).mem.wf = true := Mem.wf_writeTrip _ h

@[simp] theorem State.logVote_wf (ue : Bool) (d : Domain) (h : s.mem.wf = true) : (s.logVote ue d).mem.wf = true := h

@[simp] theorem State.repairTrip_wf (w : TripWord) (h : s.mem.wf = true) : (s.repairTrip w).mem.wf = true := Mem.mk_wf h ..

@[simp] theorem State.readTrip_wf (w : TripWord) (hw : s.mem.wf = true) : (s.readTrip w).mem.wf = true := by
  unfold State.readTrip; (try dsimp only); (repeat' split) <;> simp (maxDischargeDepth := 30) [*]

@[simp] theorem State.readTrips_wf (ws : List TripWord) (h : s.mem.wf = true) : (s.readTrips ws).mem.wf = true :=
  foldl_wf (fun _ _ hs => State.readTrip_wf _ hs) _ h

@[simp] theorem State.replaceCw_wf (a : Nat) (src : Src) (hw : s.mem.wf = true) : (s.replaceCw a src).mem.wf = true := by
  unfold State.replaceCw; (try dsimp only); (repeat' split) <;> simp (maxDischargeDepth := 30) [*]

@[simp] theorem State.noteFill_wf (f : FlaskId) (r : ScorRec) (a n : Nat) (hw : s.mem.wf = true) : (s.noteFill f r a n).mem.wf = true := by
  unfold State.noteFill; (try dsimp only); (repeat' split) <;> simp (maxDischargeDepth := 30) [*]

@[simp] theorem State.noteAsk_wf (f : FlaskId) (r : ScorRec) (a : Nat) (bs : List Byte) (hw : s.mem.wf = true) : (s.noteAsk f r a bs).mem.wf = true := by
  unfold State.noteAsk; (try dsimp only); (repeat' split) <;> simp (maxDischargeDepth := 30) [*]

@[simp] theorem State.noteWrite_wf (fa : Nat) (bs : List Byte) (h : s.mem.wf = true) : (s.noteWrite fa bs).mem.wf = true := by
  unfold State.noteWrite; dsimp only
  split
  · exact h
  · exact foldl_wf (fun s r hs => by simp [hs]) _ h

@[simp] theorem State.wholeLine_wf (fa : Nat) (bs : List Byte) (src : Src) (h : s.mem.wf = true) : (s.wholeLine fa bs src).mem.wf = true := by
  unfold State.wholeLine; simp (maxDischargeDepth := 30) [h]

@[simp] theorem State.writeLp_wf (dom : Domain) (a : Nat) (bs : List Byte) (h : s.mem.wf = true) :
    (s.writeLp dom a bs).mem.wf = true := by
  unfold State.writeLp
  refine foldl_wf (fun s x hs => ?_) _ h
  split
  · exact hs
  · dsimp only; (repeat' split) <;> simp [hs]

@[simp] theorem State.signal_wf (l : LadleRef) (quiet : Bool)
    (hw : s.mem.wf = true) : (s.signal l quiet).mem.wf = true := by
  unfold State.signal; (try dsimp only); (repeat' split) <;> simp (maxDischargeDepth := 30) [*]

@[simp] theorem State.putEntry_wf (l : LadleRef) (e : Entry)
    (hw : s.mem.wf = true) : (s.putEntry l e).mem.wf = true := by
  unfold State.putEntry; (try dsimp only); (repeat' split) <;> simp (maxDischargeDepth := 30) [*]

@[simp] theorem State.logRecord_wf (code : BitVec 16) (source sev : Nat) (tap : Bool)
    (flask : Domain) (cl : Option ClusterId) (data : List Byte)
    (hw : s.mem.wf = true) : (s.logRecord code source sev tap flask cl data).mem.wf = true := by
  unfold State.logRecord; (try dsimp only); (repeat' split) <;> simp (maxDischargeDepth := 30) [*]

@[simp] theorem State.tapBy_wf (source : Nat) (cl : Option ClusterId) (n : Nat) (flask : Domain)
    (hw : s.mem.wf = true) : (s.tapBy source cl n flask).mem.wf = true := by
  unfold State.tapBy; (repeat' split) <;> simp (maxDischargeDepth := 30) [*]

@[simp] theorem State.tap_wf (n : Nat) (flask : Domain) (hw : s.mem.wf = true) : (s.tap n flask).mem.wf = true := by
  unfold State.tap; simp (maxDischargeDepth := 30) [*]

@[simp] theorem State.reportLost_wf (l : LadleRef) (hw : s.mem.wf = true) : (s.reportLost l).mem.wf = true := by
  unfold State.reportLost; (try dsimp only); (repeat' split) <;> simp (maxDischargeDepth := 30) [*]

@[simp] theorem State.deliver_wf (l : LadleRef) (e : Entry) (hw : s.mem.wf = true) : (s.deliver l e).mem.wf = true := by
  unfold State.deliver; (try dsimp only); (repeat' split) <;> simp (maxDischargeDepth := 30) [*]

@[simp] theorem State.postFlask_wf (f : FlaskId) (code : BitVec 16) (status : Status) (src : Nat)
    (result : List Byte)
    (hw : s.mem.wf = true) : (s.postFlask f code status src result).mem.wf = true := by
  unfold State.postFlask; (try dsimp only); (repeat' split) <;> simp (maxDischargeDepth := 30) [*]

@[simp] theorem State.postOwner_wf (code : BitVec 16) (status : Status) (src : Nat) (result : List Byte)
    (hw : s.mem.wf = true) : (s.postOwner code status src result).mem.wf = true := by
  unfold State.postOwner; simp (maxDischargeDepth := 30) [*]

@[simp] theorem State.postDom_wf (d : Domain) (code : BitVec 16) (status : Status) (src : Nat)
    (result : List Byte)
    (hw : s.mem.wf = true) : (s.postDom d code status src result).mem.wf = true := by
  unfold State.postDom; (repeat' split) <;> simp (maxDischargeDepth := 30) [*]

@[simp] theorem State.wakeSys_wf (p : Proc) (hw : s.mem.wf = true) : (s.wakeSys p).mem.wf = true := by
  unfold State.wakeSys; (try dsimp only); (repeat' split) <;> simp (maxDischargeDepth := 30) [*]

@[simp] theorem State.postCluster_wf (cl : ClusterId) (d : Domain) (code : BitVec 16)
    (status : Status) (result : List Byte)
    (hw : s.mem.wf = true) : (s.postCluster cl d code status result).mem.wf = true := by
  unfold State.postCluster; (try dsimp only); (repeat' split) <;> simp (maxDischargeDepth := 30) [*]

@[simp] theorem State.putCompletion_wf (l : LadleRef) (e : Entry)
    (hw : s.mem.wf = true) : (s.putCompletion l e).mem.wf = true := by
  unfold State.putCompletion; (try dsimp only); (repeat' split) <;> simp (maxDischargeDepth := 30) [*]

@[simp] theorem State.tryTransition_wf  (hw : s.mem.wf = true) : (s.tryTransition).mem.wf = true := by
  unfold State.tryTransition; (try dsimp only); (repeat' split) <;> simp (maxDischargeDepth := 30) [*]

@[simp] theorem State.complete_wf (l : LadleRef) (tag : Word) (status : Status) (detail : Word)
    (result : List Byte)
    (hw : s.mem.wf = true) : (s.complete l tag status detail result).mem.wf = true := by
  unfold State.complete; (try dsimp only); (repeat' split) <;> simp (maxDischargeDepth := 30) [*]

@[simp] theorem State.drainBox_wf (l : LadleRef) : ∀ (es : List Entry) {s : State}, s.mem.wf = true → (s.drainBox l es).mem.wf = true
  | [], _, h => h
  | e :: es, s, h => by
    unfold State.drainBox
    split
    · dsimp only
      split
      · exact State.drainBox_wf l es (by simp (maxDischargeDepth := 30) [h])
      · simp (maxDischargeDepth := 30) [h]
    · exact h

@[simp] theorem State.drainHeld_wf (l : LadleRef) : ∀ (es : List Entry) {s : State}, s.mem.wf = true → (s.drainHeld l es).mem.wf = true
  | [], _, h => h
  | e :: es, s, h => by
    unfold State.drainHeld
    split
    · exact h
    · exact State.drainHeld_wf l es (by simp (maxDischargeDepth := 30) [h])

@[simp] theorem State.ladleFreed_wf (l : LadleRef) (h : s.mem.wf = true) : (s.ladleFreed l).mem.wf = true := by
  unfold State.ladleFreed; dsimp only; (repeat' split) <;> simp (maxDischargeDepth := 30) [h]

/-! ### MemOps -/

@[simp] theorem State.noteUe_wf (memory : Nat) (poison : Bool) (src : Src) (fa : Nat) (hw : s.mem.wf = true) : (s.noteUe memory poison src fa).mem.wf = true := by
  unfold State.noteUe; (try dsimp only); (repeat' split) <;> simp (maxDischargeDepth := 30) [*]

@[simp] theorem State.meetCe_wf (memory : Nat) (src : Src) (fa : Nat) (hw : s.mem.wf = true) : (s.meetCe memory src fa).mem.wf = true := by
  unfold State.meetCe; (try dsimp only); (repeat' split) <;> simp (maxDischargeDepth := 30) [*]

@[simp] theorem State.scrubWord_wf (src : Src) (k : Nat) (hw : s.mem.wf = true) : (s.scrubWord src k).mem.wf = true := by
  unfold State.scrubWord; (try dsimp only); (repeat' split) <;> simp (maxDischargeDepth := 30) [*]

@[simp] theorem State.scrubCw_wf (src : Src) (a : Nat) (hw : s.mem.wf = true) : (s.scrubCw src a).mem.wf = true := by
  unfold State.scrubCw; (try dsimp only); (repeat' split) <;> simp (maxDischargeDepth := 30) [*]

@[simp] theorem State.scrubLine_wf (src : Src) (fa : Nat) (h : s.mem.wf = true) : (s.scrubLine src fa).mem.wf = true := by
  unfold State.scrubLine; dsimp only
  split
  · simp [h]
  · exact foldl_wf (fun s i hs => by simp [hs]) _ h

@[simp] theorem State.noSpare_wf (fa : Nat) (hw : s.mem.wf = true) : (s.noSpare fa).mem.wf = true := by
  unfold State.noSpare; (try dsimp only); (repeat' split) <;> simp (maxDischargeDepth := 30) [*]

@[simp] theorem State.repair_wf (r : Repair) (hw : s.mem.wf = true) : (s.repair r).mem.wf = true := by
  unfold State.repair; (try dsimp only); (repeat' split) <;> simp (maxDischargeDepth := 30) [*]

@[simp] theorem State.softRepair_wf (src : Src) (fa : Nat) (hw : s.mem.wf = true) : (s.softRepair src fa).mem.wf = true := by
  unfold State.softRepair; (try dsimp only); (repeat' split) <;> simp (maxDischargeDepth := 30) [*]

@[simp] theorem State.markLine_wf (src : Src) (fa : Nat) (hw : s.mem.wf = true) : (s.markLine src fa).mem.wf = true := by
  unfold State.markLine; (try dsimp only); (repeat' split) <;> simp (maxDischargeDepth := 30) [*]

@[simp] theorem State.meetUe_wf (memory : Nat) (poison : Bool) (src : Src) (fa : Nat) (hw : s.mem.wf = true) : (s.meetUe memory poison src fa).mem.wf = true := by
  unfold State.meetUe; (try dsimp only); (repeat' split) <;> simp (maxDischargeDepth := 30) [*]

@[simp] theorem State.readWord_wf (k : Nat) (src : Src) (ecc : EccReport) (hw : s.mem.wf = true) : (s.readWord k src ecc).2.2.mem.wf = true := by
  unfold State.readWord; (try dsimp only); (repeat' split) <;> simp (maxDischargeDepth := 30) [*]

@[simp] theorem State.readCode_wf (a : Nat) (src : Src) (ecc : EccReport) (hw : s.mem.wf = true) : (s.readCode a src ecc).2.mem.wf = true := by
  unfold State.readCode; (try dsimp only); (repeat' split) <;> simp (maxDischargeDepth := 30) [*]

@[simp] theorem State.readCw_wf (a n : Nat) (src : Src) (ecc : EccReport) (hw : s.mem.wf = true) : (s.readCw a n src ecc).2.2.mem.wf = true := by
  unfold State.readCw; (try dsimp only); (repeat' split) <;> simp (maxDischargeDepth := 30) [*]

@[simp] theorem State.lineWrite_wf (fa : Nat) (bs : List Byte) (src : Src) (ecc : EccReport) (hw : s.mem.wf = true) : (s.lineWrite fa bs src ecc).1.mem.wf = true := by
  unfold State.lineWrite; (try dsimp only); (repeat' split) <;> simp (maxDischargeDepth := 30) [*]

@[simp] theorem State.replaceWord_wf (k : Nat) (w : TWord) (src : Src) (ecc : EccReport) (hw : s.mem.wf = true) : (s.replaceWord k w src ecc).mem.wf = true := by
  unfold State.replaceWord; (try dsimp only); (repeat' split) <;> simp (maxDischargeDepth := 30) [*]

@[simp] theorem State.partWord_wf (fa : Nat) (bs : List Byte) (tag : Tag → Tag) (src : Src) (ecc : EccReport) (hw : s.mem.wf = true) : (s.partWord fa bs tag src ecc).1.mem.wf = true := by
  unfold State.partWord; (try dsimp only); (repeat' split) <;> simp (maxDischargeDepth := 30) [*]

@[simp] theorem State.ownResv_wf (p : Proc) (line : Nat) (hw : s.mem.wf = true) : (s.ownResv p line).mem.wf = true := by
  unfold State.ownResv; (try dsimp only); (repeat' split) <;> simp (maxDischargeDepth := 30) [*]

@[simp] theorem State.wakeTally_wf (fa : Nat) (h : s.mem.wf = true) : (s.wakeTally fa).mem.wf = true := by
  unfold State.wakeTally; dsimp only
  split
  · exact h
  · exact foldl_wf (fun s w hs => by simp (maxDischargeDepth := 30) [hs]) _ (by simp (maxDischargeDepth := 30) [h])

@[simp] theorem State.wrote_wf (fa : Nat) (except : Option Proc) (hw : s.mem.wf = true) : (s.wrote fa except).mem.wf = true := by
  unfold State.wrote; (try dsimp only); (repeat' split) <;> simp (maxDischargeDepth := 30) [*]

@[simp] theorem State.hubPiece_wf (dom : Domain) (src : Src) (a : Nat) (bs : List Byte) (hw : s.mem.wf = true) : (s.hubPiece dom src a bs).1.mem.wf = true := by
  unfold State.hubPiece; (try dsimp only); (repeat' split) <;> simp (maxDischargeDepth := 30) [*]

@[simp] theorem State.hubWrite_wf (dom : Domain) (src : Src) (a : Nat) (bs : List Byte) (h : s.mem.wf = true) :
    (s.hubWrite dom src a bs).1.mem.wf = true := by
  unfold State.hubWrite
  split
  · exact h
  · exact foldl_wf_fst (fun r x hr => by simp (maxDischargeDepth := 30) [hr]) _ h

@[simp] theorem State.hubReadPiece_wf (dom : Domain) (src : Src) (a n : Nat)
    (hw : s.mem.wf = true) : (s.hubReadPiece dom src a n).2.1.mem.wf = true := by
  unfold State.hubReadPiece; (try dsimp only); (repeat' split) <;> simp (maxDischargeDepth := 30) [*]

@[simp] theorem State.hubRead_wf (dom : Domain) (src : Src) (a n : Nat) (h : s.mem.wf = true) :
    (s.hubRead dom src a n).2.1.mem.wf = true := by
  unfold State.hubRead
  exact foldl_wf_mid (fun r x hr => by simp (maxDischargeDepth := 30) [hr]) _ h

/-! ### Ops -/

@[simp] theorem State.modCore_wf (p : Proc) (f : Core → Core)
    (hw : s.mem.wf = true) : (s.modCore p f).mem.wf = true := by
  unfold State.modCore; first
    | simp (maxDischargeDepth := 30) [*]

@[simp] theorem State.loseLocks_wf (p : Proc) (hw : s.mem.wf = true) : (s.loseLocks p).mem.wf = true := by
  unfold State.loseLocks; (try dsimp only); (repeat' split) <;> simp (maxDischargeDepth := 30) [*]

@[simp] theorem State.mapClusters_wf (f : Cluster → Cluster) (h : s.mem.wf = true) : (s.mapClusters f).mem.wf = true := by
  unfold State.mapClusters; exact foldl_wf (fun s x hs => by simp [hs]) _ h

@[simp] theorem State.markWaiters_wf (fa : Nat) (hw : s.mem.wf = true) : (s.markWaiters fa).mem.wf = true := by
  unfold State.markWaiters; (try dsimp only); (repeat' split) <;> simp (maxDischargeDepth := 30) [*]

@[simp] theorem State.endWait_wf (p : Proc) (h : s.mem.wf = true) : (s.endWait p).mem.wf = true := by
  unfold State.endWait; dsimp only
  split
  · exact h
  · exact foldl_wf (fun s x hs => by simp [hs]) _ (by simp [h])

@[simp] theorem State.stopCore_wf (p : Proc) (vector : Byte) (status : Status)
    (hw : s.mem.wf = true) : (s.stopCore p vector status).mem.wf = true := by
  unfold State.stopCore; (try dsimp only); (repeat' split) <;> simp (maxDischargeDepth := 30) [*]

@[simp] theorem State.takeTrap_wf (p : Proc) (t : TrapInfo)
    (hw : s.mem.wf = true) : (s.takeTrap p t).mem.wf = true := by
  unfold State.takeTrap; (try dsimp only); (repeat' split) <;> simp (maxDischargeDepth := 30) [*]

@[simp] theorem State.retire_wf (p : Proc) (pc : Nat) (event : Nat)
    (hw : s.mem.wf = true) : (s.retire p pc event).mem.wf = true := by
  unfold State.retire; (try dsimp only); first
    | simp (maxDischargeDepth := 30) [*]

@[simp] theorem State.fetch_wf (p : Proc) (i : Nat) (hw : s.mem.wf = true) : (s.fetch p i).2.2.mem.wf = true := by
  unfold State.fetch; (try dsimp only); (repeat' split) <;> simp (maxDischargeDepth := 30) [*]

@[simp] theorem State.fetchAhead_wf (p : Proc) (i : Nat) (hw : s.mem.wf = true) : (s.fetchAhead p i).mem.wf = true := by
  unfold State.fetchAhead; (try dsimp only); (repeat' split) <;> simp (maxDischargeDepth := 30) [*]

@[simp] theorem State.fetchTrap_wf (p : Proc) (i : Nat) (h : s.mem.wf = true) : (s.fetchTrap p i).2.mem.wf = true := by
  unfold State.fetchTrap; dsimp only; (repeat' split) <;> first | exact h | exact State.fetch_wf p i h

theorem State.settle_wf (p : Proc) (len : Nat) {b : Body} (h : b.keeps) : (s.settle p len b).mem.wf = true := by
  cases b <;> simp only [State.settle, Body.keeps] at h ⊢ <;> simp [h]

theorem State.issue_wf (p : Proc) (cond : BitVec 4) (legal : Bool) (flow : Flow) {body : State → Body} (h : s.mem.wf = true)
    (hb : ∀ t : State, t.mem.wf = true → (body t).keeps) : (s.issue p cond legal flow body).mem.wf = true := by
  unfold State.issue
  dsimp only
  split
  · exact h
  split
  · simp [h]
  split
  · simp [h]
  have h1 := State.fetchTrap_wf p (s.core p).a.pc h
  split
  · rename_i e; rw [e] at h1; simp at h1; simp [h1]
  rename_i s1 e
  rw [e] at h1
  dsimp only at h1
  have h2 : ((if flow = Flow.call then s1.fetchTrap p ((s.core p).a.pc + 1) else (none, s1)) : Option TrapInfo × State).2.mem.wf = true := by
    split <;> simp [h1]
  split
  · rename_i e; rw [e] at h2; simp at h2; simp [h2]
  rename_i s2 e
  rw [e] at h2
  dsimp only at h2
  have h3 := State.fetchAhead_wf p ((s.core p).a.pc + flow.len - 1) h2
  repeat' split
  · simp [h3]
  · simp [h3]
  · simp [h3]
  · exact State.settle_wf p _ (hb _ h3)

@[simp] theorem State.sendReq_wf (p : Proc) (d : Desc) (seg : BitVec 3) (off : Int) (fa : Nat)
    (posted : Bool) (op : MemOp)
    (hw : s.mem.wf = true) : (s.sendReq p d seg off fa posted op).mem.wf = true := by
  unfold State.sendReq; (try dsimp only); (repeat' split) <;> simp (maxDischargeDepth := 30) [*]

/-! ### Access -/

@[simp] theorem State.mixed_wf (fa : Nat) (w : TWord) (hw : s.mem.wf = true) : (s.mixed fa w).1.mem.wf = true := by
  unfold State.mixed; (try dsimp only); (repeat' split) <;> simp [*]

@[simp] theorem State.homeLoad_wf (fa : Nat) (src : Src) (ecc : EccReport)
    (hw : s.mem.wf = true) : (s.homeLoad fa src ecc).1.mem.wf = true := by
  unfold State.homeLoad; (try dsimp only); (repeat' split) <;> simp (maxDischargeDepth := 30) [*]

@[simp] theorem State.homeStore_wf (fa n : Nat) (v : TWord) (src : Src) (ecc : EccReport) (hw : s.mem.wf = true) :
    (s.homeStore fa n v src ecc).1.mem.wf = true := by
  unfold State.homeStore; (try dsimp only); (repeat' split) <;> simp (maxDischargeDepth := 30) [*]

@[simp] theorem State.homeTas_wf (who : Proc) (fa : Nat) (src : Src) (ecc : EccReport) (h : s.mem.wf = true) :
    (s.homeTas who fa src ecc).1.mem.wf = true := by
  unfold State.homeTas; dsimp only
  split
  · exact h
  have h0 := State.ownResv_wf who (fa / 64) h
  split
  · simp (maxDischargeDepth := 30) [h0]
  have h1 := State.homeLoad_wf fa src ecc h0
  split
  · rename_i s1 w e
    rw [e] at h1
    split
    · have h2 := State.homeStore_wf fa 4 ⟨1, Tag.int⟩ src .stored h1
      split
      · rename_i e2; rw [e2] at h2; exact h2
      · exact h2
    · exact h1
  · exact h1

@[simp] theorem State.setResv_wf (p : Proc) (fa : Nat) (hw : s.mem.wf = true) : (s.setResv p fa).mem.wf = true := by
  unfold State.setResv; (try dsimp only); first
    | simp (maxDischargeDepth := 30) [*]

@[simp] theorem State.homeScond_wf (p : Proc) (fa : Nat) (v : TWord) (src : Src) (ecc : EccReport)
    (hw : s.mem.wf = true) : (s.homeScond p fa v src ecc).1.mem.wf = true := by
  unfold State.homeScond; (try dsimp only); (repeat' split) <;> simp (maxDischargeDepth := 30) [*]

@[simp] theorem State.moveLine_wf (dom : Domain) (a : Nat) (deftag : Tag) (h : s.mem.wf = true) :
    (s.moveLine dom a deftag).2.mem.wf = true := by
  have hf : ∀ (fa : Nat) (l : List Nat) (r : List TWord × Bool × State), r.2.2.mem.wf = true →
      (l.foldl (fun (r : List TWord × Bool × State) i =>
        let w := r.2.2.readWord (fa / 4 + i) .move .stored
        let t := if w.1.tag = Tag.lock ∨ w.1.tag = Tag.token then Tag.raw else w.1.tag
        ((r.1 ++ [(⟨w.1.payload, t⟩ : TWord)], (r.2.1 || w.2.1), w.2.2) : List TWord × Bool × State)) r).2.2.mem.wf = true := by
    intro fa l
    induction l with
    | nil => exact fun _ h => h
    | cons i l ih => intro r h; rw [List.foldl_cons]; exact ih _ (State.readWord_wf _ _ _ h)
  unfold State.moveLine
  split
  · exact h
  split
  · exact h
  split
  · dsimp only; split <;> simp [h]
  · dsimp only at hf ⊢; generalize hr : List.foldl _ (([], false, s) : List TWord × Bool × State) (List.range 16) = r
    have h1 : r.2.2.mem.wf = true := by rw [← hr]; exact hf _ _ _ h
    split <;> exact h1

theorem State.putLine_wf {who : OutWho} {dom : Domain} {a : Nat} {ws : List TWord} {t : State} (h : s.mem.wf = true)
    (e : s.putLine who dom a ws = some t) : t.mem.wf = true := by
  unfold State.putLine at e
  split at e
  · cases e; simp [h]
  split at e
  · cases e
  split at e
  · cases e
  split at e
  · cases e; exact State.wholeLine_wf _ _ _ h
  split at e
  · cases e
  · cases e
    exact foldl_wf (fun s i hs => by simp [hs]) _ (by simpa using foldl_wf (fun s x hs => State.replaceWord_wf _ _ _ _ hs) _ h)

theorem State.moveOne_wf {who : Nat → OutWho} {m : Move} {i : Nat} (h : s.mem.wf = true) :
    (s.moveOne who m i).2.mem.wf = true ∧ ∀ t, (s.moveOne who m i).1 = some t → t.mem.wf = true := by
  have h1 : ∀ (o : Option (List TWord)) (t : State), t.mem.wf = true →
      (match (o, t) with
        | (none, s) => ((none, s) : Option State × State)
        | (some ws, s) => (s.putLine (who i) m.ddom (m.dst.toNat + 64 * i) ws, s)).2.mem.wf = true ∧
      ∀ u, (match (o, t) with
        | (none, s) => ((none, s) : Option State × State)
        | (some ws, s) => (s.putLine (who i) m.ddom (m.dst.toNat + 64 * i) ws, s)).1 = some u → u.mem.wf = true := by
    intro o t ht
    cases o with
    | none => exact ⟨ht, fun u e => by cases e⟩
    | some ws => exact ⟨ht, fun u e => State.putLine_wf ht e⟩
  unfold State.moveOne
  cases m.data with
  | some bs => dsimp only; exact ⟨h, fun u e => State.putLine_wf h e⟩
  | none =>
    have h2 := State.moveLine_wf m.sdom (m.src.toNat + 64 * i) m.deftag h
    dsimp only
    generalize s.moveLine m.sdom (m.src.toNat + 64 * i) m.deftag = q at h2 ⊢
    obtain ⟨o, t⟩ := q
    exact h1 o t h2

theorem State.moveLines_wf {who : Nat → OutWho} {m : Move} : ∀ (n i : Nat) {s : State}, s.mem.wf = true →
    (s.moveLines who m i n).1.mem.wf = true
  | 0, _, _, h => h
  | n + 1, i, s, h => by
    have h1 := State.moveOne_wf (who := who) (m := m) (i := i) h
    unfold State.moveLines
    split
    · rename_i e; rw [e] at h1; exact State.moveLines_wf n (i + 1) (h1.2 _ rfl)
    · rename_i e; rw [e] at h1; exact h1.1

@[simp] theorem State.endMove_wf (p : Proc) (slot : BitVec 2) (x : Option Nat) (hw : s.mem.wf = true) :
    (s.endMove p slot x).mem.wf = true := by simp [State.endMove, hw]

@[simp] theorem State.runMove_wf (p : Proc) (slot : BitVec 2) (m : Move) (h : s.mem.wf = true) : (s.runMove p slot m).mem.wf = true := by
  simp [State.runMove, State.moveLines_wf _ _ h]

@[simp] theorem State.stepMove_wf (p : Proc) (slot : BitVec 2) (m : Move) (h : s.mem.wf = true) : (s.stepMove p slot m).mem.wf = true := by
  have h1 := State.moveOne_wf (who := .move p (s.core p).gen slot) (m := m) (i := m.next) h
  unfold State.stepMove
  split
  · rename_i e; rw [e] at h1; simp [h1.2 _ rfl]
  · rename_i e; rw [e] at h1; exact State.endMove_wf _ _ _ h1.1

@[simp] theorem State.flushMoves_wf (p : Proc) (path : Nat) (h : s.mem.wf = true) : (s.flushMoves p path).mem.wf = true := by
  unfold State.flushMoves; exact foldl_wf (fun s x hs => by split <;> simp [hs]) _ h

@[simp] theorem State.noteStore_wf (p : Proc) (fa : Nat) (hw : s.mem.wf = true) : (s.noteStore p fa).mem.wf = true := by
  unfold State.noteStore; (try dsimp only); (repeat' split) <;> simp (maxDischargeDepth := 30) [*]

@[simp] theorem State.beforeWrite_wf (p : Proc) (fa : Nat)
    (hw : s.mem.wf = true) : (s.beforeWrite p fa).mem.wf = true := by
  unfold State.beforeWrite; first
    | simp (maxDischargeDepth := 30) [*]

@[simp] theorem State.coreLoad_wf (p : Proc) (fa : Nat) (hw : s.mem.wf = true) : (s.coreLoad p fa).1.mem.wf = true := by
  unfold State.coreLoad; (repeat' split) <;> simp (maxDischargeDepth := 30) [*]

/-! ### Narrow -/

/-! ### LoadStore -/

/-! ### Stream -/

@[simp] theorem State.takeWord_wf (p : Proc) (q : Port) (hw : s.mem.wf = true) : (s.takeWord p q).mem.wf = true := by
  unfold State.takeWord; (try dsimp only); (repeat' split) <;> simp (maxDischargeDepth := 30) [*]

theorem State.pullOne_wf {p : Proc} {q : Port} {t : State} (h : s.mem.wf = true) (e : s.pullOne p q = some t) :
    t.mem.wf = true := by
  unfold State.pullOne at e
  dsimp only at e
  split at e
  · cases e; simp [h]
  · cases e

theorem State.pullPort_wf (p : Proc) (q : Port) : ∀ (n : Nat) {s : State}, s.mem.wf = true → (s.pullPort p q n).mem.wf = true
  | 0, _, h => h
  | n + 1, s, h => by
    unfold State.pullPort
    split
    · exact h
    · rename_i e; exact State.pullPort_wf p q n (State.pullOne_wf h e)

@[simp] theorem State.pull_wf (p : Proc) (h : s.mem.wf = true) : (s.pull p).mem.wf = true :=
  foldl_wf (fun _ q hs => State.pullPort_wf p q _ hs) _ h

@[simp] theorem State.sendWord_wf (p : Proc) (q : Port) (w : TWord)
    (hw : s.mem.wf = true) : (s.sendWord p q w).mem.wf = true := by
  unfold State.sendWord; (try dsimp only); (repeat' split) <;> simp (maxDischargeDepth := 30) [*]

/-! ### Sync -/

@[simp] theorem State.syncWrite_wf (who : Option Proc) (fa : Nat) (w : TWord)
    (hw : s.mem.wf = true) : (s.syncWrite who fa w).mem.wf = true := by
  unfold State.syncWrite; first
    | simp (maxDischargeDepth := 30) [*]

@[simp] theorem State.syncReply_wf (r : SyncReq) (x : Reply)
    (hw : s.mem.wf = true) : (s.syncReply r x).mem.wf = true := by
  unfold State.syncReply; (try dsimp only); first
    | simp (maxDischargeDepth := 30) [*]

@[simp] theorem State.syncError_wf (r : SyncReq) (cause : Nat)
    (hw : s.mem.wf = true) : (s.syncError r cause).mem.wf = true := by
  unfold State.syncError; first
    | simp (maxDischargeDepth := 30) [*]

@[simp] theorem State.tallyOp_wf (r : SyncReq) (up : Bool) (hw : s.mem.wf = true) : (s.tallyOp r up).mem.wf = true := by
  unfold State.tallyOp; (try dsimp only); (repeat' split) <;> simp (maxDischargeDepth := 30) [*]

theorem State.addWaiter_wf {r : SyncReq} {k : WaitKind} {t : State} (h : s.mem.wf = true) (e : s.addWaiter r k = some t) :
    t.mem.wf = true := by
  unfold State.addWaiter at e
  dsimp only at e
  repeat' split at e
  all_goals first | (cases e; done) | (cases e; simp [h])

@[simp] theorem State.tallyWait_wf (r : SyncReq) (h : s.mem.wf = true) : (s.tallyWait r).mem.wf = true := by
  unfold State.tallyWait
  repeat' split
  · simp [h]
  · rename_i e; exact State.addWaiter_wf h e
  · simp [h]

@[simp] theorem State.closeRound_wf (fa : Nat) (b : Barrier) (h : s.mem.wf = true) : (s.closeRound fa b).1.mem.wf = true := by
  unfold State.closeRound; dsimp only
  split <;> exact foldl_wf (fun s w hs => by simp [hs]) _ (by simp [h])

@[simp] theorem State.closeRounds_wf (fa : Nat) : ∀ (n : Nat) {s : State} (b : Barrier), s.mem.wf = true →
    (s.closeRounds fa b n).1.mem.wf = true
  | 0, _, _, h => h
  | n + 1, s, b, h => by
    unfold State.closeRounds
    dsimp only
    split
    · exact State.closeRounds_wf fa n _ (by simp [h])
    · exact h

@[simp] theorem State.lockOp_wf (r : SyncReq) (waits : Bool) (h : s.mem.wf = true) : (s.lockOp r waits).mem.wf = true := by
  unfold State.lockOp; dsimp only
  repeat' split
  all_goals first
    | simp [h]
    | (rename_i e; simp [State.addWaiter_wf h e])

@[simp] theorem State.unlockOp_wf (r : SyncReq) (hw : s.mem.wf = true) : (s.unlockOp r).mem.wf = true := by
  unfold State.unlockOp; (try dsimp only); (repeat' split) <;> simp (maxDischargeDepth := 30) [*]

@[simp] theorem State.abandon_wf (fa : Nat) (idx : Nat) (h : s.mem.wf = true) : (s.abandon fa idx).mem.wf = true := by
  unfold State.abandon; dsimp only
  split
  · exact State.postDom_wf _ _ _ _ _ (foldl_wf (fun s w hs => by simp [hs]) _ (by simp (maxDischargeDepth := 30) [h]))
  · exact h

@[simp] theorem State.fenceDrop_wf (p : Proc) (hw : s.mem.wf = true) : (s.fenceDrop p).mem.wf = true := by
  unfold State.fenceDrop; (try dsimp only); (repeat' split) <;> simp (maxDischargeDepth := 30) [*]

/-! ### Engine -/

@[simp] theorem State.driftEvents_wf (c : CoreId) (e : BitVec 2) (counter : Nat) (old new limit : Word)
    (hw : s.mem.wf = true) : (s.driftEvents c e counter old new limit).mem.wf = true := by
  unfold State.driftEvents; (repeat' split) <;> first
    | (simp (maxDischargeDepth := 30) [*]; done)
    | with_reducible assumption
    | with_reducible refine foldl_wf (fun _ _ hs => ?_) _ ?_ <;> simp (maxDischargeDepth := 30) [*]

@[simp] theorem State.drift_wf (p : Proc) (e : BitVec 2) (g g' : Engine)
    (hw : s.mem.wf = true) : (s.drift p e g g').mem.wf = true := by
  unfold State.drift; (try dsimp only); (repeat' split) <;> simp (maxDischargeDepth := 30) [*]

@[simp] theorem State.engRead_wf (op : EngOp) : ∀ (n k : Nat) {s : State}, s.mem.wf = true → (s.engRead op k n).2.mem.wf = true
  | 0, _, _, h => h
  | n + 1, k, s, h => by
    unfold State.engRead; dsimp only
    exact State.engRead_wf op n (k + 1) (by split <;> simp [h])

@[simp] theorem State.readRun_wf (op : EngOp) (d : Desc) (f : Fmt) (n base off : Nat) : ∀ (fuel : Nat) {s : State}
    (ws : List TWord), s.mem.wf = true → (s.readRun op d f n base off ws fuel).2.mem.wf = true
  | 0, _, _, h => h
  | fuel + 1, s, ws, h => by
    unfold State.readRun; dsimp only
    split
    · split
      · exact State.readRun_wf op d f n base off fuel _ (State.engRead_wf op _ _ h)
      · split
        · exact h
        · exact State.readRun_wf op d f n base off fuel _ (State.engRead_wf op _ _ h)
    · exact h

@[simp] theorem State.runDot_wf (p : Proc) (f : EdotF) (op : EngOp) (g : Engine) (h : s.mem.wf = true) :
    (s.runDot p f op g).s.mem.wf = true := by
  unfold State.runDot; dsimp only
  (repeat' split) <;> simp only [endFail] <;> simp (maxDischargeDepth := 30) [h]

@[simp] theorem State.engWrite_wf (p : Proc) (k : Nat) (ws : List TWord) (h : s.mem.wf = true) :
    (s.engWrite p k ws).mem.wf = true := by
  unfold State.engWrite
  exact foldl_wf (fun s x hs => by split <;> simp (maxDischargeDepth := 30) [hs]) _ h

@[simp] theorem State.spoil_wf : ∀ (ws : List TWord) {s : State}, s.mem.wf = true → (s.spoil ws).2.mem.wf = true
  | [], _, h => h
  | _ :: ws, s, h => by
    unfold State.spoil; dsimp only
    exact State.spoil_wf ws (by simp [h])

theorem spoiled_wf (o : Prop) [Decidable o] (ws : List TWord) (h : s.mem.wf = true) :
    ((if o then s.spoil ws else (ws, s)) : List TWord × State).2.mem.wf = true := by
  split <;> simp [h]

@[simp] theorem State.engStore_wf (p : Proc) (op : EngOp) (ws : List TWord) (partial_ : Bool) (h : s.mem.wf = true) :
    (s.engStore p op ws partial_).mem.wf = true := by
  unfold State.engStore; dsimp only
  split <;> exact State.engWrite_wf p _ _ (by simp [spoiled_wf, h])

@[simp] theorem State.runPack_wf (p : Proc) (op : EngOp) (g : Engine) (h : s.mem.wf = true) : (s.runPack p op g).s.mem.wf = true := by
  unfold State.runPack; dsimp only
  (repeat' split) <;> (try simp only [endFail]) <;> simp (maxDischargeDepth := 30) [h]

@[simp] theorem State.runMx_wf (p : Proc) (f : PackF) (op : EngOp) (g : Engine) (h : s.mem.wf = true) :
    (s.runMx p f op g).s.mem.wf = true := by
  unfold State.runMx; dsimp only
  (repeat' split) <;> (try simp only [endFail]) <;> simp (maxDischargeDepth := 30) [h]

@[simp] theorem State.runOp_wf (p : Proc) (op : EngOp) (g : Engine) (h : s.mem.wf = true) : (s.runOp p op g).s.mem.wf = true := by
  unfold State.runOp
  split <;> simp [h]

@[simp] theorem State.endOp_wf (p : Proc) (e : BitVec 2) (op : EngOp)
    (hw : s.mem.wf = true) : (s.endOp p e op).mem.wf = true := by
  unfold State.endOp; (try dsimp only); (repeat' split) <;> simp (maxDischargeDepth := 30) [*]

@[simp] theorem State.finishOp_wf (p : Proc) (e : BitVec 2) (op : EngOp)
    (hw : s.mem.wf = true) : (s.finishOp p e op).mem.wf = true := by
  simp [State.finishOp, hw]

/-! ### Ladle -/

@[simp] theorem State.observed_wf (m : Master) (hw : s.mem.wf = true) : (s.observed m).mem.wf = true := by
  unfold State.observed; (try dsimp only); (repeat' split) <;> simp (maxDischargeDepth := 30) [*]

theorem State.ownerWrite_wf (m : Master) {f : State → State} (h : s.mem.wf = true) (hf : (f s).mem.wf = true) :
    (s.ownerWrite m f).mem.wf = true := by
  unfold State.ownerWrite; (repeat' split) <;> simp [h, hf]

@[simp] theorem State.strayWrite_wf (f : FlaskId) (hw : s.mem.wf = true) : (s.strayWrite f).mem.wf = true := by
  unfold State.strayWrite; (try dsimp only); first
    | simp (maxDischargeDepth := 30) [*]

@[simp] theorem State.done_wf (h : CmdHdr) (status : Status)
    (hw : s.mem.wf = true) : (s.done h status).mem.wf = true := by
  unfold State.done; first
    | simp (maxDischargeDepth := 30) [*]

@[simp] theorem State.readEntry_wf (h : CmdHdr) (i : Instr)
    (hw : s.mem.wf = true) : (s.readEntry h i).mem.wf = true := by
  unfold State.readEntry; (try dsimp only); simp (maxDischargeDepth := 30) [*]

@[simp] theorem State.startEntry_wf (h : CmdHdr) (hw : s.mem.wf = true) : (s.startEntry h).mem.wf = true := by
  unfold State.startEntry; (try dsimp only); first
    | simp (maxDischargeDepth := 30) [*]

@[simp] theorem State.castEvent_wf (f : Option FlaskId) (st : Status) (rot : Nat)
    (hw : s.mem.wf = true) : (s.castEvent f st rot).mem.wf = true := by
  unfold State.castEvent; (try dsimp only); (repeat' split) <;> simp (maxDischargeDepth := 30) [*]

@[simp] theorem State.endCommand_wf (l : LadleRef) (tag : Word) (i : Instr) (st : Status)
    (hw : s.mem.wf = true) : (s.endCommand l tag i st).mem.wf = true := by
  unfold State.endCommand; (try dsimp only); (repeat' split) <;> simp (maxDischargeDepth := 30) [*]

theorem State.start_wf (h : CmdHdr) (i : Instr) {body : State → State} (hw : s.mem.wf = true)
    (hb : ∀ t : State, t.mem.wf = true → (body t).mem.wf = true) : (s.start h i body).mem.wf = true := by
  unfold State.start
  (repeat' split) <;> first | simp [hw] | with_reducible exact hb _ (by simp [hw])

theorem State.onFlask_wf (h : CmdHdr) (f : BitVec 16) {body : FlaskId → State → State} (hw : s.mem.wf = true)
    (hb : ∀ f, (body f s).mem.wf = true) : (s.onFlask h f body).mem.wf = true := by
  unfold State.onFlask; dsimp only; (repeat' split) <;> first | (simp [hw]; done) | with_reducible exact hb _

@[simp] theorem State.setupLadle_wf (f : FlaskId) (n : BitVec 4) (p : LadleP)
    (hw : s.mem.wf = true) : (s.setupLadle f n p).mem.wf = true := by
  unfold State.setupLadle; (try dsimp only); (repeat' split) <;> simp (maxDischargeDepth := 30) [*]

/-- A ladle command keeps the stores in canonical form if its body does. -/
theorem State.command_keeps (h : CmdHdr) (i : Instr) {body : State → State} (hw : s.mem.wf = true)
    (hb : ∀ t : State, t.mem.wf = true → (body t).mem.wf = true) : Keeps (s.command h i body) := by
  have hr : ∀ t : State, t.mem.wf = true → ((t.readEntry h i).start h i body).mem.wf = true := fun t ht =>
    State.start_wf h i (State.readEntry_wf h i ht) hb
  unfold State.command; dsimp only
  split
  · exact Keeps.next.2 hw
  split
  · split
    · exact Keeps.next.2 (State.start_wf h i hw hb)
    split
    · exact Keeps.next.2 hw
    · rw [Keeps.next]
      split
      · exact hr _ (by simp [hw])
      · exact State.readEntry_wf h i (by simp [hw])
  · split
    · exact Keeps.next.2 hw
    · exact Keeps.next.2 (hr _ hw)

@[simp] theorem State.ringSq_wf (l : LadleRef) (tail : Nat) (hw : s.mem.wf = true) : (s.ringSq l tail).mem.wf = true := by
  unfold State.ringSq; dsimp only; (repeat' split) <;> simp [hw]

@[simp] theorem State.ringCq_wf (l : LadleRef) (head : Nat) (hw : s.mem.wf = true) : (s.ringCq l head).mem.wf = true := by
  unfold State.ringCq; dsimp only; (repeat' split) <;> simp [hw]

end Sys2Proof.Machine
end

