-- ==== Sys2Proof/Laws/Ladle.lean ====
section
/-!
SUPPORT. Ladle commands: what a command that starts does, and what one that is not the ladle's next does.
-/

namespace Sys2Proof.Machine

variable {s : State} {h : CmdHdr} {i : Instr}

/-- A command that may start has its body's effect, in the state in which it has started. -/
theorem State.command_of_starts (hs : s.starts h i = true) (body : State → State) :
    s.command h i body = .next (body (s.begun h i)) := by
  simp only [State.starts, Bool.and_eq_true] at hs
  obtain ⟨⟨⟨⟨⟨⟨h1, h2⟩, h3⟩, h4⟩, h5⟩, h6⟩, h7⟩ := hs
  have hst : ∀ r : State, r = s.withEntry h i → r.start h i body = body (s.begun h i) := by
    intro r e
    rw [← e] at h5 h6
    unfold State.start State.begun
    rw [Option.isNone_iff_eq_none] at h5
    rw [h5, h6]
    revert h7
    cases ladleOp i with
    | none => simp
    | some x => intro h7; simp only at h7; simp [h7, e]
  unfold State.command
  simp only [Bool.not_eq_true'] at h2
  simp only [h1, h2, h3, Bool.not_true, Bool.or_self, Bool.false_eq_true, if_false]
  revert h4
  cases hc : (s.ladle h.ladle).cmds.find? fun c => decide (c.tag = h.tag) with
  | some c =>
    intro h4
    simp only at h4
    simp only [h4, if_true]
    have : (s.ladle h.ladle).cmds.any (fun c => decide (c.tag = h.tag)) = true :=
      List.any_eq_true.mpr ⟨c, List.mem_of_find?_eq_some hc, by have := List.find?_some hc; exact this⟩
    rw [hst s (by simp [State.withEntry, this])]
  | none =>
    intro h4
    simp only [decide_eq_true_eq] at h4
    simp only [h4, if_false]
    have : ¬ (s.ladle h.ladle).cmds.any (fun c => decide (c.tag = h.tag)) = true := by
      rw [List.any_eq_true]
      rintro ⟨c, hm, ht⟩
      exact absurd ht (by simpa using List.find?_eq_none.mp hc c hm)
    rw [hst (s.readEntry h i) (by simp only [State.withEntry, this]; rfl)]

/-- An admin ladle's or a flask's command whose body completes at once with a status. -/
theorem State.command_done (hs : s.starts h i = true) (st : Status) :
    s.command h i (fun s => s.done h st) = .next ((s.begun h i).complete h.ladle h.tag st 0 []) :=
  State.command_of_starts hs _

end Sys2Proof.Machine
end

