-- ==== Sys2Proof/Laws/Operands.lean ====
section
/-!
SUPPORT. The operand forms: what the shared bodies of classes 0x0, 0x1 and 0x4 do when the operands have accepted tags.
-/

namespace Sys2Proof.Machine
variable {s : State} {p : Proc}

theorem intRule2_ok {a b : TWord} (ha : intLike a.tag = true) (hb : intLike b.tag = true) : intRule2 a b = .ok Tag.int := by
  have hp : ∀ t : Tag, intLike t = true → t ≠ Tag.poison := by decide
  have := hp _ ha
  have := hp _ hb
  simp [intRule2, intRule, operandTrap, *]

theorem intRule_one {a : TWord} (ha : intLike a.tag = true) : intRule [a] = .ok Tag.int := by
  have hp : ∀ t : Tag, intLike t = true → t ≠ Tag.poison := by decide
  have := hp _ ha
  simp [intRule, operandTrap, *]

theorem ptrRule_int {two : Bool} {a b : TWord} (ha : intLike a.tag = true) (hb : intLike b.tag = true) :
    ptrRule two a b = .ok Tag.int := by
  have hp : ∀ t : Tag, intLike t = true → t ≠ Tag.poison ∧ t ≠ Tag.ptr ∧ offLike t = true := by decide
  have := hp _ ha
  have := hp _ hb
  simp [ptrRule, operandTrap, *]

theorem typeRule_ok {want res : Tag} {ops : List TWord} (hw : want ≠ Tag.poison)
    (h : ∀ w ∈ ops, w.tag = want ∨ w.tag = Tag.raw) : typeRule want res ops = .ok res := by
  have hr : Tag.raw ≠ Tag.poison := by decide
  have h1 : (ops.map fun w => (w, fun t => t == want || t == Tag.raw)).any (fun o => o.1.tag == Tag.poison) = false := by
    simp only [List.any_map, List.any_eq_false]
    intro w hm
    rcases h w hm with e | e <;> simp [e, hw, hr]
  have h2 : ((ops.map fun w => (w, fun t => t == want || t == Tag.raw)).find? fun o => !o.2 o.1.tag) = none := by
    rw [List.find?_eq_none]
    intro o ho
    obtain ⟨w, hm, rfl⟩ := List.mem_map.mp ho
    rcases h w hm with e | e <;> simp [e]
  simp [typeRule, operandTrap, h1, h2]

/-- Class 0x0 with two sources. -/
theorem aluR_spec {f : AluR} (h : s.issues p f.cond .next = true) (hr : f.resv = 0) {tag : Tag}
    {rule : TWord → TWord → Except TrapInfo Tag} (op : Word → Word → Stat → Word × FlagSet)
    (ht : rule ((s.core p).reg f.ra) ((s.core p).reg f.rb) = .ok tag) :
    let r := op ((s.core p).reg f.ra).payload ((s.core p).reg f.rb).payload (s.core p).a.stat
    Answers (aluR p f rule op s) fun t => Retires s t p ((s.core p).a.pc + 1) ((s.core p).a.gSet f.rd ⟨r.1, tag⟩)
      (if f.s then (s.core p).a.stat.put r.2 else (s.core p).a.stat) := by
  refine ⟨_, rfl, ?_⟩
  rw [State.issue_of_issues h (by simp [hr])]
  simp only [State.fetched_reg, ht, State.fetched_a]
  exact State.retires_of_ok h _ _ _ fun w => by
    cases f.s <;> simp [Core.setReg, Core.setStat, Arch.setReg, Arch.gSet, Stat.put, FlagSet.keep]

/-- Class 0x0 with one source. -/
theorem aluU_spec {f : AluR} (h : s.issues p f.cond .next = true) (hr : f.resv = 0)
    (ha : intLike ((s.core p).reg f.ra).tag = true) (op : Word → Word × FlagSet) :
    let r := op ((s.core p).reg f.ra).payload
    Answers (aluU p f op s) fun t => Retires s t p ((s.core p).a.pc + 1) ((s.core p).a.gSet f.rd ⟨r.1, Tag.int⟩)
      (if f.s then (s.core p).a.stat.put r.2 else (s.core p).a.stat) := by
  refine ⟨_, rfl, ?_⟩
  rw [State.issue_of_issues h (by simp [hr])]
  simp only [State.fetched_reg, intRule_one ha]
  exact State.retires_of_ok h _ _ _ fun w => by
    cases f.s <;> simp [Core.setReg, Core.setStat, Arch.setReg, Arch.gSet, Stat.put, FlagSet.keep]

/-- Class 0x1. -/
theorem aluI_spec {f : AluI} (h : s.issues p f.cond .next = true) {tag : Tag} (imm : Word)
    {rule : TWord → TWord → Except TrapInfo Tag} (op : Word → Word → Word × FlagSet)
    (ht : rule ((s.core p).reg f.ra) ⟨imm, Tag.int⟩ = .ok tag) :
    let r := op ((s.core p).reg f.ra).payload imm
    Answers (aluI p f imm rule op s) fun t => Retires s t p ((s.core p).a.pc + 1) ((s.core p).a.gSet f.rd ⟨r.1, tag⟩)
      (if f.s then (s.core p).a.stat.put r.2 else (s.core p).a.stat) := by
  refine ⟨_, rfl, ?_⟩
  rw [State.issue_of_issues h rfl]
  simp only [State.fetched_reg, ht]
  exact State.retires_of_ok h _ _ _ fun w => by
    cases f.s <;> simp [Core.setReg, Core.setStat, Arch.setReg, Arch.gSet, Stat.put, FlagSet.keep]

/-- Class 0x4. -/
theorem fpOp_spec {f : FpF} (h : s.issues p f.cond .next = true) (hr : f.resv = 0) {ops : Core → List TWord} {want res : Tag}
    {op : Core → Word × FFlags} (hw : want ≠ Tag.poison)
    (hops : ∀ w, ops { s.core p with ahead := w } = ops (s.core p))
    (hop : ∀ w, op { s.core p with ahead := w } = op (s.core p))
    (ht : ∀ x ∈ ops (s.core p), x.tag = want ∨ x.tag = Tag.raw) :
    Answers (fpOp p f ops want res op s) fun t =>
      Retires s t p ((s.core p).a.pc + 1) ((s.core p).a.gSet f.rd ⟨(op (s.core p)).1, res⟩)
        ((s.core p).a.stat.stick (op (s.core p)).2) := by
  refine ⟨_, rfl, ?_⟩
  obtain ⟨w, hc⟩ := s.core_fetched p .next
  rw [State.issue_of_issues h (by simp [hr])]
  simp only [hc, hops, typeRule_ok hw ht]
  exact State.retires_of_ok h _ _ _ fun w => by simp [Core.setReg, Core.setStat, Arch.setReg, Arch.gSet, hop]

/-- An instruction whose body traps on the state that it finds takes that trap (R110). -/
theorem issue_trap {cond : BitVec 4} {legal : Bool} {flow : Flow} {body : State → Body} {t : TrapInfo}
    (h : s.issues p cond flow = true) (hl : legal = true) (hb : body (s.fetched p flow) = .trap (s.fetched p flow) t) :
    s.issue p cond legal flow body = (s.fetched p flow).takeTrap p t := by
  rw [State.issue_of_issues h hl, hb]; rfl

end Sys2Proof.Machine
end

