-- ==== Sys2Proof/Laws/Transport.lean ====
section
/-!
SUPPORT. What queueing a packet, failing the frames of a port, splitting a drive command and asking the security core can do.
-/

namespace Sys2Proof.Machine

variable {s : State}

/-- A packet of a connected queue pair joins the queue, and nothing else changes. -/
theorem State.queuePkt_connected {n : Nat} {c : ConnectP} (h : (s.qp n).conn = some c) (port : Port) (e : Nat) (type : BitVec 4)
    (hdr : XpHdr) (body : List Byte) : s.queuePkt n port e type hdr body =
      { s with net := { s.net with xq := s.net.xq ++ [s.packetOf n port e c type hdr body] } } := by
  simp only [State.queuePkt, h]

/-- On a path, the packet has that path's port and entropy value, and its number in the header. -/
theorem State.queueOn_connected {n : Nat} {c : ConnectP} (h : (s.qp n).conn = some c) (p : Nat) (type : BitVec 4) (hdr : XpHdr)
    (body : List Byte) : s.queueOn n p type hdr body = { s with net := { s.net with xq := s.net.xq ++
      [s.packetOf n (BitVec.ofNat 3 ((s.qp n).pathPort p)) ((s.qp n).pathEntropy p) c type { hdr with path := BitVec.ofNat 16 p } body] } } :=
  State.queuePkt_connected h _ _ _ _ _

/-- A port whose link is up fails no frame. -/
theorem State.failDown_up {port : Port} (h : (s.port port).up = true) : s.failDown port = s := by
  simp only [State.failDown, h, if_true]

/-- Nor does one for which no frame waits. -/
theorem State.failDown_none {port : Port} (h : s.starters port = []) : s.failDown port = s := by
  simp only [State.failDown, h, List.foldl_nil, ite_self]

/-- A drive command within the drive's maximum transfer is one part. -/
theorem State.newDrv_whole {c : DrvCmd} (h : (s.drive c.port).maxBlocks = 0 ∨ c.blocks ≤ (s.drive c.port).maxBlocks ∨
    (c.op == .read || c.op == .write) = false) : s.newDrv c = s.newPart { c with group := s.stor.nextId } := by
  have h' : (s.drive c.port).maxBlocks = 0 ∨ c.blocks ≤ (s.drive c.port).maxBlocks ∨ (!(c.op == .read || c.op == .write)) = true := by
    simpa using h
  simp only [State.newDrv, if_pos h']

/-- What a master asks of the security core: dropped, queued, or taken up. -/
theorem State.askOwn_cases (s : State) (m : Master) (a : OwnAsk) :
    ((s.phase.serves = false ∨ s.arrives m = false) ∧ s.askOwn m a = s) ∨
    (s.phase.serves = true ∧ s.arrives m = true ∧
      ((s.fw.down.contains .security = true ∧ s.askOwn m a = { s with own := { s.own with queued := s.own.queued ++ [a] } }) ∨
        (s.fw.down.contains .security = false ∧ s.askOwn m a = s.takeAsk a))) := by
  unfold State.askOwn
  cases hp : s.phase.serves <;> cases ha : s.arrives m <;> cases hd : s.fw.down.contains .security <;> simp

end Sys2Proof.Machine
end

