-- ==== Sys2Proof/Laws/Vote.lean ====
section
/-!
SUPPORT. What the record of a vote on a triplicated word changes: the log's registers, the free values taken and the hub's
reference counter, and no other field.
-/

namespace Sys2Proof.Machine

variable (s : State) (ue : Bool) (d : Domain)

@[simp] theorem State.logVote_mem : (s.logVote ue d).mem = s.mem := rfl
@[simp] theorem State.logVote_cores : (s.logVote ue d).cores = s.cores := rfl
@[simp] theorem State.logVote_flasks : (s.logVote ue d).flasks = s.flasks := rfl
@[simp] theorem State.logVote_fw : (s.logVote ue d).fw = s.fw := rfl
@[simp] theorem State.logVote_fab : (s.logVote ue d).fab = s.fab := rfl
@[simp] theorem State.logVote_own : (s.logVote ue d).own = s.own := rfl
@[simp] theorem State.logVote_sec : (s.logVote ue d).sec = s.sec := rfl
@[simp] theorem State.logVote_twin : (s.logVote ue d).twin = s.twin := rfl
@[simp] theorem State.logVote_phase : (s.logVote ue d).phase = s.phase := rfl
@[simp] theorem State.logVote_pending : (s.logVote ue d).pending = s.pending := rfl

/-- The counters of the `MEM` block are no words of its log. -/
theorem State.reg_logVote (x : Nat) (h : x < Reg.memLogHead) : (s.logVote ue d).reg x = s.reg x := by
  have hx : x < 0x900040 := h
  have words : ∀ (k : Nat) (t : Tab Word) (o : Nat) (bs : List Byte), x < o →
      Tab.get 0 (State.logMem.putWords' t o bs k) x = Tab.get 0 t x := by
    intro k
    induction k with
    | zero => intros; rfl
    | succ k ih => intro t o bs ho; rw [State.logMem.putWords', ih _ _ _ (by omega), Tab.get_put_ne _ _ _ (by omega)]
  show Tab.get 0 (Tab.put 0 (State.logMem.putWords' s.regs _ _ 4) _ _) x = Tab.get 0 s.regs x
  rw [Tab.get_put_ne _ _ _ (Nat.ne_of_lt h), words]
  show x < 0x900100 + _
  omega

/-- The slot lost reads as empty and is marked; no other slot changes. -/
theorem State.slot_loseSlot (i : Nat) : (s.loseSlot i).slot i = KeySlot.empty (s.slot i).assigned ∧
    (s.loseSlot i).slotLost i = true ∧ ∀ j, j ≠ i → (s.loseSlot i).slot j = s.slot j ∧ (s.loseSlot i).slotLost j = s.slotLost j := by
  refine ⟨by simp [State.loseSlot, State.clearSlot, State.setSlot, State.slot], by simp [State.loseSlot, State.slotLost], fun j hj => ?_⟩
  constructor
  · show Tab.get _ (Tab.put _ _ _ _) _ = _
    exact Tab.get_put_ne _ _ _ hj
  · have e : (List.elem j (List.filter (fun x => decide (x ≠ i)) s.sec.lostSlots ++ [i])) = List.elem j s.sec.lostSlots := by
      rw [Bool.eq_iff_iff]; simp [hj]
    exact e

end Sys2Proof.Machine
end

