-- ==== Sys2Proof/Tests/Slice0.lean ====
section
/-!
SUPPORT. Tests and witnesses: ill-formed terms that WellFormed refuses, single steps with results worked out from the spec, and
for the statements states and operands that meet their hypotheses.
-/

open Sys2Proof Sys2Proof.Machine

namespace Sys2Proof.Tests

set_option Elab.async false

/-! ### States to test on -/

/-- A descriptor over the whole fabric space 0x0, as the firmware domain has it. -/
def wide : Desc := ⟨0, 0x1_0000, true, true, true, true, Tag.raw, 0x100⟩

/-- A core that runs, with every segment over the first core stores. -/
def core0 : Core :=
  { Core.reset with
    run := .running, flask := 0x100, hasImage := true
    a := { Arch.reset with sg := Vector.replicate 8 wide, stat := { Stat.reset with te := true } } }

/-- Core 0 as given, with instruction words tagged CODE at the first sixteen words of its store. -/
def atCore (k : Core) : State :=
  let m := (List.range 16).foldl (fun m i => m.setWord i ⟨0, Tag.code⟩) Mem.reset
  { State.reset with mem := m }.setCore (.core 0) k

/-- Core 0 with registers put. -/
def withRegs (gs : List (RegNo × TWord)) : Core := { core0 with a := gs.foldl (fun a g => a.setReg g.1 g.2) core0.a }

def int (n : Nat) : TWord := ⟨BitVec.ofNat 32 n, Tag.int⟩
def p0 : Proc := .core 0

/-- The state that a command leaves; none for a fault or a refusal. -/
def left (i : Instr) (s : State) : Option State :=
  match exec i s with
  | .next t => some t
  | _ => none

/-- A register of core 0 after an instruction. -/
def reg (i : Instr) (s : State) (r : RegNo) : Option TWord := (left i s).map fun t => (t.core p0).reg r

/-- `Z`, `N`, `C`, `V` of core 0 after an instruction. -/
def flags (i : Instr) (s : State) : Option (Bool × Bool × Bool × Bool) :=
  (left i s).map fun t => let x := (t.core p0).a.stat; (x.z, x.n, x.c, x.v)

/-- The trap record of core 0 after an instruction: vector, `EPC`. -/
def trapped (i : Instr) (s : State) : Option (Nat × Nat × Nat) :=
  (left i s).map fun t => let x := (t.core p0).a.trap; (x.ecause.toNat % 16, x.ecause.toNat / 65536, x.epc.toNat)

/-- Every word of core 0 from 4 on. -/
def atWords (k : Core) (ws : List (Nat × TWord)) : State :=
  let s := atCore k
  { s with mem := ws.foldl (fun m w => m.setWord w.1 w.2) s.mem }

/-! ### Ill-formed terms -/

def alu (cond : BitVec 4) (resv : BitVec 5) : AluR := ⟨cond, 1, 2, 3, resv, true⟩
def hdr : CmdHdr := ⟨.flask 0 0, 0x11, 0, 1000⟩

theorem test_illformed_condition : (Instr.add p0 (alu 0xF 0)).wf = false ∧ (Instr.add p0 (alu 0 0)).wf = true := by decide
theorem test_illformed_reserved_bits : (Instr.add p0 (alu 0 1)).wf = false := by decide
theorem test_illformed_mov_sets_flags : (Instr.mov p0 (alu 0 0)).wf = false := by decide
theorem test_illformed_reserved_tag : (Instr.tset p0 ⟨0, 1, 2, 0xC⟩).wf = false := by decide
theorem test_illformed_ldc_tag : (Instr.ldc p0 ⟨0, 1, 2, 0, false, 0x300⟩).wf = false := by decide
theorem test_illformed_ldsub_kind : (Instr.ldsub p0 ⟨0, 1, 2, 0, false, 0x200⟩).wf = false := by decide
theorem test_illformed_call_mode : (Instr.call p0 ⟨0, 0, 0, 2, 0, 0⟩).wf = false := by decide
theorem test_illformed_call_mask : (Instr.call p0 ⟨0, 0, 0x4000, 0, 0, 0⟩).wf = false := by decide
theorem test_illformed_ret_fields : (Instr.ret p0 ⟨0, 1, 0⟩).wf = false := by decide
theorem test_illformed_stream : (Instr.recv p0 ⟨0, 1, 0, 1, 0⟩).wf = false := by decide
theorem test_illformed_fence : (Instr.fence p0 ⟨0, 0, 1, 0, 0⟩).wf = false := by decide
theorem test_illformed_edot_port : (Instr.edot p0 ⟨0, 0, 0, 1, true, 0, 2, 0⟩).wf = false := by decide
theorem test_illformed_ezero_exponent : (Instr.ezero p0 ⟨0, 0, false, 0, 1⟩).wf = false := by decide
theorem test_illformed_ewait_all : (Instr.ewait p0 ⟨0, 1, true, 0⟩).wf = false := by decide
theorem test_illformed_rdsys : (Instr.rdsys p0 ⟨0, 1, 0, 6⟩).wf = false ∧ (Instr.wrsys p0 ⟨0, 1, 0, 2⟩).wf = false := by decide
theorem test_illformed_rdid : (Instr.rdid p0 ⟨0, 1, 0, 4⟩).wf = false := by decide
theorem test_illformed_sys_operation : (Instr.sysHeartbeat p0 ⟨0, 1, 0, 4⟩).wf = false := by decide
theorem test_illformed_header_flags : (Instr.nop { hdr with flags := 0x0004 }).wf = false := by decide
theorem test_illformed_header_timeout : (Instr.nop { hdr with timeoutMs := 60001 }).wf = false ∧ (Instr.nop hdr).wf = true := by
  decide
theorem test_illformed_reset_reserved : (Instr.reset hdr 0 0 1).wf = false := by decide
theorem test_illformed_empty_tlp : (Instr.inboundReadTlp 0 0 0 false).wf = false := by decide
theorem test_illformed_register_offset : (Instr.registerWrite .he0 2 0).wf = false := by decide

/-! ### Single steps of a core, with results worked out by hand from the tables of spec/03_pothes_core.md -/

def regs2 (a b : TWord) : State := atCore (withRegs [(2, a), (3, b)])
def f0 : AluR := ⟨0, 1, 2, 3, 0, true⟩

theorem test_add_wraps : reg (.add p0 f0) (regs2 (int 0xFFFFFFFF) (int 1)) 1 = some (int 0) ∧
    flags (.add p0 f0) (regs2 (int 0xFFFFFFFF) (int 1)) = some (true, false, true, false) := by decide +kernel
theorem test_sub_borrows : reg (.sub p0 f0) (regs2 (int 0) (int 1)) 1 = some (int 0xFFFFFFFF) ∧
    flags (.sub p0 f0) (regs2 (int 0) (int 1)) = some (false, true, false, false) := by decide +kernel
theorem test_divs_corner : reg (.divs p0 f0) (regs2 (int 0x80000000) (int 0xFFFFFFFF)) 1 = some (int 0x80000000) ∧
    reg (.divs p0 f0) (regs2 (int 7) (int 0)) 1 = some (int 0xFFFFFFFF) := by decide +kernel
theorem test_rems_sign : reg (.rems p0 f0) (regs2 (int 0xFFFFFFF9) (int 2)) 1 = some (int 0xFFFFFFFF) := by decide +kernel
theorem test_sar_sign : reg (.sar p0 f0) (regs2 (int 0x80000000) (int 31)) 1 = some (int 0xFFFFFFFF) := by decide +kernel
theorem test_shift_count_masked : reg (.shl p0 f0) (regs2 (int 1) (int 33)) 1 = some (int 2) := by decide +kernel
theorem test_mulhs_negative : reg (.mulhs p0 f0) (regs2 (int 0xFFFFFFFF) (int 2)) 1 = some (int 0xFFFFFFFF) := by decide +kernel
theorem test_clz_zero : reg (.clz p0 f0) (regs2 (int 0) (int 0)) 1 = some (int 32) := by decide +kernel
theorem test_add_pointer : reg (.add p0 { f0 with s := false }) (regs2 ⟨100, Tag.ptr⟩ (int 4)) 1 = some ⟨104, Tag.ptr⟩ := by
  decide +kernel
theorem test_poison_traps : trapped (.add p0 f0) (regs2 ⟨0, Tag.poison⟩ (int 4)) = some (7, 0x0021, 0) := by decide +kernel
theorem test_movhi_keeps_low : reg (.movhi p0 ⟨0, 2, 0x1234⟩) (regs2 (int 0xABCD5678) (int 0)) 2 = some (int 0x12345678) := by
  decide +kernel
theorem test_fadd_halves : reg (.fadd p0 ⟨0, 1, 2, 3, 0, 0⟩) (regs2 ⟨0x3F000000, Tag.f32⟩ ⟨0x3F000000, Tag.f32⟩) 1 =
    some ⟨0x3F800000, Tag.f32⟩ := by decide +kernel
theorem test_fdiv_thirds : reg (.fdiv p0 ⟨0, 1, 2, 3, 0, 0⟩) (regs2 ⟨0x3F800000, Tag.f32⟩ ⟨0x40400000, Tag.f32⟩) 1 =
    some ⟨0x3EAAAAAB, Tag.f32⟩ := by decide +kernel
theorem test_fsqrt_two : reg (.fsqrt p0 ⟨0, 1, 2, 3, 0, 0⟩) (regs2 ⟨0x40000000, Tag.f32⟩ (int 0)) 1 =
    some ⟨0x3FB504F3, Tag.f32⟩ := by decide +kernel
theorem test_fxmul_saturates : reg (.fxmul p0 ⟨0, 1, 2, 3, 0, 0⟩) (regs2 ⟨0x7FFFFFFF, Tag.fx⟩ ⟨0x7FFFFFFF, Tag.fx⟩) 1 =
    some ⟨0x7FFFFFFF, Tag.fx⟩ := by decide +kernel
theorem test_load_word : reg (.ld p0 ⟨0, 1, 2, 0, false, 1⟩) (atWords (withRegs [(2, int 400)]) [(101, ⟨9, Tag.f32⟩)]) 1 =
    some ⟨9, Tag.f32⟩ := by decide +kernel
theorem test_load_byte_signed : reg (.ldsub p0 ⟨0, 1, 2, 0, false, 0x081⟩) (atWords (withRegs [(2, int 400)]) [(100, int 0x8000)]) 1 =
    some (int 0xFFFFFF80) := by decide +kernel
theorem test_store_byte_keeps_tag : ((left (.stb p0 ⟨0, 1, 2, 0, false, 3⟩) (atWords (withRegs [(1, int 0xAB), (2, int 400)])
    [(100, ⟨0x11223344, Tag.raw⟩)])).map fun t => t.mem.word 100) = some ⟨0xAB223344, Tag.raw⟩ := by decide +kernel
theorem test_misaligned_load_traps : trapped (.ld p0 ⟨0, 1, 2, 0, false, 0⟩) (atCore (withRegs [(2, int 402)])) =
    some (5, 0x0015, 0) := by decide +kernel
theorem test_tas_takes : reg (.tas p0 ⟨0, 1, 2, 0, false, 0⟩) (atWords (withRegs [(2, int 400)]) [(100, int 0)]) 1 = some (int 0) ∧
    ((left (.tas p0 ⟨0, 1, 2, 0, false, 0⟩) (atWords (withRegs [(2, int 400)]) [(100, int 0)])).map fun t => t.mem.word 100) =
      some (int 1) := by decide +kernel
theorem test_tas_poison : reg (.tas p0 ⟨0, 1, 2, 0, false, 0⟩) (atWords (withRegs [(2, int 400)]) [(100, TWord.poisoned)]) 1 =
    some TWord.poisoned ∧ (flags (.tas p0 ⟨0, 1, 2, 0, false, 0⟩) (atWords (withRegs [(2, int 400)]) [(100, TWord.poisoned)])).map (·.1) =
      some false := by decide +kernel
theorem test_branch_links : reg (.bl p0 ⟨0, 5⟩) (atCore core0) 15 = some ⟨1, Tag.code⟩ ∧
    ((left (.bl p0 ⟨0, 5⟩) (atCore core0)).map fun t => (t.core p0).a.pc) = some 5 := by decide +kernel
theorem test_branch_off_store_traps : trapped (.b p0 ⟨0, 0x3FFFFF⟩) (atCore core0) = some (2, 0x0017, 0) := by decide +kernel
/-! ### Witnesses: states and operands that meet the hypotheses of the statements -/

/-- The hypotheses of `RegisterArithmetic`, `UnaryRegister` and the integer clause of `CompareAndTag`. -/
theorem witness_register_operands : (regs2 (int 7) ⟨3, Tag.raw⟩).issues p0 0 .next = true ∧ f0.resv = 0 ∧
    intLike (((regs2 (int 7) ⟨3, Tag.raw⟩).core p0).reg 2).tag = true ∧
    intLike (((regs2 (int 7) ⟨3, Tag.raw⟩).core p0).reg 3).tag = true := by decide +kernel

/-- `PointerArithmetic`: a pointer and a number, and two pointers. -/
theorem witness_pointers : (regs2 ⟨400, Tag.ptr⟩ ⟨100, Tag.ptr⟩).issues p0 0 .next = true ∧
    (((regs2 ⟨400, Tag.ptr⟩ ⟨100, Tag.ptr⟩).core p0).reg 2).tag = Tag.ptr ∧
    (((regs2 ⟨400, Tag.ptr⟩ (int 1)).core p0).reg 2).tag = Tag.ptr ∧
    (regs2 ⟨400, Tag.ptr⟩ (int 1)).issues p0 0 .next = true := by decide +kernel

/-- `ImmediateForms`: a register tagged POISON, for the last clause. -/
theorem witness_movhi_poison : (regs2 ⟨0, Tag.poison⟩ (int 0)).issues p0 0 .next = true ∧
    (((regs2 ⟨0, Tag.poison⟩ (int 0)).core p0).reg 2).tag = Tag.poison := by decide +kernel

/-- `CompareAndTag`, `FloatAndFixed`: floating-point and fixed-point operands. -/
theorem witness_float_operands :
    (((regs2 ⟨0x3F800000, Tag.f32⟩ ⟨0x7FC00000, Tag.raw⟩).core p0).reg 2).tag = Tag.f32 ∧
    (((regs2 ⟨0x3F800000, Tag.f32⟩ ⟨0x7FC00000, Tag.raw⟩).core p0).reg 3).tag = Tag.raw ∧
    (regs2 ⟨0x3F800000, Tag.f32⟩ ⟨0x7FC00000, Tag.raw⟩).issues p0 0 .next = true ∧
    (regs2 ⟨1, Tag.fx⟩ ⟨2, Tag.fx⟩).issues p0 0 .next = true ∧ (((regs2 ⟨1, Tag.fx⟩ ⟨2, Tag.fx⟩).core p0).reg 3).tag = Tag.fx ∧
    Tag.reserved 0xB = false ∧ Tag.reserved 0xF = false := by decide +kernel

/-- `SegmentCheck`: the last word of a segment is inside, the next is not; a misaligned offset; a permission that is missing. -/
theorem witness_segment_bounds :
    let a := core0.a
    let ro := { a with sg := a.sg.set 1 { wide with pw := false } }
    (0x1_0000 * 64 - 4 : Int) + 4 ≤ (a.desc 0).lines.toNat * 64 ∧ ¬ ((0x1_0000 * 64 : Int) + 4 ≤ (a.desc 0).lines.toNat * 64) ∧
    (2 : Int) % (min 4 4 : Nat) ≠ 0 ∧ (ro.desc 1).pw = false ∧ (ro.desc 1).lines ≠ 0 ∧ (a.desc 0).pr = true := by decide +kernel

/-- A core whose g2 names word 100 of its own store, with that word as given. -/
def onWord (w v : TWord) : State := atWords (withRegs [(1, v), (2, int 400)]) [(100, w)]

/-- `LocalLoads`, `LocalStores`, `LocalAtomics`: what they ask of the word, tagged F32 and tagged POISON. -/
theorem witness_word : (onWord ⟨9, Tag.f32⟩ (int 0)).reads p0 400 ⟨9, Tag.f32⟩ ∧ (onWord ⟨9, Tag.int⟩ (int 0xAB)).stores p0 400 ∧
    (onWord ⟨9, Tag.int⟩ (int 0xAB)).unplaced 400 ∧ (onWord TWord.poisoned (int 0xAB)).meets p0 400 ∧
    ((onWord TWord.poisoned (int 0xAB)).mem.word 100).tag = Tag.poison ∧
    (onWord TWord.poisoned (int 0xAB)).issues p0 0 .next = true := by
  unfold State.reads State.stores State.meets State.unplaced
  decide +kernel

def ok? {α : Type} : Except TrapInfo α → Option α
  | .ok a => some a
  | .error _ => none

/-- `LocalLoads`: a word of the core's own store, with and without the tag that ldc wants. -/
theorem witness_local_load :
    let s := onWord ⟨9, Tag.f32⟩ (int 0)
    s.issues p0 0 .next = true ∧ offLike ((s.core p0).reg 2).tag = true ∧
    ok? (reach s p0 2 0 false 0 4 Need.read) = some (400, .own 400) ∧ Place.isLocal (.own 400) = true ∧
    (s.core p0).unseenAt 100 = false ∧ s.mem.wordMark 100 = .good ∧ s.mem.word 100 = ⟨9, Tag.f32⟩ ∧ Tag.f32 ≠ Tag.poison ∧
    ok? (reach s p0 2 0 false 3 1 Need.read) = some (403, .own 403) ∧
    ok? (segCheck (s.core p0).a 0 400 4 Need.none) = some 400 := by decide +kernel

/-- `LocalStores`, `LocalAtomics`: a whole word without LOCK, no move, no flip; `StoresRespectTags`: a LOCK word. -/
theorem witness_local_store :
    let s := onWord ⟨9, Tag.int⟩ (int 0xAB)
    let l := onWord ⟨0, Tag.lock⟩ (int 0xAB)
    ok? (reach s p0 2 0 false 0 4 Need.write) = some (400, .own 400) ∧ s.mem.wordMark 100 = .good ∧
    (s.mem.word 100).tag ≠ Tag.lock ∧ (s.core p0).moves.toList.all Option.isNone = true ∧ s.mem.flip = none ∧
    ((s.core p0).reg 1).tag ∉ [Tag.lock, Tag.token, Tag.poison] ∧
    ok? (reach s p0 2 0 false 0 4 ⟨true, true, true⟩) = some (400, .own 400) ∧
    l.issues p0 0 .next = true ∧ (l.mem.word 100).tag = Tag.lock ∧
    ok? (reach l p0 2 0 false 0 4 Need.write) = some (400, .own 400) ∧
    (l.core p0).eng.toList.all (fun g => g.queue.isEmpty) = true ∧
    ok? (reach l p0 2 0 false 2 2 Need.write) = some (402, .own 402) ∧
    (let x := onWord TWord.poisoned (int 0xAB)
     (x.mem.word 100).tag = Tag.poison ∧ ok? (reach x p0 2 0 false 3 1 Need.write) = some (403, .own 403)) := by decide +kernel

/-- Core 0 with a segment over a cluster store of another cluster and one over LPDDR. -/
def awayCore : Core :=
  let k := withRegs [(1, int 5), (2, int 64)]
  { k with a := { k.a with sg := (k.a.sg.set 1 { wide with base := 0x1_0010_0000_000 }).set 2 { wide with base := 0x2000_0000_0000 } } }

/-- `RemoteAccesses`: a cluster store elsewhere, and LPDDR. -/
theorem witness_remote :
    let s := atCore awayCore
    s.issues p0 0 .next = true ∧
    (∃ fa, reach s p0 2 1 false 0 4 Need.read = .ok (64, .away fa) ∧ space fa = 1) ∧
    (∃ fa, reach s p0 2 2 false 0 4 Need.write = .ok (64, .away fa) ∧ space fa < 3) ∧
    ((s.core p0).reg 1).tag ∉ [Tag.lock, Tag.token, Tag.poison] :=
  ⟨by decide +kernel, ⟨_, rfl, by decide +kernel⟩, ⟨_, rfl, by decide +kernel⟩, by decide +kernel⟩

/-- `Branches`: the first word, the last, and either side of the store. -/
theorem witness_branches : (atCore core0).issues p0 0 .transfer = true ∧ procWords p0 = 2048 ∧ ((atCore core0).core p0).a.pc = 0 ∧
    (2047 : Int) < procWords p0 ∧ (procWords p0 : Int) ≤ 2048 ∧
    (((atCore (withRegs [(2, ⟨2047, Tag.code⟩)])).core p0).reg 2).tag = Tag.code := by decide +kernel

/-- `CallAndReturn`: a stack below g14, and a frame header at it. -/
theorem witness_call_and_return :
    let s := atCore (withRegs [(14, ⟨400, Tag.ptr⟩)])
    let r := atWords (withRegs [(14, ⟨400, Tag.ptr⟩), (15, ⟨4, Tag.code⟩)]) [(100, ⟨0xCA110000, Tag.raw⟩)]
    s.issues p0 0 .call = true ∧ offLike ((s.core p0).reg 14).tag = true ∧
    ok? (segCheck (s.core p0).a 7 396 4 Need.write) = some 396 ∧ ok? (locate s p0 ((s.core p0).a.desc 7) 7 396 396) = some (.own 396) ∧
    r.issues p0 0 .transfer = true ∧ ((r.core p0).reg 15).tag = Tag.code ∧ ((r.core p0).reg 15).payload.toNat < procWords p0 ∧
    ok? (segCheck (r.core p0).a 7 400 4 Need.read) = some 400 ∧ (r.mem.word 100).payload = 0xCA110000 := by decide +kernel

/-- Core 0 with a word at input port 3, and credit on output port 0. -/
def streamCore : Core :=
  let k := withRegs [(1, int 5)]
  (k.setInport 3 [⟨int 9, 0x100, false⟩]).setOutport 0 { k.outport 0 with credits := 1, max := 4, dst := some (1, 2) }

/-- `StreamReceives`, `StreamSends`: a port with a word, an empty one, credit and none. -/
theorem witness_streams :
    let s := atCore streamCore
    s.issues p0 0 .next = true ∧ (s.core p0).front 3 = some (int 9) ∧ (s.core p0).front 2 = none ∧
    0 < ((s.core p0).outport 0).credits ∧ ((s.core p0).outport 1).credits = 0 ∧ ((s.core p0).outport 0).dst = some (1, 2) ∧
    ((s.core p0).reg 1).tag ≠ Tag.lock ∧
    (let l := atCore { streamCore with a := (withRegs [(1, ⟨0, Tag.lock⟩)]).a }
     l.issues p0 0 .next = true ∧ ((l.core p0).reg 1).tag = Tag.lock) := by decide +kernel
/-- Core 0 with segment 1 over the cluster store of cluster 0, and g2 at word 0x40 of it. -/
def syncCore (locks : List HeldLock) : Core :=
  let k := withRegs [(1, int 1), (2, int 0x100)]
  { k with locks := locks, a := { k.a with sg := k.a.sg.set 1 { wide with base := 0x1000_0000_0000 } } }

def lockAt (n : Nat) : HeldLock := ⟨BitVec.ofNat 48 (0x1000_0000_0000 + 4 * n), false⟩

/-- `SyncLeavesForHome` and `FenceWaits`; `LockLimit`: three locks held leave, four trap. -/
theorem witness_sync_issue :
    let s := atCore (syncCore [lockAt 0, lockAt 1, lockAt 2])
    let l := atCore (syncCore [lockAt 0, lockAt 1, lockAt 2, lockAt 3])
    s.issues p0 0 .next = true ∧ offLike ((s.core p0).reg 2).tag = true ∧ space 0x1000_0000_0100 = 1 ∧
    ok? (segCheck (s.core p0).a 1 0x100 4 ⟨true, true, false⟩) = some 0x1000_0000_0100 ∧
    (ok? (locate s p0 ((s.core p0).a.desc 1) 1 0x100 0x1000_0000_0100)).isSome = true ∧ intLike ((s.core p0).reg 1).tag = true ∧
    s.fenceOver p0 = true ∧ (s.core p0).locks.length < 4 ∧ l.issues p0 0 .next = true ∧ 4 ≤ (l.core p0).locks.length ∧
    (ok? (locate l p0 ((l.core p0).a.desc 1) 1 0x100 0x1000_0000_0100)).isSome = true ∧
    (let w := atCore { core0 with unacked := 1 }
     w.issues p0 0 .next = true ∧ w.fenceOver p0 = false) := by decide +kernel

/-- Core 0 with g2 at word 0x100 of its store and g3 at 0x400, for runs. -/
def runCore : Core := withRegs [(2, int 0x400), (3, int 0x1000), (4, int 0)]

/-- `EngineQueues`: runs of one block inside the core's own store, and a parameter for epack and emx. -/
theorem witness_engine_queues :
    let s := atCore runCore
    let k := s.core p0
    s.issues p0 0 .next = true ∧ (k.engine 0).err = none ∧ (k.engine 0).queue.length < 2 ∧ k.portsEmpty = true ∧
    offLike (k.reg 2).tag = true ∧ intLike (k.reg 4).tag = true ∧
    ok? (engCheck s p0 0 2 (k.fmt.weights.fixedWords 1 + 1) Need.read) = some (0x400, 0x400) ∧
    ok? (engCheck s p0 0 3 (k.fmt.activations.fixedWords 1 + 1) Need.read) = some (0x1000, 0x1000) ∧
    (packParam 0).isSome = true ∧ (mxParam 16).isSome = true ∧
    (match packParam 0 with
      | some q => (ok? (engCheck s p0 0 2 (32 * q.n) Need.read)).isSome &&
        (ok? (engCheck s p0 0 3 (q.fmt.fixedWords q.n + 2 * q.n) Need.write)).isSome
      | none => false) = true ∧
    (match mxParam 16 with
      | some q => (ok? (engCheck s p0 0 2 (packSizes false q).1 Need.read)).isSome &&
        (ok? (engCheck s p0 0 3 (packSizes false q).2 Need.write)).isSome
      | none => false) = true := by decide +kernel

/-- `EngineReads`: an idle engine; the field values are those of each clause. -/
theorem witness_engine_reads : ((atCore core0).core p0 |>.engine 3).err = none ∧ ((atCore core0).core p0 |>.engine 3).queue = [] ∧
    (⟨0, 3, 1, 2, 0, false, 0⟩ : ErdF).resv = 0 ∧ (⟨0, 3, false, 0⟩ : EwaitF).all = false ∧ (⟨0, 3, 1, 3, true, 0⟩ : EdriftF).clr = true := by
  decide +kernel

/-- `BlockMoves`: the first slot free, the second free behind it, and a move that failed. -/
theorem witness_block_moves :
    let s := atCore (withRegs [(2, int 8), (3, int 16)])
    let m : Move := ⟨0, 0, 0x100, Tag.raw, 0x400, 0x100, 1, none, 0⟩
    let t := atCore { withRegs [(2, int 8), (3, int 16)] with moves := (Core.reset.moves.set 0 (some m)) }
    let e := atCore { core0 with moveErr := [(1, 3)] }
    s.issues p0 0 .next = true ∧ offLike ((s.core p0).reg 2).tag = true ∧ offLike ((s.core p0).reg 3).tag = true ∧
    ok? (moveCheck s p0 0 2 4 Need.read) = some 512 ∧ ok? (moveCheck s p0 0 3 4 Need.write) = some 1024 ∧
    space (512 % 2 ^ 48) ≠ 5 ∧ (s.core p0).moves[0] = none ∧ t.issues p0 0 .next = true ∧ (t.core p0).moves[1] = none ∧
    ((t.core p0).moves[0]).isSome = true ∧ e.issues p0 0 .next = true ∧ (e.core p0).moveErr = [(1, 3)] ∧
    (e.core p0).moves.toList.all Option.isNone = true ∧ e.movesOut p0 = false ∧ s.movesOut p0 = false ∧
    (t.core p0).moves.toList.all Option.isNone = false := by decide +kernel

/-- A cluster control core that issues. -/
def ccc : State :=
  { State.reset with cores := [], fwCores := [] }.setCore (.ccc 0)
    { Core.firmware with a := { Arch.reset with g := Arch.reset.g.set 2 (int 5), stat := { Stat.reset with te := true } } }

/-- `SystemRegisters`: a number at ra, zero and not; a timer pending and not; `SystemReads`: counters allowed and not. -/
theorem witness_system :
    let s := regs2 (int 7) (int 0)
    let t := atCore { core0 with a := { core0.a with timers := { core0.a.timers with pending := true }, stat := { Stat.reset with te := false } } }
    s.issues p0 0 .next = true ∧ intLike ((s.core p0).reg 2).tag = true ∧ ((s.core p0).reg 2).payload ≠ 0 ∧
    ((s.core p0).reg 3).payload = 0 ∧ (s.core p0).a.timers.pending = false ∧ (s.core p0).portsEmpty = true ∧
    t.issues p0 0 .next = true ∧ (t.core p0).a.timers.pending = true ∧ s.userCounters 0 = false ∧ countedEvent PmEv.retired = true := by
  decide +kernel

/-- `FirmwareOpsArePrivileged` and `FirmwareOps`: a core, a hub processor and a cluster control core that issue. -/
theorem witness_firmware_ops :
    (atCore core0).issues p0 0 .next = true ∧ State.reset.issues (.hub 2) 0 .next = true ∧ procIsCore (.hub 2) = false ∧
    intLike ((State.reset.core (.hub 2)).reg 1).tag = true ∧ ((State.reset.reg Reg.ladleTapEn).getLsbD 0) = false ∧
    (State.reset.core (.hub 2)).a.timers.pending = false ∧ ccc.issues (.ccc 0) 0 .next = true ∧
    coreCluster (BitVec.ofNat 20 5) = 0 ∧ (descOf 0 0 0 0).flask.toNat < 256 ∧
    ((ccc.fetched (.ccc 0) .next).regSpaceRead (3 * 2 ^ 44 + Reg.idDevice)).isSome = true := by decide +kernel

/-- `FetchNeedsCode`: the word at pc is tagged INT; one that is tagged POISON. -/
theorem witness_fetch_tag :
    let s := atWords core0 [(0, int 0)]
    let k := s.core p0
    k.run = .running ∧ k.wait = none ∧ s.phase ≠ .off ∧ k.postErr = [] ∧ k.a.timers.pending = false ∧ k.a.pc < procWords p0 ∧
    k.mayFetch p0 k.a.pc = true ∧ s.mem.wordMark 0 = .good ∧ (s.mem.word 0).tag ≠ Tag.code ∧ k.ahead = [] ∧
    ((atWords core0 [(0, TWord.poisoned)]).mem.word 0).tag = Tag.poison ∧ (atWords core0 [(0, TWord.poisoned)]).mem.flip = none := by decide +kernel

/-- `FalseConditionOnlyMovesPc` and `ReservedBitsTrap`: condition EQ with `Z` 0; the reserved condition; reserved bits. -/
theorem witness_conditions : (atCore core0).atIssue p0 .next = true ∧ (atCore core0).atIssue p0 .call = true ∧
    ((atCore core0).core p0).a.stat.z = false ∧ (Instr.add p0 { f0 with cond := 1 }).wf = true ∧
    (Instr.add p0 { f0 with resv := 1 }).wf = false ∧ (Instr.add p0 f0).firmwareOp = false := by decide +kernel

/-- `TrapEntry` and `DoubleTrapStops`: a vector word tagged CODE, `TE` 1 and 0; `TrapReturn` and `RaiseTakesSoft` issue. -/
theorem witness_traps :
    let s := atCore core0
    let d := atCore { core0 with a := { core0.a with stat := { Stat.reset with te := false } } }
    (s.core p0).wait = none ∧ (s.core p0).a.stat.te = true ∧ s.mem.wordMark 6 = .good ∧ (s.mem.word 6).tag = Tag.code ∧
    (d.core p0).a.stat.te = false ∧ Vec.tag ≠ Vec.timer ∧ s.issues p0 0 .transfer = true := by decide +kernel

/-- `BoundaryTraps`: an error that waits, and a pending timer; `WaitingCoresIssueNothing`: a core that waits. -/
theorem witness_boundary :
    let e := atCore { core0 with postErr := [⟨true, 1, 4⟩] }
    let t := atCore { core0 with a := { core0.a with timers := { core0.a.timers with pending := true } } }
    let w := atCore { core0 with wait := some ⟨.halt p0 ⟨0, 0, 0, 0⟩, true, 0, []⟩ }
    (e.core p0).run = .running ∧ (e.core p0).postErr = [⟨true, 1, 4⟩] ∧ e.phase ≠ .off ∧ (t.core p0).a.timers.pending = true ∧
    (t.core p0).a.stat.te = true ∧ (t.core p0).wait = none ∧ (w.core p0).wait ≠ none := by decide +kernel

/-- `OperandTraps`: a POISON operand, a pointer where a number is due, at the first and at the second place. -/
theorem witness_operand_traps :
    (regs2 ⟨0, Tag.poison⟩ (int 1)).issues p0 0 .next = true ∧ (regs2 ⟨0, Tag.ptr⟩ (int 1)).issues p0 0 .next = true ∧
    intLike (((regs2 ⟨0, Tag.ptr⟩ (int 1)).core p0).reg 2).tag = false ∧
    intLike (((regs2 (int 1) ⟨0, Tag.f32⟩).core p0).reg 3).tag = false := by decide +kernel

/-! ### Homes and answers -/

def load (id : Nat) (fa : Nat) (op : MemOp) : MemReq := ⟨id, p0, 0, BitVec.ofNat 48 fa, 0x100, 0, 0, false, op⟩

/-- State with one request at its home, the word there as given. -/
def home (r : MemReq) (w : TWord) : State :=
  let s := atWords core0 [(100, w)]
  { s with fab := { s.fab with reqs := [r] } }

/-- `HomeAccess`: a load and a store of tagged memory and of LPDDR, a LOCK word, and a domain that does not own the address. -/
theorem witness_home_access :
    let r := load 1 400 (.load 4)
    let s := home r (int 9)
    let lp := load 2 (2 * 2 ^ 44 + 4) (.store 4 (int 5))
    let t := home lp (int 9)
    let x := { load 3 400 (.load 4) with dom := 7 }
    s.fab.reqs.find? (·.id = r.id) = some r ∧ s.stale r.issuer r.gen = false ∧ s.memTurn r = true ∧ faValid 400 = true ∧
    s.keyHold 400 = false ∧ s.mem.mustCopy 400 = false ∧ homeOk s r.dom 400 = true ∧ space 400 < 2 ∧ s.mem.wordMark 100 = .good ∧
    (s.mem.word 100).tag ≠ Tag.poison ∧ s.mem.flip = none ∧ ((home r ⟨0, Tag.lock⟩).mem.word 100).tag = Tag.lock ∧
    t.fab.reqs.find? (·.id = lp.id) = some lp ∧ faValid (2 * 2 ^ 44 + 4) = true ∧ homeOk t 0x100 (2 * 2 ^ 44 + 4) = true ∧
    s.fab.landing = [] ∧ t.mem.cw (2 * 2 ^ 44) = .good ∧ t.mem.cw (2 * 2 ^ 44 + 32) = .good ∧ homeOk (home x (int 9)) 7 400 = false := by decide +kernel

/-- `CopyOnWrite`: a frozen granule that is not copied yet, with nothing waiting at the endpoints. -/
theorem witness_copy : let s := { State.reset with mem := { Mem.reset with frozen := Tab.put none [] 5 (some ⟨0, false, [], 0⟩) } }
    Tab.get none s.mem.frozen 5 = some ⟨0, false, [], 0⟩ ∧ (s.ep 0).inq = [] ∧ (s.ep 1).inq = [] := by decide +kernel

/-- Core 0 that waits at an instruction, with one reply on its way. -/
def answered (i : Instr) (posted : Bool) (y : Reply) : State × MemRep :=
  let r : MemRep := ⟨p0, 0, 400, 0, 400, posted, y⟩
  let s := atCore { core0 with wait := if posted then none else some ⟨i, true, 400, []⟩, unacked := 1 }
  ({ s with fab := { s.fab with reps := [r], syncReps := [r] } }, r)

def ldF : MemF := ⟨0, 1, 2, 0, false, 0⟩
def syF : SyncF := ⟨0, 1, 2, 1, 0⟩

/-- `ResponsesReachCores`: data for a load, an error, an acknowledgement and a posted store's error. -/
theorem witness_responses :
    let d := answered (.ld p0 ldF) false (.data (int 3))
    let e := answered (.ld p0 ldF) false .bus
    let a := answered (.ld p0 ldF) true .done
    let x := answered (.ld p0 ldF) true .accessFault
    d.1.fab.reps.find? (fun y => y.issuer == p0 && !y.posted) = some d.2 ∧ d.1.stale p0 d.2.gen = false ∧
    (d.1.core p0).wait = some ⟨.ld p0 ldF, true, 400, []⟩ ∧ d.2.reply = .data (int 3) ∧ e.2.reply ∈ [Reply.accessFault, Reply.bus] ∧
    a.1.fab.reps.find? (fun y => y.issuer == p0 && y.posted && y.reply.isDone) = some a.2 ∧ (a.1.core p0).wait = none ∧
    x.1.fab.reps.find? (fun y => y.issuer == p0 && y.posted && !y.reply.isDone) = some x.2 := by decide +kernel

/-- `StreamsMove`: a word in flight, a token held by the hub, and a credit on its way. -/
theorem witness_stream_moves :
    let x : Transit := ⟨1, 0, 0, 0, 2, ⟨int 9, 0x100, false⟩⟩
    let s := { atCore core0 with fab := { Fabric.reset with transit := [x] } }
    let h : HeldToken := ⟨0, 5, 0, 2, 77⟩
    let t := { atCore core0 with fab := { Fabric.reset with tokens := [h] } }
    let c := { atCore streamCore with fab := { Fabric.reset with credits := [(0, 0, 0, 2)] } }
    s.fab.transit.find? (fun y => y.src == 1 && y.port == 0) = some x ∧ s.stale (.core 1) 0 = false ∧
    (s.core p0).portCount 2 false < 16 ∧ (s.core p0).wait = none ∧ (∀ q, (s.core p0).claims q = []) ∧
    t.fab.tokens.find? (fun y => y.flask == 0 && y.binding == 5) = some h ∧ (t.core p0).portCount 2 true < 8 ∧
    c.fab.credits.filter (fun y => y.1 == 0 && y.2.1 == 0) = [(0, 0, 0, 2)] ∧ c.stale (.core 1) 0 = false := by decide +kernel

def syncReq (k : SyncKind) (v : Nat) : SyncReq := ⟨4, p0, 0, 0x1000_0000_0100, 0x100, 1, 0x100, k, BitVec.ofNat 32 v, 7⟩

/-- A synchronisation request at its home, the object's word as given. -/
def syncHome (k : SyncKind) (v : Nat) (w : TWord) : State :=
  let s := atWords core0 [(0x1000_0000_0100 / 4, w)]
  { s with fab := { s.fab with syncs := [syncReq k v] } }

/-- `SyncAtHome`: a tally at 0 and at its greatest count, a free lock and one held, a word that is no object. -/
theorem witness_sync_home :
    let s := syncHome .tdec 1 (int 1)
    s.fab.syncs.find? (·.id = 4) = some (syncReq .tdec 1) ∧ s.stale p0 0 = false ∧ s.syncTurn (syncReq .tdec 1) = true ∧
    faValid 0x1000_0000_0100 = true ∧ homeOk s 0x100 0x1000_0000_0100 = true ∧ s.objectKind 0x100 0x1000_0000_0100 = none ∧
    s.mem.wordMark (0x1000_0000_0100 / 4) = .good ∧ s.mem.flip = none ∧ s.waitersAt 0x1000_0000_0100 = [] ∧
    (s.mem.word (0x1000_0000_0100 / 4)).tag = Tag.int ∧
    2 ^ 31 ≤ ((syncHome .tinc 1 (int 0x7FFFFFFF)).mem.word (0x1000_0000_0100 / 4)).payload.toNat % 2 ^ 31 + 1 ∧
    ((syncHome .lock 0 ⟨0, Tag.lock⟩).mem.word (0x1000_0000_0100 / 4)).payload.getLsbD 20 = false ∧
    ((syncHome .unlock 0 ⟨0x100007, Tag.lock⟩).mem.word (0x1000_0000_0100 / 4)).payload.toNat % 2 ^ 20 = (syncReq .unlock 0).holder ∧
    ((syncHome .tdec 1 ⟨0, Tag.f32⟩).mem.word (0x1000_0000_0100 / 4)).tag ∉ [Tag.int, Tag.raw, Tag.lock, Tag.poison] := by
  decide +kernel

/-- `SyncAnswers`: a core that waits at a tdec, and its answer. -/
theorem witness_sync_answers :
    let d := answered (.tdec p0 syF) false (.flags true none)
    d.1.fab.syncReps.find? (·.issuer == p0) = some d.2 ∧ d.1.stale p0 d.2.gen = false ∧
    (d.1.core p0).wait = some ⟨.tdec p0 syF, true, d.2.fa.toNat, []⟩ := by decide +kernel

/-- `RetryAndAbandon`: a twait that a fence holds back, and a lock whose holder is lost. -/
theorem witness_retry :
    let s := atCore { syncCore [] with wait := some ⟨.twait p0 syF, false, 0, []⟩ }
    let l0 := syncHome .lock 0 ⟨0x100007, Tag.lock⟩
    let l := { l0 with fab := { l0.fab with lost := [(1, 7, 0x1000_0000_0100)] } }
    (s.core p0).wait = some ⟨.twait p0 syF, false, 0, []⟩ ∧
    ok? (segCheck (s.core p0).a 1 0x100 4 Need.read) = some 0x1000_0000_0100 ∧
    (ok? (locate s p0 ((s.core p0).a.desc 1) 1 0x100 0x1000_0000_0100)).isSome = true ∧
    l.fab.lost = [(1, 7, 0x1000_0000_0100)] ∧ l.waitersAt 0x1000_0000_0100 = [] ∧
    (l.mem.word (0x1000_0000_0100 / 4)).payload.toNat % 2 ^ 20 = 7 := by decide +kernel

def ezF : EzeroF := ⟨0, 0, true, 0, 3⟩
def edF : EdotF := ⟨0, 0, 0, 2, true, 0, 0, 0⟩

/-- `MovesAndEnginesEnd`: a move in its slot, an ezero at the front of its queue, an edot whose port is empty. -/
theorem witness_moves_end :
    let m : Move := ⟨0, 0, 0x100, Tag.raw, 0x400, 0x100, 1, none, 0⟩
    let s := atCore { core0 with moves := Core.reset.moves.set 2 (some m) }
    let op : EngOp := ⟨.ezero p0 ezF, 0, 0, 0, 0, 0, 0, 0, 0, 0, [], []⟩
    let dop : EngOp := ⟨.edot p0 edF, 0, 0, 0, 9, 0, 0, 9, 0, 0, [], []⟩
    let z := atCore (core0.setEngine 0 { Engine.reset with queue := [op] })
    let d := atCore (core0.setEngine 0 { Engine.reset with queue := [dop] })
    (s.core p0).moves[2] = some m ∧ s.moveTurn p0 m = true ∧ (s.core p0).wait = none ∧ ((z.core p0).engine 0).queue = [op] ∧
    (z.core p0).portsEmpty = true ∧ ((d.core p0).engine 0).queue = [dop] ∧ dop.ready (d.core p0).fmt = false := by decide +kernel

/-- `CoreTimers`: a timer that is armed. -/
theorem witness_timers :
    let s := atCore { core0 with a := { core0.a with timers := { core0.a.timers with armed := true } } }
    (s.core p0).a.timers.armed = true ∧ (s.core p0).run = .running ∧ (s.core p0).wait = none := by decide +kernel

/-! ### Ladles and flasks -/

def adm : CmdHdr := ⟨.admin, 0x21, 0, 0⟩
def tnt : CmdHdr := ⟨.flask 0 0, 0x11, 0, 0⟩

/-- A ladle of 16 entries in LPDDR of the flask, with one entry that is not read yet. -/
def lad : Ladle :=
  { Ladle.off 1 with enabled := true, vector := 0, sqLog2 := 4, cqLog2 := 4, sqTail := 1, sqBase := 0x2000_0000_0000
                     cqBase := 0x2000_0000_1000 }

/-- Flask 0: RUNNING, with cluster 0 and granules 0 and 1. -/
def flask0 : Flask :=
  { Flask.reset with st := .running, nladles := 2, vectors := 2, qpQuota := 8, mrQuota := 8, shQuota := 2, clusters := [0]
                     granules := [0, 1], key := some 5, keyLoaded := true, shapers := [5] }

/-- The module in service, with flask 0, an entry in its ladle 0 and one in the admin ladle, both rings empty of completions. -/
def live : State :=
  let s := { State.reset with
    mem := { Mem.reset with owner := [(0, 0), (1, 0)], clusterOwner := [(0, 0)] }
    regs := Tab.put 0 (Tab.put 0 State.reset.regs (portReg Reg.netPnCtl 0) 0xF) (Reg.netFlaskTx) 0xFF }
  ((s.setFlask 0 flask0).setLadle (.flask 0 0) lad).setLadle .admin { Ladle.admin 0x10000 with sqTail := 1 }

/-- The module with flask 0 as given. -/
def liveAs (g : Flask → Flask) : State := live.setFlask 0 (g (live.flask 0))

def nopCmd (started : Bool) : Cmd := ⟨0x33, .nop { tnt with tag := 0x33 }, started, false⟩

/-- The flask's ladle 1 with one command outstanding. -/
def busy (started : Bool) : State :=
  live.setLadle (.flask 0 1) { lad with cmds := [nopCmd started], sqHead := 0, sqTail := 0 }

/-- `NopAndAbort` and `CommandTimeout`: a NOP; an abort of a command that waits, of one that has started, of none. -/
theorem witness_aborts :
    live.starts tnt (.nop tnt) = true ∧ live.starts adm (.abort adm 0x33 0 1) = true ∧
    (busy false).starts adm (.abort adm 0x33 0 1) = true ∧ (busy true).starts adm (.abort adm 0x33 0 1) = true ∧
    (((busy false).begun adm (.abort adm 0x33 0 1)).flask 0).st ≠ .failed ∧
    (((busy false).begun adm (.abort adm 0x33 0 1)).ladle (.flask 0 1)).cmds = [nopCmd false] ∧
    (((busy true).begun adm (.abort adm 0x33 0 1)).ladle (.flask 0 1)).cmds = [nopCmd true] ∧
    ((live.begun adm (.abort adm 0x33 0 1)).ladle (.flask 0 1)).cmds = [] ∧ isAbort (nopCmd true).instr = false ∧
    ((busy false).ladle (.flask 0 1)).cmds.find? (fun c => decide (c.tag = 0x33)) = some (nopCmd false) ∧
    live.phase.serves = true ∧ FwProc.scheduler ∉ live.fw.down := by decide +kernel

/-- `Doorbells`: a page that is live, a tail ahead and one out of the ring, a head that follows the tail. -/
theorem witness_doorbells :
    let s := { live with he0 := { live.he0 with speed := 5, width := 16, memSpace := true } }
    let d := s.ladle (.flask 0 0)
    let w := { s with own := { s.own with valid := true, master := .he0 } }
    s.reaches 0 = true ∧ s.pageLive 0 0 = true ∧ s.pageLive 0 1 = false ∧ d.enabled = true ∧ d.sqSize = 16 ∧
    ahead d.sqSize d.sqHead d.sqTail ≤ ahead d.sqSize d.sqHead 15 ∧ ahead d.cqSize d.cqHead 0 ≤ ahead d.cqSize d.cqHead d.cqTail ∧
    d.held = [] ∧ (s.box (.flask 0 0)).held = [] ∧ (s.ep 0).inq = [] ∧ (14 : Nat) ≠ d.sqTail ∧
    ahead d.sqSize d.sqHead 0 < ahead d.sqSize d.sqHead d.sqTail ∧ w.own.master = .he0 ∧ w.isOwner .he0 = true ∧ w.isOwner .mgmt = false ∧
    w.arrives .he0 = true ∧ w.arrives .mgmt = true ∧ w.fw.admin.held = [] ∧ w.fw.box.held = [] := by
  decide +kernel

/-- `CompletionsAreWritten` and `EventsAreDelivered`: room in the rings, and a ladle that takes nothing. -/
theorem witness_completions :
    let s := live.setLadle .admin { live.fw.admin with cmds := [{ nopCmd true with tag := 0x21 }] }
    let d := s.fw.admin
    d.enabled = true ∧ d.held = [] ∧ d.cqFull = false ∧ s.own.next = none ∧ s.fw.box = ⟨[], 0⟩ ∧ s.ladleTakes .admin = true ∧
    ((busy true).ladle (.flask 0 1)).cqFull = false ∧ ((busy true).ladle (.flask 0 1)).held = [] ∧
    (busy true).keyWaits 0 = false ∧ (busy true).own.next = none ∧ s.ladleTakes (.flask 0 2) = false ∧ (s.flask 3).st = .free := by decide +kernel

def create7 : CreateP := ⟨0xFFFF, 0, 2, 1, 0, 16, 16, 4, 0⟩
def ladle1 : LadleP := ⟨0, 1, 0, 4, 4, 0, 0x2000_0000_0000, 0x2000_0000_1000, 0⟩

/-- `CreateAndConfigure`: the lowest free flask is 1; a ladle of a flask, on and off. -/
theorem witness_create :
    let b := live.begun adm (.create adm create7)
    let c := live.begun adm (.ladleConfig adm ladle1)
    live.starts adm (.create adm create7) = true ∧ createLegal create7 = true ∧ b.quotasFit create7 = true ∧ (b.flask 1).st = .free ∧
    (∀ g : FlaskId, g.toNat < 1 → (b.flask g).st ≠ .free) ∧
    live.starts adm (.ladleConfig adm ladle1) = true ∧ live.starts adm (.ladleConfig adm { ladle1 with options := 1 }) = true ∧
    (c.flask 0).st.isCast = true ∧ ladleLegal ladle1 (c.flask 0) = true ∧ space ladle1.sqBase.toNat = 2 ∧
    inFlask c (flaskDom 0) ladle1.sqBase.toNat 1024 = true ∧ inFlask c (flaskDom 0) ladle1.cqBase.toNat 1024 = true ∧
    (c.ladle (.flask 0 1)).cmds = [] ∧ (c.ladle (.flask 0 1)).held = [] := by
  refine ⟨by decide +kernel, by decide +kernel, by decide +kernel, by decide +kernel, fun g h => ?_, by decide +kernel⟩
  have : g = 0 := by bv_omega
  subst this; decide +kernel

/-- `ResetsBegin` and `DrainsEnd`: a flask that is EMPTY, one that runs, one being reset, one being destroyed with nothing left. -/
theorem witness_resets :
    let e := liveAs fun x => { x with st := .empty }
    let j : FlaskJob := ⟨false, 0, false, [0x21], [], false⟩
    let r := liveAs fun x => { x with st := .resetting, job := some j }
    let d := liveAs fun x => { x with st := .destroying, job := some { j with destroy := true } }
    let h := { live with he0 := { live.he0 with speed := 5, width := 16, memSpace := true } }
    e.starts adm (.reset adm 0 0 0) = true ∧ (e.flask 0).st = .empty ∧ live.starts adm (.reset adm 0 1 0) = true ∧
    ((live.begun adm (.reset adm 0 0 0)).flask 0).job = none ∧ live.starts adm (.destroy adm 0) = true ∧
    h.reaches 0 = true ∧ h.pageLive 0 0 = true ∧ (h.flask 0).job = none ∧ (h.ep 0).inq = [] ∧ FwProc.scheduler ∉ h.fw.down ∧
    FwProc.scheduler ∈ ({ h with fw := { h.fw with down := [.scheduler] } } : State).fw.down ∧ (d.flask 0).st = .destroying ∧ (r.flask 0).job = some j ∧ r.drained 0 = true ∧
    r.breakout = false ∧ r.domainHeld 0 = false ∧ r.coresDone 0 = true ∧ d.coresDone 0 = true ∧ live.coresDone 0 = true ∧
    ((r.flask 0).cores.all fun c => decide ((r.core (.core c)).run ≠ .running)) = true ∧ (d.flask 0).job = some { j with destroy := true } ∧ d.drained 0 = true ∧
    live.breakout = false ∧ live.domainHeld 0 = false := by decide +kernel

/-! ### Casts, dispatches, failed cores, firmware -/

/-- Bytes of a field, and a block padded with zeros to n bytes. -/
def fld (n v : Nat) : List Byte := leBytes n v
def pad (n : Nat) (bs : List Byte) : List Byte := bs ++ List.replicate (n - bs.length) 0
def dirEnt (t off bytes count rec : Nat) : List Byte :=
  pad 32 (fld 2 t ++ fld 2 1 ++ fld 4 off ++ fld 4 bytes ++ fld 4 count ++ fld 2 rec)

/-- The smallest mould, written out from R28 to R40: one cluster at die 0, no granule, an image of one word, its 256 cores with
no image to load. -/
def smallMould : List Byte :=
  pad 256 (fld 4 0x444D4C4F ++ fld 2 1 ++ fld 2 0 ++ fld 2 0xA1 ++ fld 2 3 ++ fld 4 832 ++ fld 16 7 ++ fld 16 0 ++ fld 4 0 ++ fld 2 1) ++
    pad 128 (dirEnt 1 384 16 1 16 ++ dirEnt 3 448 24 1 0 ++ dirEnt 4 512 144 1 144) ++
    pad 64 (fld 1 1 ++ fld 1 0 ++ fld 1 0 ++ fld 1 5) ++ pad 64 (fld 4 0 ++ fld 4 1 ++ fld 4 24) ++
    pad 320 (fld 4 0 ++ fld 4 255 ++ fld 4 0xFFFFFFFF)

/-- Bytes in the staging area; canonical, since bytes of zero are left out. -/
def staged (s : State) (bs : List Byte) : State :=
  let cells := (bs.zipIdx.filter fun x => x.1 != 0).map fun x => (stagingBase + x.2, x.1)
  { s with mem := { s.mem with lp := cells, lpValid := [(stagingBase / 4096, true)] } }

def castable : State :=
  let s := staged live smallMould
  (s.setReg Reg.secMouldKeyValid 1).setFlask 0 { s.flask 0 with st := .empty, clusters := [], granules := [] }

/-- `CastsTakeTurns`: no cast waits, and one does. -/
theorem witness_cast_turns :
    let i := Instr.cast adm 0 ⟨none, .none⟩
    let c : Cmd := ⟨0x31, .cast { adm with tag := 0x31 } 0 ⟨none, .none⟩, true, false⟩
    let w := { live with fw := { live.fw with waiting := [0x31], admin := { live.fw.admin with cmds := [c] } } }
    live.starts adm i = true ∧ (live.begun adm i).fw.waiting = [] ∧ w.starts adm i = true ∧ (w.begun adm i).fw.waiting ≠ [] ∧
    w.fw.admin.cmds.find? (fun c => decide (c.tag = 0x31)) = some c ∧ w.phase.serves = true ∧ FwProc.scheduler ∉ w.fw.down ∧
    w.breakout = false ∧ ({ w with regs := Tab.put 0 w.regs Reg.secBoStat 4 } : State).breakout = true := by decide +kernel

def disp : DispatchP := ⟨0x1000_0000_0400, 0, 0, 0x100, 0x200, 5, 0, 0x1234⟩

/-- Flask 0 with two tallies in its cluster store, the second as given. -/
def tallied (fin : Nat) : State :=
  { live with mem := (live.mem.setWord ((clusterBase 0 + 0x100) / 4) (int 3)).setWord ((clusterBase 0 + 0x200) / 4) (int fin) }

/-- `Dispatches`: both tallies in place, the argument block in the same cluster store; a dispatch whose done tally is 0. -/
theorem witness_dispatch :
    let s := tallied 9
    let b := s.begun tnt (.dispatch tnt disp)
    let t := (tallied 0).setFlask 0 { (tallied 0).flask 0 with disps := [⟨0, 0x44, BitVec.ofNat 48 (clusterBase 0 + 0x200), 0x1000_0000_0400⟩] }
    s.starts tnt (.dispatch tnt disp) = true ∧ disp.args.toNat / 2 ^ 44 = 1 ∧ translate b (flaskDom 0) disp.args.toNat = some 0x1000_0000_0400 ∧
    homeOk b (flaskDom 0) 0x1000_0000_0400 = true ∧ b.tallyAt 0 0 0x100 = some (clusterBase 0 + 0x100) ∧
    b.tallyAt 0 0 0x200 = some (clusterBase 0 + 0x200) ∧ (clusterBase 0 + 0x100) / 64 ≠ 0x1000_0000_0400 / 64 ∧
    b.mem.wordMark ((clusterBase 0 + 0x100) / 4) = .good ∧ (b.mem.word ((clusterBase 0 + 0x200) / 4)).tag = Tag.int ∧
    b.tally (clusterBase 0 + 0x100) = 3 ∧ b.mem.flip = none ∧
    ((t.flask 0).disps.find? fun d => d.n == 0 && d.tag == 0x44).isSome = true ∧ t.tally (clusterBase 0 + 0x200) = 0 := by decide +kernel

def segt : SegtRec := ⟨0, 255, some [⟨0, Tag.code⟩], 0, 0, List.replicate 8 ⟨0, 0, 0, 0⟩⟩
def mould0 : Mould := ⟨7, 0, false, false, false, 0, 0, [segt], [], [], [], [], [], []⟩

/-- `FailedCores`: a stopped core of flask 0, with a spare and without; one that has failed for good. -/
theorem witness_failed_core :
    let s := (liveAs fun x => { x with mould := some mould0 }).setCore p0 { core0 with flask := flaskDom 0, run := .stopped 3 0, idx := 0 }
    let none' := s.setCluster 0 { s.cluster 0 with spares := 0 }
    (s.core p0).flask = flaskDom 0 ∧ (s.flask 0).mould = some mould0 ∧ FwProc.cluster 0 ∉ s.fw.down ∧ (s.core p0).run = .stopped 3 0 ∧
    0 < (s.cluster 0).spares ∧ mould0.segts.find? (fun g => g.covers 0) = some segt ∧ coreAt (s.flask 0).clusters 0 = some 0 ∧
    (none'.cluster 0).spares = 0 ∧ (s.core p0).failed = false ∧
    ((s.setCore p0 { s.core p0 with failed := true }).core p0).failed = true := by decide +kernel

/-- The header of a firmware image of 384 bytes (R315). -/
def image : List Byte :=
  pad 384 (fld 4 0x57464C4F ++ fld 2 1 ++ fld 2 5 ++ fld 4 2 ++ fld 2 3 ++ fld 2 0xA1 ++ fld 4 384)

def hdrImg : ImageHdr := ⟨2, 3, 0, 5, 0, []⟩

/-- `FirmwareIsStaged` and `FirmwareIsActivated`: an image that passes, one not yet staged, one whose handover does not fit, one
below the fuse; a drain that expires, a takeover that fails, and one that is accepted. -/
theorem witness_firmware :
    let s := staged live image
    let i := Instr.fwStage adm 0 384
    let r := (s.begun adm i).hubRead 0x100 .hub (stagingBase + 0) 384
    let a := Instr.fwActivate adm 0 1
    let ready (x : ImageHdr) (v : Nat) : State := { live with fw := { live.fw with other := some x, staged := true, secver := v } }
    let act : Activation := ⟨0x21, 1000, 1⟩
    let n : State := { live with fw := { live.fw with act := some act, other := some hdrImg } }
    let m := (n.setLadle (.flask 0 0) { lad with cmds := [nopCmd true] })
    s.starts adm i = true ∧ r.2.2 = .ok ∧ imageCheck r.1 r.2.1.fw.secver true = St.malformed ∧ (live.begun adm i).fw.waiting = [] ∧ live.starts adm a = true ∧
    (live.begun adm a).breakout = false ∧ (live.begun adm a).fw.staged = false ∧
    (ready hdrImg 0).starts adm a = true ∧ ((ready hdrImg 0).begun adm a).fw.running.handMax = 0 ∧
    (0 : Nat) < ({ hdrImg with handMin := 1 } : ImageHdr).handMin.toNat ∧ hdrImg.secver.toNat < 4 ∧ ((ready hdrImg 4).begun adm a).fw.secver = 4 ∧
    n.othersStarted act = false ∧ m.othersStarted act = true ∧ m.fw.act = some act ∧ m.fw.other = some hdrImg ∧ n.fw.act = some act ∧
    n.phase.serves = true ∧ FwProc.scheduler ∉ n.fw.down ∧ FwProc.security ∉ n.fw.down := by decide +kernel

/-- `ProcessorsRestart`: a processor that runs, and one that is held, whose copy is the factory's. -/
theorem witness_restart : FwProc.power ∉ live.fw.down ∧
    FwProc.power ∈ ({ live with fw := { live.fw with down := [.power] } } : State).fw.down ∧ live.copyOk .power = true := by decide +kernel

/-- `CeilingsAndSensors`: the lowest and the greatest ceiling, the first and last sensor, a die in a trip. -/
theorem witness_ceilings :
    live.starts adm (.ceilingSet adm 0 400) = true ∧ live.starts adm (.ceilingSet adm 0 1600) = true ∧
    ((live.begun adm (.ceilingSet adm 0 400)).flask 0).st = .running ∧ isSensor 0 = true ∧ isSensor 8 = true ∧ isSensor 200 = false ∧
    (live.phase ≠ .off) ∧ ([((0 : ClusterId), (100 : Byte)), (600, 160)].map Prod.fst).Nodup ∧ live.bg.warn.getLsbD 1 = false ∧
    40 < (live.cluster 7).ceilPower ∧ live.bg.trip.getLsbD 7 = false := by decide +kernel

def pm0 : PmonP := ⟨0, 0, 2, 2, 0, 255, 0, 0, 0⟩

/-- `PerformanceCounters`: the cores and the cluster of flask 0, a destination in its LPDDR; a sampling counter; a hub counter. -/
theorem witness_counters :
    let i := Instr.pmonConfig tnt pm0
    let b := live.begun tnt i
    let r := Instr.pmonRead tnt 0 0 1 0x2000_0000_0000
    let k := live.setCore p0 { core0 with flask := 0, pm := core0.pm.set 1 { core0.pm[1] with flags := 1, bytes := 16, buffer := 0x2000_0000_0000 } }
    live.starts tnt i = true ∧ pmonLegal pm0 = true ∧ live.starts tnt (.pmonConfig tnt { pm0 with kind := 1, last := 0 }) = true ∧
    (∀ n ∈ pmonRange 0 0 255, (b.pmCore tnt.ladle n).isSome = true) ∧ (b.pmCluster tnt.ladle 0).isSome = true ∧
    live.starts tnt r = true ∧ (live.begun tnt r).cmdRange tnt.ladle 0x2000_0000_0000 48 = true ∧
    ((k.core p0).pm[1]).flags.getLsbD 0 = true ∧ ((k.core p0).pm[1]).bytes = 16 ∧ (k.core p0).flask.toNat < 256 ∧
    countedHub 0 = true := by decide +kernel

/-- `BackgroundWork`: lines and units yet to visit, a drift over 8, a step that failed before, the free bits, a drive that is
ready. -/
theorem witness_background :
    let lp := { live with mem := { live.mem with lpValid := [(0x2000_0000_0000 / 4096, true)] } }
    Tab.get 0 live.bg.sramPos 0 < 37120 ∧ lp.mem.lpValid.all (fun e => e.2) = true ∧
    Tab.get false lp.mem.lpValid (0x2000_0000_0000 / 4096) = true ∧ Tab.get 0 lp.bg.lpPos 0 ≤ unitOrder (0x2000_0000_0000 / 4096) ∧
    live.copyAt 0 = false ∧ live.bg.flashErases < 89999 ∧
    Tab.get 0 ({ live.bg with calFails := [(0, 2)] } : Bg).calFails 0 ≠ 0 ∧
    ((live.setDrive 2 { live.drive 2 with ready := true }).drive 2).ready = true := by decide +kernel

/-! ### The packet path and remote memory -/

def feed (no src sel : Nat) : FeedRec := ⟨BitVec.ofNat 16 no, BitVec.ofNat 8 src, 0, BitVec.ofNat 32 sel, 0x2000_0000_0000, 4096, 0, 3, 0, 0, 1, 0xFFFFFFFF⟩

/-- A mould with bindings for packet class 9, queue pair 3, storage class 2, and ingest. -/
def fedMould : Mould := { mould0 with feeds := [feed 5 7 9, feed 6 1 3, feed 7 3 2, feed 8 4 0] }

/-- Port 0 up and receiving, rule 4 for class 9, which flask 0 holds in slots of 256 bytes. -/
def netLive : State :=
  let s := (liveAs fun x => { x with mould := some fedMould }).setReg (portReg Reg.netPnCtl 0) 1
  { s with net := { s.net with
      ports := [(0, { NetPort.reset with up := true, lanes := 0xFF })], rules := [(64, 0x101), (66, 0xFFFF0000), (67, 0x0009_0003)]
      classes := [(9, some ⟨0, 8, 0, none, 0⟩)] } }

/-- A frame of 60 bytes, to a MAC whose first byte is as given. -/
def frame (b : Byte) : List Byte := b :: List.replicate 59 0

def fr9 : Frame := ⟨frame 0, 3, 9, 4, false, some (0, feed 5 7 9), .idle, none⟩
def net0 : NetSendP := ⟨0x2000_0000_0000, 60, 0, 7, 0xFFFF⟩

/-- `NetCommands`: a class that is free, one that is held, with frames buffered and without; a shaper; a frame to send. -/
theorem witness_net_commands :
    let opened := Instr.netClassOpen tnt 10 8
    let close := Instr.netClassClose tnt 9
    let shaper := Instr.shaperSet tnt ⟨1, 24, 1, 64⟩
    let send := Instr.netSend tnt net0
    let buffered := netLive.setPort 0 { netLive.port 0 with buf := [fr9] }
    let b := netLive.begun tnt send
    let sh := liveAs fun x => { x with shapers := [5, 9] }
    netLive.starts tnt opened = true ∧ (netLive.begun tnt opened).netClass 10 = none ∧ netLive.starts tnt close = true ∧
    (netLive.begun tnt close).netClass 9 = some ⟨0, 8, 0, none, 0⟩ ∧ buffered.starts tnt close = true ∧
    ((buffered.begun tnt close).net.ports.any fun p => p.2.buf.any fun f => f.action == 3 && decide (f.cls.toNat = 9)) = true ∧
    sh.starts tnt shaper = true ∧ (sh.begun tnt shaper).shaperOf 0 1 = some 9 ∧ netLive.starts tnt send = true ∧
    b.mayTx 0 1 = true ∧ space net0.src.toNat = 2 ∧ inFlask b (flaskDom 0) net0.src.toNat 60 = true ∧
    (b.hubRead (flaskDom 0) .hub net0.src.toNat 60).2.2 = .ok ∧
    (b.reg (Reg.netFlaskTx)).getLsbD 8 = false ∧ ((b.hubRead (flaskDom 0) .hub net0.src.toNat 60).2.1.port 0).up = true ∧
    (let d := (netLive.setPort 0 { netLive.port 0 with up := false }).begun tnt send
     let r := d.hubRead (flaskDom 0) .hub net0.src.toNat 60
     r.2.2 = .ok ∧ (r.2.1.port 0).up = false ∧ r.2.1.net.tx = [] ∧ r.2.1.eligible ⟨tnt.ladle, tnt.tag, 0, 0, none, r.1⟩ = true) := by
  decide +kernel

/-- `FramesArrive`: a frame to the port's own address that matches rule 4, one to another station. -/
theorem witness_frames_arrive :
    let s := netLive
    let ok := s.count (portReg Reg.netPnRxOk 0)
    s.phase.serves = true ∧ (s.port 0).up = true ∧ (s.reg (portReg Reg.netPnCtl 0)).getLsbD 0 = true ∧ s.twin.st ≠ .fenced ∧
    (frame 0).length = 60 ∧ macAt (frame 0) 0 = s.macReg (portReg Reg.netPnMacLo 0) (portReg Reg.netPnMacHi 0) ∧
    macAt (frame 2) 0 ≠ s.macReg (portReg Reg.netPnMacLo 0) (portReg Reg.netPnMacHi 0) ∧ macAt (frame 2) 0 ≠ 2 ^ 48 - 1 ∧
    (byteAt (frame 2) 0).getLsbD 0 = false ∧ (s.reg (portReg Reg.netPnCtl 0)).getLsbD 3 = false ∧
    field (frame 0) 12 2 ≠ some 0x8808 ∧ (parse (frame 0)).frag = none ∧ (s.port 0).fill + 60 ≤ reorderBytes ∧
    ok.classify 0 (parse (frame 0)) = some 4 ∧ bits (ok.ruleWord 4 3) 1 0 = 3 ∧ bits (ok.ruleWord 4 3) 27 16 = 9 ∧
    ok.netClass 9 = some ⟨0, 8, 0, none, 0⟩ ∧ (ok.flask 0).st.leaving = false ∧ ok.feedFor 0 [7] 9 = some (feed 5 7 9) := by
  decide +kernel

/-- `FramesArrive`: a buffer that is full, and flow control under way. -/
theorem witness_port_full :
    let f : Frame := ⟨List.replicate reorderBytes 0, 1, 0, 0, false, none, .idle, none⟩
    let x : NetPort := { NetPort.reset with up := true, buf := [f] }
    reorderBytes < x.fill + 60 ∧ ({ x with xoff := true } : NetPort).xoff = true := by
  simp [NetPort.fill]

/-- A binding of packet class 9 whose slots are in a host's memory. -/
def hostFeed : FeedRec := { feed 5 7 9 with target := 0x5000_0000_0000 }

/-- `FramesAreReleased`: a class frame at the head of the buffer, its slot empty; one that stands in its slot; one whose slot in a
host's memory has been written. -/
theorem witness_frames_released :
    let s := netLive.setPort 0 { netLive.port 0 with buf := [fr9] }
    let q := s.hubRead (flaskDom 0) .hub 0x2000_0000_0000 4
    (s.port 0).buf = [fr9] ∧ fr9.landed = none ∧ space (feed 5 7 9).target.toNat = 2 ∧ ({ fr9 with landed := some 3 } : Frame).landed = some 3 ∧
    space hostFeed.target.toNat = 5 ∧ ({ fr9 with feed := some (0, hostFeed), leg := .done true } : Frame).leg = .done true ∧
    s.writeWaits (flaskDom 0) 0x2000_0000_0000 (min (16 + fr9.bytes.length) 256) = (false, s) ∧ s.netClass 9 = some ⟨0, 8, 0, none, 0⟩ ∧ coreRef s 0 0 = some 0 ∧
    (s.flask 0).st.leaving = false ∧ s.heldTokens 0 (feed 5 7 9).no < 64 ∧ q.2.2 = .ok ∧ (leNat q.1).testBit 31 = false ∧
    ((q.2.1.land (.frame 0) (flaskDom 0) 0x2000_0000_0000 76).hubWrite (flaskDom 0) .hub 0x2000_0000_0000
      (List.replicate 16 1 ++ frame 0)).2 = .ok := by decide +kernel

def key0 : FragKey := ⟨false, 1, 2, 17, 3⟩
def hdr0 : XpHdr := ⟨1, true, true, false, false, 0, 4, 3, 0, 0, 64, 0, 0⟩

/-- `NetEvents`: a fragment held with its entry and without; an owner; a frame whose turn it is, a packet whose turn it is, and none;
a shaper with a setting staged. -/
theorem witness_net_events :
    let x : HeldFrag := ⟨key0, 0, frame 0, 24, none⟩
    let e : FragEntry := ⟨key0, 4, 1, 9, 0, none⟩
    let s := { netLive with net := { netLive.net with held := [x], frags := [e] } }
    let o := { netLive with own := { netLive.own with valid := true, master := .he0 } }
    let up := { o with he0 := { o.he0 with speed := 5, width := 16, memSpace := true } }
    let t : TxFrame := ⟨.flask 0 0, 0x11, 0, 0, none, frame 0⟩
    let q := { netLive with net := { netLive.net with tx := [t] } }
    let y : XpOut := ⟨3, 0, 0, 0, 0, 0, 0, 49152, 4791, 7, hdr0, []⟩
    let u := { netLive with net := { netLive.net with xq := [y] } }
    s.net.held[0]? = some x ∧ s.net.frags.find? (fun f => decide (f.key = x.key)) = some e ∧
    netLive.net.frags.find? (fun f => decide (f.key = x.key)) = none ∧ o.isOwner .he0 = true ∧ o.isOwner .he1 = false ∧ up.arrives .he0 = true ∧ up.isOwner .he0 = true ∧
    o.arrives .mgmt = true ∧ o.isOwner .mgmt = false ∧ q.twin.st ≠ .fenced ∧ (q.pumpPort 0).nextTx 0 = some (queueNo (.flask 0 0), .inl t) ∧
    (u.pumpPort 0).nextTx 0 = some (qpQueueNo 3, .inr y) ∧ (netLive.pumpPort 0).nextTx 0 = none ∧ u.twin.st ≠ .fenced ∧ (u.port 0).up = true ∧ (q.port 0).up = true ∧ q.laneBad 0 = false ∧
    ((q.setShaper 5 { Shaper.free with staged := some (1, 64, 0) }).shaper 5).staged = some (1, 64, 0) ∧
    ((q.setShaper 5 { Shaper.free with used := true }).shaper 5).staged = none := by decide +kernel

def conn0 : ConnectP := ⟨3, 9, 0, 0, 0, 4, 0, 1, 2, 0, 12, 0, 7, 7, 0, 0⟩
def qp0 : Qp := { Qp.reset with st := .active, flask := 0, conn := some conn0, grant := 65536 }

/-- Queue pair 3 of flask 0 as given. -/
def pair (q : Qp) : State := { netLive with xport := { netLive.xport with qps := [(3, q)] } }

def msg0 : XpMsg := ⟨0, .send, 0, 64, 0, 1, 1, false, false, .flask 0 0, 0x44, [], none⟩
def pkt0 : XpPkt := ⟨0, 0, 0, 64, 0, 0, 1, 1, false⟩

/-- `QueuePairs`: a pair that is free, one idle, one active without messages and with one, one in error. -/
theorem witness_queue_pairs :
    let idle := pair { Qp.reset with st := .idle, flask := 0 }
    let one := pair { qp0 with msgs := [msg0] }
    let err := pair { qp0 with st := .error }
    let c := Instr.qpCreate tnt 0xFFFFFFFF
    live.starts tnt c = true ∧ ((live.begun tnt c).flask 0).qpQuota = 8 ∧ lowestFree (live.begun tnt c).qpnRange.1 [] = 0 ∧
    idle.starts tnt (.qpConnect tnt conn0 0) = true ∧ connLegal conn0 0 = true ∧ (idle.begun tnt (.qpConnect tnt conn0 0)).mayTx 0 1 = true ∧
    (one.qp 3).flask = ladleDom tnt.ladle ∧ one.starts tnt (.qpClose tnt 3) = true ∧ (one.qp 3).msgs = [msg0] ∧ msg0.done = none ∧
    err.starts tnt (.qpReset tnt 3) = true ∧ (err.qp 3).st = .error ∧ err.starts tnt (.qpDestroy tnt 3) = true ∧
    (pair qp0).starts tnt (.qpCcSet tnt 3 ccDefault) = true ∧ (pair qp0).starts tnt (.qpClose tnt 3) = true := by decide +kernel

def xp0 : XpP := ⟨3, 0x2000_0000_0000, 64, 0, 0⟩

/-- `MessagesStart`: an active pair that is idle, with credit for one packet. -/
theorem witness_messages :
    let i := Instr.xpSend tnt xp0
    let s := pair qp0
    let b := s.begun tnt i
    s.starts tnt i = true ∧ s.starts tnt (.xpWrite tnt xp0) = true ∧ s.starts tnt (.xpRead tnt xp0) = true ∧
    (b.qp 3).st = .active ∧ inFlask b 0 xp0.localAddr.toNat 64 = true ∧ (b.qp 3).msgs = [] ∧ (b.qp 3).nextPath = some 0 ∧
    (b.qp 3).conn = some conn0 ∧ (b.qp 3).mtu = 4096 ∧ (b.hubRead 0 .hub xp0.localAddr.toNat 64).2.2 = .ok ∧ (b.qp 3).delay = false ∧
    (b.qp 3).unacked = [] ∧ b.twin.st ≠ .fenced ∧ b.breakout = false ∧ b.holds tnt xp0.qpn ∧ (b.qp 3).sentBytes + 64 ≤ (b.qp 3).grant := by
  unfold State.holds
  decide +kernel

/-- `Acknowledgements` and `SenderTimers`: a SEND that its acknowledgement covers, a packet not acknowledged, a failed path, a
grant that is spent, a pair in RoCE. -/
theorem witness_sender :
    let s := pair { qp0 with msgs := [msg0], unacked := [pkt0] }
    let g := pair { qp0 with msgs := [{ msg0 with sent := 0 }], grant := 0 }
    let f := pair { qp0 with failed := [1] }
    let r := pair { qp0 with conn := some { conn0 with mode := 2 } }
    let w := { s with net := { s.net with xq := [⟨3, 0, 0, 0, 0, 0, 0, 49152, 4791, 1, hdr0, []⟩] } }
    s.queued 3 0 = false ∧ w.queued 3 0 = true ∧ w.unackedPkt 3 0 = some pkt0 ∧ (g.qp 3).conn = some conn0 ∧ (f.qp 3).conn = some conn0 ∧
    (s.qp 3).conn = some conn0 ∧ hdr0.epoch = conn0.peerEpoch ∧ hdr0.zeroOk = true ∧ (s.qp 3).st = .active ∧
    serialOlder msg0.msn 1 = true ∧ (s.qp 3).unacked.find? (fun p => decide (p.psn = 0)) = some pkt0 ∧
    XpAck_covers ⟨0, 0, 0, 0⟩ 0 = false ∧ pkt0.rnr < (s.qp 3).rnrLimit ∧ pkt0.resends < (s.qp 3).retryLimit ∧
    (((s.lostOn 3 0).qp 3).nextPath).isSome = true ∧ ((s.lostOn 3 0).hubRead 0 .hub 0 64).2.2 = .ok ∧
    (g.qp 3).grant < (g.qp 3).sentBytes + min (g.qp 3).mtu 64 ∧ (g.qp 3).nextPath = some 0 ∧ (f.qp 3).failed = [1] ∧
    (r.qp 3).roce = true := by decide +kernel

def mr0 : Mr := ⟨0, 0x2000_0000_0000, 65536, none, true, true, false, false, 1000, [], [], false, [], []⟩

/-- Flask 0 with registration 0 as given, its key 0. -/
def registered (m : Mr) : State := { pair qp0 with xport := { (pair qp0).xport with mrs := [(0, some m)] } }

/-- `Registrations`: the lowest free index, a registration in use and not, one whose pages are put in. -/
theorem witness_registrations :
    let p : MrP := ⟨0x2000_0000_0000, 64, 0xFFFFFFFF, 3, 0, 10⟩
    let i := Instr.mrRegister tnt p
    let b := (pair qp0).begun tnt i
    let s := registered mr0
    let pg := registered { mr0 with paged := true }
    (pair qp0).starts tnt i = true ∧ b.reachable 0 p.base.toNat 64 = true ∧ lowestFree 0 (Tab.keys b.xport.mrs) = 0 ∧
    s.starts tnt (.mrRevoke tnt 0) = true ∧ (s.begun tnt (.mrRevoke tnt 0)).heldMr 0 0 = some (0, mr0) ∧
    pg.starts tnt (.mrPages tnt 0 0 1 1) = true ∧ pg.starts tnt (.mrPages tnt 0 0 1 0) = true ∧
    (pg.begun tnt (.mrPages tnt 0 0 1 1)).heldMr 0 0 = some (0, { mr0 with paged := true }) ∧ 0 + 1 ≤ (mr0.len + 65535) / 65536 := by
  decide +kernel

/-- `PacketsArrive`: a key that names nothing, one that is live; a SEND's slot; a read that waits for its data; a congestion mark. -/
theorem witness_packets :
    let s := registered mr0
    let r := pair { qp0 with conn := some { conn0 with mode := 2 } }
    s.arrival 0 3 ⟨false, false⟩ = s ∧ (r.qp 3).roce = true ∧ (r.qp 3).cnp = false ∧ r.phase.serves = true ∧ (r.qp 3).st = .active ∧
    let rd : XpMsg := { msg0 with kind := .read 0 0 }
    let w := pair { qp0 with msgs := [rd] }
    s.findKey 0x100 = .never ∧ s.findKey 0 = .live 0 mr0 ∧ flaskDom mr0.flask = (s.qp 3).flask ∧ (s.qp 3).roce = false ∧
    psnDiff hdr0.psn.toNat (s.qp 3).cum ≤ 1024 ∧ s.inFlight 3 = [] ∧ (s.flask 0).st.leaving = false ∧
    inFlask s 0 0x2000_0000_0000 64 = true ∧ (s.qpFeed 3) = some (feed 6 1 3) ∧
    (match s.checkSlot hdr0 with
      | .ok (x, _, slot) => decide (space (x.addr % 2 ^ 48) = 2) && decide (slot = 0) && inFlask s 0 (x.addr % 2 ^ 48) 64
      | .error _ => false) = true ∧
    (w.qp 3).msgs.find? (fun m => decide (m.msn = hdr0.msn) && m.kind.isRead && m.done.isNone) = some rd ∧ rd.got = [] := by
  decide +kernel

/-- `PlacementsEnd`: a placement of bytes and a reading that retire, one behind another on its path, and a stalled packet. -/
theorem witness_placements :
    let p : Placement := ⟨0, 3, hdr0, .send, List.replicate 64 1, some 0x2000_0000_0000, 0, none, [], none, 0, false, true⟩
    let s := { pair qp0 with xport := { (pair qp0).xport with places := [p], stalled := [⟨{ p with key := some 0 }⟩] } }
    let s' := { s with xport := { s.xport with places := s.xport.places.eraseIdx 0 } }
    let b := { s with xport := { s.xport with places := [p, p] } }
    s.xport.places[0]? = some p ∧ p.waits = 0 ∧ p.live = true ∧ s.writeWaits p.dom 0x2000_0000_0000 64 = (false, s) ∧
    ((s'.land (.msg 3 0) p.dom 0x2000_0000_0000 64).hubWrite p.dom .hub 0x2000_0000_0000 p.payload).2 = .ok ∧
    s.placeBehind 0 p = false ∧ b.xport.places[1]? = some p ∧ b.placeBehind 1 p = true ∧ p.key = none ∧ s.twin.st ≠ .fenced ∧ s.readWaits p.dom 0x2000_0000_0000 = false ∧
    (s'.hubRead p.dom .hub 0x2000_0000_0000 64).2.2 = .ok ∧ (s.qp 3).nextPath = some 0 ∧ (s.qp 3).conn = some conn0 ∧ (s.qp 3).rx = [] ∧
    s.xport.stalled[0]? = some ⟨{ p with key := some 0 }⟩ := by decide +kernel

/-! ### Storage, endpoints -/

/-- A drive of 1,024 blocks in slot 2, with volume 1 of flask 0 on blocks 16 to 115. -/
def drives : State :=
  let s := netLive.setDrive 2 { Drive.reset with present := true, powerGood := true, link := true, ready := true, blocks := 1024, serial := 77 }
  s.setVol (volKey 0 1) (some ⟨0, 1, 2, 16, 100, 77, false, none⟩)

def vol1 : Volume := ⟨0, 1, 2, 16, 100, 77, false, none⟩
def drv (op : DrvOp) : DrvCmd := ⟨3, 2, op, .flask 0 0, 0x44, volKey 0 1, 16, 1, 0x2000_0000_0000, false, none, none, true, 0, false, none, 3, none⟩

/-- The drive at work on one command. -/
def working (op : DrvOp) : State := { drives with stor := { drives.stor with cmds := [drv op] } }

/-- `StorageOwner`: a range that is free and one that is taken, a volume with a command under way and without, a drive in use. -/
theorem witness_storage_owner :
    let i := Instr.volCreate adm 0 63 2 900 124
    let b := drives.begun adm i
    drives.starts adm i = true ∧ b.vol (volKey 0 63) = none ∧ (b.drive 2).ready = true ∧ 900 + 124 ≤ (b.drive 2).blocks ∧
    b.rangeTaken 2 900 124 = false ∧ b.rangeTaken 2 100 16 = true ∧ b.rangeTaken 2 116 16 = false ∧
    drives.starts adm (.volDestroy adm 0 1) = true ∧ (drives.begun adm (.volDestroy adm 0 1)).vol (volKey 0 1) = some vol1 ∧
    drives.stor.cmds = [] ∧ drives.stor.flushes = [] ∧ drives.stor.jobs = [] ∧ (working .read).starts adm (.volDestroy adm 0 1) = true ∧
    drives.starts adm (.drivePower adm 2 31) = true ∧ (drives.drive 2).power = none ∧
    (working .read).starts adm (.drivePower adm 2 0) = true := by decide +kernel

def stor0 : StorP := ⟨1, 2, 1, 99, 0x2000_0000_0000⟩
def tok : CmdHdr := { tnt with flags := 0x0200 }

/-- `StorageFlask`: the last block of a volume, with a token and without; a flush of a drive with a cache and without. -/
theorem witness_storage_flask :
    let b := drives.begun tnt (.storRead tnt stor0)
    let w := drives.setDrive 2 { drives.drive 2 with vwc := true }
    let m := drives.setDrive 2 { drives.drive 2 with maxBlocks := 1 }
    let two : StorP := { stor0 with blocks := 2, lba := 98 }
    m.starts tnt (.storRead tnt two) = true ∧ (m.drive 2).maxBlocks = 1 ∧ two.blocks.toNat = 2 ∧ inFlask m 0 0x2000_0000_0000 8192 = true ∧
    drives.starts tnt (.storRead tnt stor0) = true ∧ b.heldVol 0 1 = some vol1 ∧ b.volUp vol1 = true ∧ 99 + 1 ≤ vol1.blocks ∧
    b.reachable 0 0x2000_0000_0000 4096 = true ∧ drives.starts tok (.storRead tok stor0) = true ∧ tok.flags.getLsbD 9 = true ∧
    b.feedFor 0 [3] 2 = some (feed 7 3 2) ∧ inRegion (feed 7 3 2) 0x2000_0000_0000 4096 = true ∧ b.feedFor 0 [3] 3 = none ∧
    drives.starts tnt (.storWrite tnt stor0) = true ∧ (b.hubRead (flaskDom 0) .hub 0x2000_0000_0000 4096).2.2 = .ok ∧
    drives.starts tnt (.storTrim tnt stor0) = true ∧ drives.starts tnt (.storFlush tnt 1) = true ∧
    ((drives.begun tnt (.storFlush tnt 1)).drive 2).vwc = false ∧ w.starts tnt (.storFlush tnt 1) = true ∧ (w.drive 2).vwc = true := by
  decide +kernel

/-- `DrivesAnswer`: a read, one with a token and a write under way, a Set Features, and the windows of a flask and of another. -/
theorem witness_drives_answer :
    let s := working .read
    let p := { (working .power) with stor := { (working .power).stor with cmds := [{ drv .power with lba := 31 }] } }
    let rt : DrvCmd := { drv .read with token := some 2 }
    let tk := { drives with stor := { drives.stor with cmds := [rt] } }
    let q := p.setDrive 2 { p.drive 2 with power := some (0x44, 31, true) }
    let kin (s : State) : List DrvCmd := s.stor.cmds.filter fun x => decide (x.id = 3) || decide (x.group = 3)
    let half : DrvCmd := { drv .read with id := 4 }
    let h := { drives with stor := { drives.stor with cmds := [drv .read, half] } }
    kin s = [drv .read] ∧ kin h = [drv .read, half] ∧ h.drvCmd 3 = some (drv .read) ∧ half.res = none ∧ kin q = [{ drv .power with lba := 31 }] ∧
    s.drvCmd 3 = some (drv .read) ∧ (drv .read).issued = true ∧ (drv .read).ended = false ∧ s.stor.flushes = [] ∧
    s.writeWaits (flaskDom 0) 0x2000_0000_0000 4 = (false, s) ∧
    (s.hubWrite (flaskDom 0) .hub 0x2000_0000_0000 [1, 2, 3, 4]).2 = .ok ∧ (working .write).drvCmd 3 = some (drv .write) ∧
    (drv .read).failed = none ∧ (drv .read).out = 0 ∧ (drv .read).token = none ∧ tk.drvCmd 3 = some rt ∧ (rt.bind tk).feed.isSome = true ∧
    (((tk.setCmd (rt.bind tk)).land (.drive 3) (flaskDom 0) 0x2000_0000_0000 4).hubWrite (flaskDom 0) .hub 0x2000_0000_0000
      [1, 2, 3, 4]).2 ≠ .outside ∧ ((working .read).drive 2).power = none ∧
    q.drvCmd 3 = some { drv .power with lba := 31 } ∧ (q.drive 2).power = some (0x44, 31, true) ∧
    (∀ c ∈ s.stor.cmds, c.port = 2 → c.op = .read → c.dom ≠ flaskDom 1) ∧ (drv .read).dom = flaskDom 0 ∧ (drv .read).bytes = 4096 ∧
    (working .write).readWaits (flaskDom 0) 0x2000_0000_0000 = false ∧
    ((working .write).hubRead (flaskDom 0) .hub 0x2000_0000_0000 64).2.2 = .ok := by decide +kernel

/-- The module with HE0 its owner, HE0's link up. -/
def owned (s : State) : State :=
  { s with own := { s.own with valid := true, master := .he0 }, he0 := { s.he0 with speed := 5, width := 16, memSpace := true } }

/-- `Slots`: an empty slot, one with a drive, its power on. -/
theorem witness_slots :
    let on := (owned drives).setReg (portReg Reg.storPnCtl 2) 1
    (drives.drive 3).present = false ∧ (owned drives).isOwner .he0 = true ∧ (owned drives).isOwner .he1 = false ∧ (owned drives).arrives .he0 = true ∧
    (owned drives).arrives .he1 = false ∧ (owned drives).arrives .mgmt = true ∧ (owned drives).isOwner .mgmt = false ∧
    (on.reg (portReg Reg.storPnCtl 2)).getLsbD 0 = true ∧ (drives.drive 2).present = true ∧ (drives.drive 2).powerGood = true ∧
    drives.twin.st ≠ .fenced := by decide +kernel

/-- `IngestJobs`: an ingest binding, a job that waits, one that runs and one whose output stands. -/
theorem witness_ingest :
    let i := Instr.ingest tnt 8 0x2000_0000_1000 64
    let b := netLive.begun tnt i
    let j : Job := ⟨0, 8, 0x2000_0000_1000, 64, .ingest (.flask 0 0) 0x44 0, false, 0, some (feed 8 4 0), .idle, none⟩
    let s := { netLive with stor := { netLive.stor with jobs := [j] } }
    let none8 : FeedRec := { feed 8 4 0 with targetBytes := 0 }
    let r := { netLive with stor := { netLive.stor with jobs := [{ j with running := true }] } }
    let q := r.hubRead (flaskDom 0) .hub 0x2000_0000_1000 64
    netLive.starts tnt i = true ∧ (b.ingestFeed 0 8) = some (feed 8 4 0) ∧ inFlask b (flaskDom 0) 0x2000_0000_1000 64 = true ∧
    s.stor.jobs.find? (fun j => j.flask == 0 && j.binding == 8) = some j ∧ s.tokensTaken 0 8 = true ∧ s.enginesBusy false < 8 ∧
    r.stor.jobs.find? (fun j => j.flask == 0 && j.binding == 8) = some { j with running := true } ∧ r.heldTokens 0 8 < 64 ∧
    r.readWaits (flaskDom 0) 0x2000_0000_1000 = false ∧ (s.flask 0).st.leaving = false ∧ s.twin.st ≠ .fenced ∧ j.feed = some (feed 8 4 0) ∧
    (feed 8 4 0).mode.toNat ≠ 1 ∧ space (feed 8 4 0).target.toNat ≠ 5 ∧ q.2.2 = .ok ∧
    (let d := decodeJob none8 { j with running := true, feed := some none8 } q.1
     let put := q.2.1.putParts { j with running := true, feed := some none8 } ((split 65536 2 none8.target.toNat (d.1.flatten.take 0)).map
       fun x => (x.1, x.2, none))
     put.2.2 = .ok ∧ put.2.1 = []) ∧
    (decodeJob { feed 8 5 0 with mode := 1 } j q.1).2.1 = 1 ∧ 0 + 1 ≤ (r.flask 0).clusters.length * 256 ∧
    (r.flask 0).clusters.length * 256 < 2 ^ 19 + 1 ∧
    ({ j with out := some ⟨[], none, 0⟩ } : Job).out = some ⟨[], none, 0⟩ := by decide +kernel

/-- HE0 up, with an outbound entry of flask 0 (4 GiB of host memory) and two inbound windows of 4 KiB, on flask memory and on the
staging area. -/
def hosted : State :=
  { live with he0 := { live.he0 with
      speed := 5, width := 16, memSpace := true, bme := true
      outActive := [(0, 0x7), (1, 32)]
      inActive := [(0, 0x7), (1, 12), (5, 0x2000), (8, 0x17), (9, 12), (10, 0x1000)] } }

/-- `Configuration` and `Functions`: a link that is up, a function being reset. -/
theorem witness_functions : (hosted.ep 0).speed ≠ 0 ∧ (hosted.ep 0).flr = false ∧
    ((hosted.setEp 0 { hosted.ep 0 with flr := true }).ep 0).flr = true ∧ ({ hosted with phase := .coldShut } : State).phase = .coldShut ∧ hosted.phase ≠ .off ∧ hosted.phase ≠ .coldShut := by
  decide +kernel

/-- A request of core 0 on space 0x5. -/
def ask (op : MemOp) : MemReq := ⟨9, p0, 0, 0x5000_0000_0100, 0, 0, 0, true, op⟩

/-- `Outbound`: a store and a load through an enabled entry, the same without one, a read outstanding and one that nobody knows. -/
theorem witness_outbound :
    let w := { hosted with fab := { hosted.fab with reqs := [ask (.store 4 (int 5))] } }
    let l := { live with fab := { live.fab with reqs := [ask (.load 4)] } }
    let r : OutReq := ⟨9, .proc p0 0 0 0, 0, 0x5000_0000_0100, 4, none⟩
    let o := w.outEntry 0 0
    w.fab.reqs.find? (fun r => decide (r.id = 9) && decide (space r.addr.toNat = 5)) = some (ask (.store 4 (int 5))) ∧
    w.stale p0 0 = false ∧ w.memTurn (ask (.store 4 (int 5))) = true ∧ w.outHeld 0 0 = false ∧ w.heldBefore 0 9 = false ∧ l.heldBefore 0 9 = false ∧
    o.en = true ∧ o.dis = false ∧ o.flask = 0 ∧ o.w = true ∧ o.r = true ∧ 0x100 + 4 ≤ 2 ^ o.log2 ∧ (l.outEntry 0 0).en = false ∧
    l.memTurn (ask (.load 4)) = true ∧ (w.ep 0).reads = [] ∧
    ((w.setEp 0 { w.ep 0 with reads := [r] }).ep 0).reads.find? (fun x => decide (x.id = r.id)) = some r := by decide +kernel

/-- `Inbound`: an offset in no window, in one of a flask, in one of the staging area, in two; nothing waiting, and a read that does. -/
theorem witness_inbound :
    let two := hosted.setEp 0 { hosted.ep 0 with inActive := (hosted.ep 0).inActive ++ [(16, 0x7), (17, 12)] }
    let held := hosted.setEp 0 { hosted.ep 0 with inq := [⟨0, 0x2000_0000_0000, none, 4, false⟩] }
    hosted.reaches 0 = true ∧ hosted.inHits 0 0x8000 = [] ∧ (hosted.inHits 0 0xFFF) = [hosted.inEntry 0 0] ∧
    hosted.inHits 0 0x1000 = [hosted.inEntry 0 1] ∧ (two.inHits 0 0).length = 2 ∧
    hosted.inTarget (hosted.inEntry 0 0) 0xFFF 1 true = some (0, 0x2000_0000_0FFF) ∧
    hosted.inTarget (hosted.inEntry 0 0) 0xFFF 2 true = none ∧ hosted.readWaits 0 0x2000_0000_0FFF = false ∧
    hosted.inTarget (hosted.inEntry 0 1) 0x1000 4 false = some (0x100, stagingBase) ∧
    (hosted.hubRead 0x100 .host stagingBase 4).2.2 = .ok ∧ (hosted.ep 0).inq = [] ∧ (held.ep 0).inq ≠ [] ∧ held.reaches 0 = true ∧
    hosted.writeWaits 0 0x2000_0000_0FFF 1 = (false, hosted) ∧ (hosted.inEntry 0 0).roOk = false := by decide +kernel

/-- `EndpointRegisters` and `HostLiveness`: a commit that waits, a host that is live, one that has lapsed. -/
theorem witness_endpoint_registers :
    let s := owned hosted
    let c := s.setEp 0 { s.ep 0 with commitIn := true }
    let l := s.setLive 0 { s.live 0 with lapsed := true }
    s.isOwner .he0 = true ∧ s.isOwner .mgmt = false ∧ s.arrives .he0 = true ∧ s.arrives .mgmt = true ∧ masterIndex .he0 = 0 ∧
    masterIndex .mgmt = 2 ∧ (s.ep 0).inq = [] ∧ s.reaches 0 = true ∧ (s.ep 0).noteHeld = false ∧
    ((s.ep 0).commitIn || (s.ep 0).commitOut) = false ∧ ((c.ep 0).commitIn || (c.ep 0).commitOut) = true ∧
    Tab.wf MsixEntry.reset (s.ep 0).msix = true ∧ (s.live 0).lapsed = false ∧ (l.live 0).lapsed = true ∧ (l.live 0).holdOver = false ∧
    (0 : FlaskId) ∈ s.bound 0 := by decide +kernel

/-! ### Scorers, security, ownership, twins -/

def scor1 : ScorRec := ⟨1, 0, 2, 64, 4, 0x2000_0001_0000, 0x2000_0000_0000, 0, 8⟩

/-- The flask's region 1, its slot 0 with a request of one query of head 1 for 4 blocks, in cells of LPDDR (R248). -/
def scored (mode : Byte) : State :=
  let cells := ((fld 1 0 ++ fld 1 1 ++ fld 1 1 ++ fld 1 0 ++ fld 2 4 ++ fld 2 0 ++ fld 4 8 ++ fld 4 3 ++ fld 1 2 ++ fld 7 0 ++
    fld 8 0x2000_0000_2000 ++ fld 8 0x1000_0000_0000).zipIdx.filter fun x => x.1 != 0).map fun x => (0x2000_0000_0000 + x.2, x.1)
  let s := liveAs fun x => { x with mould := some { mould0 with scors := [{ scor1 with mode := mode }] } }
  { s with mem := { s.mem with lp := cells, lpValid := [(0x2000_0000_0000 / 4096, true)] } }

/-- `ScorerRequests`: a write of a whole line to slot 0, and none that is under way there; a request that is right in all, and one in a
dense region. -/
theorem witness_score_request :
    let s0 := scored 0
    let line := (s0.hubRead 0 .hub 0x2000_0000_0000 64).1
    let a : ScoreAsk := ⟨0, scor1, 0, line, 1⟩
    let s := { s0 with asks := [a] }
    let q := scoreRec line
    let x := s0.hubRead 0 .hub q.query (q.group * vecBytes 64)
    s0.mem.ownerOf (faGranule 0x2000_0000_0000) = 0 ∧ ((s0.flask 0).mould.map fun m => m.scors) = some [scor1] ∧
    (s0.flask 0).st.leaving = false ∧ line.length = 64 ∧ (s0.flask 0).granules.idxOf (faGranule 0x2000_0000_0000) = 0 ∧ s0.scor = [] ∧
    s0.asks = [] ∧ s.asks.find? (fun y => y.flask == 0 && y.scor.region == 1 && y.slot == 0) = some a ∧
    s.readWaits 0 0x2000_0000_0000 = false ∧ q.op = 0 ∧ coreRef s0 0 q.core = some 3 ∧ coreRef s0 0 (q.core + 256) = none ∧
    listsFit s0 0 q scor1 = true ∧ listsFit s0 0 { q with result := q.result + 4 } scor1 = false ∧ q.legal scor1 = true ∧
    { q with group := 9 }.legal scor1 = false ∧ { scor1 with mode := 1 }.mode ≠ 0 ∧ space q.query < 3 ∧
    inFlask s0 0 q.query 68 = true ∧ inFlask s0 0 (q.query + 2 ^ 40) 68 = false ∧ x.2.2 = .ok ∧
    ((x.1.drop 0).take 2).contains 0xFF = false := by decide +kernel

def scoreReq : ScoreReq := ⟨0, 1, 0, scor1, (fld 1 1 ++ List.replicate 23 0 ++ fld 8 0x1000_0000_0000), [], true, St.success, [5], 4⟩
def fill7 : Fill := ⟨0, scor1, 1, 7, 2⟩

/-- `ScorerAnswers` and `SummariesFill`: a maintenance request whose last channel is due, behind nothing, and one that has failed; a
block that a write has completed. -/
theorem witness_score_answers :
    let s := { scored 0 with scor := [scoreReq] }
    let at' := scor1.recAt 1 7
    let b := scored 0
    let f := { b with fills := [fill7] }
    let k := b.hubRead 0 .hub (scor1.areaAt 1 7) (128 * scor1.d)
    let c := k.2.1.hubRead 0 .hub (scor1.areaAt 1 7 + 256 * scor1.d) (8 * scor1.d)
    s.scor.find? (fun y => y.flask == 0 && y.region == 1 && y.slot == 0) = some scoreReq ∧
    (scoreRec scoreReq.line).op = 1 ∧ coreRef s 0 (scoreRec scoreReq.line).core = some 0 ∧ (5 : Nat) ∈ scoreReq.left ∧
    s.scanTurn scoreReq 5 = true ∧ s.heldScores 0 1 < 1024 ∧ s.readWaits 0 scor1.sumBase.toNat = false ∧ scoreReq.lists = true ∧
    scoreReq.status = St.success ∧ ({ scoreReq with status := St.malformed } : ScoreReq).status ≠ St.success ∧
    f.fills.find? (fun y => y.flask == 0 && y.scor.region == 1 && decide (y.head = 1 ∧ y.block = 7)) = some fill7 ∧
    f.chanBusy (dieOf f 0 scor1.sumBase.toNat) (chanOf f 0 at') 2 = false ∧ f.readWaits 0 at' = false ∧
    f.writeWaits 0 at' scor1.recBytes = (false, f) ∧ k.2.2 = .ok ∧ c.2.2 = .ok ∧ c.1.contains 0xFF = false := by decide +kernel

def keyed : State :=
  let s := live.setSlot 3 ⟨1, 0x7, 0, 0, List.replicate 32 1⟩
  s.setSlot 4 (KeySlot.empty 0)

def unwrap0 : UnwrapP := ⟨3, 4, 56, 0x2000_0000_0000⟩
def cv0 : CvP := ⟨3, 0, 16, 64, 0x2000_0000_0000, 0x2000_0000_0100, 0⟩

/-- `KeySlots`: a slot that may unwrap, one that is empty, one of another scope, one that is lost; a blob in the flask's memory; the
device unlock key. What the blob unwraps to is the free function's to say, and the statement holds for each of its answers. -/
theorem witness_keys :
    let i := Instr.keyUnwrap tnt unwrap0
    let b := keyed.begun tnt i
    keyed.starts tnt i = true ∧ b.breakout = false ∧ (b.slot 3).assigned = ladleDom tnt.ladle ∧ (b.slot 3).loaded = true ∧
    (b.slot 3).usage.getLsbD 0 = true ∧ (b.slot 4).loaded = false ∧ (b.slotLost 3 || b.slotLost 4) = false ∧
    (b.readTrips [.keySlot 3, .keySlot 4]).cmdRange tnt.ladle unwrap0.blob 56 = true ∧
    ((b.readTrips [.keySlot 3, .keySlot 4]).hubRead 0 .hub unwrap0.blob.toNat 56).2.2 = .ok ∧
    keyed.starts adm (.keyUnwrap adm { unwrap0 with wrap := 0xFFFF }) = true ∧ b.sec.duk.isSome = true ∧
    b.cmdRange tnt.ladle unwrap0.blob 56 = true ∧ keyed.starts tnt (.keyClear tnt 3) = true ∧ (b.slot 9).assigned ≠ 0 ∧
    keyed.starts adm (.keyAssign adm 0 0 512) = true ∧ ((keyed.begun adm (.keyAssign adm 0 0 512)).flask 0).st = .running := by
  decide +kernel

/-- `Votes`: a flask that has a root descriptor, an owner, a key slot. -/
theorem witness_votes :
    keyed.phase ≠ .off ∧ keyed.holdsWord (.mouldRoot 0) = true ∧ keyed.holdsWord .ownerRecord = true ∧ (owned keyed).own.valid = true ∧
    keyed.holdsWord (.keySlot 3) = true ∧ (keyed.flask 0).st ≠ .failed ∧ (keyed.flask 0).job = none ∧
    (keyed.slot 3).loaded = true := by decide +kernel

/-- R225: a slot whose header has no majority reads as empty. -/
theorem test_vote_key_slot :
    ((left (.memoryAccessAtHome 0 (.vote (.keySlot 3) false)) keyed).map fun t => ((t.slot 3).loaded, t.slotLost 3)) =
      some (false, true) := by decide +kernel

/-- R225, R262: a flask whose root descriptor has no majority enters FAILED, and its mould is lost. -/
theorem test_vote_fails_flask :
    let s := keyed.setFlask 0 { keyed.flask 0 with clusters := [] }
    ((s.loseWord (.mouldRoot 0)).flask 0).st = .failed ∧ ((s.loseWord (.mouldRoot 0)).flask 0).mould.isNone = true := by
  decide +kernel

/-- R439: after a vote failure of the owner record, the owner's return within the hold does not make it owner again. -/
theorem test_vote_owner_record :
    let s := owned { keyed with he0 := { Endpoint.reset with speed := 1 } }
    s.masterLive .he0 = true ∧ ((left (.memoryAccessAtHome 0 (.vote .ownerRecord false)) s).map fun t =>
      (t.own.valid, t.ownerReturns.own.holding)) = some (false, true) := by decide +kernel

/-- `CheckValues`: a key that may compute, a request that waits, one that an engine runs. -/
theorem witness_check_values :
    let i := Instr.cvCompute tnt cv0
    let b := keyed.begun tnt i
    let q : CvReq := ⟨.flask 0 0, 0x44, cv0, true⟩
    let s := { keyed with sec := { keyed.sec with cvq := [q] } }
    let d := keyed.hubRead 0 .hub 0x2000_0000_0000 64
    keyed.starts tnt i = true ∧ b.cvKey tnt.ladle cv0 = none ∧ b.cmdRange tnt.ladle cv0.src 64 = true ∧
    b.cmdRange tnt.ladle cv0.tagAddr 16 = true ∧ b.cvKey tnt.ladle { cv0 with slot := 4 } ≠ none ∧ s.sec.cvRuns = [] ∧
    s.cvKey q.ladle q.p = none ∧ d.2.2 = .ok ∧ (d.2.1.hubRead 0 .hub 0x2000_0000_0100 16).2.2 = .ok ∧
    d.2.1.writeWaits 0 0x2000_0000_0100 16 = (false, d.2.1) ∧
    (d.2.1.hubWrite 0 .hub 0x2000_0000_0100 (List.replicate 16 7)).2 = .ok := by decide +kernel

/-- A record of R418 in the staging area. -/
def provision : State :=
  let s := staged live (pad 128 (fld 4 0x56504C4F))
  { s with sec := { s.sec with duk := none } }

/-- `Identity`: a report to the staging area, keys to set, a device key to provision and to rotate. Whether a record names this device,
verifies and unwraps is for the identity seed and the free functions to say; the statement holds for each answer. -/
theorem witness_identity :
    let a := Instr.attest adm 0 0 0xFFFF
    let p := Instr.dukProvision adm 0
    let r := (provision.begun adm p).hubRead 0x100 .hub stagingBase 128
    live.starts adm a = true ∧ (live.begun adm a).cmdRange adm.ladle 0 320 = true ∧
    ((live.tick 8).hubWrite 0x100 .hub stagingBase [1]).2 = .ok ∧ live.starts adm (.mouldKeySet adm 15 1 0) = true ∧
    live.starts adm (.debugKeySet adm 0 0) = true ∧ provision.starts adm p = true ∧ (provision.begun adm p).sec.duk = none ∧
    r.2.2 = .ok ∧ leNat (r.1.take 4) = 0x56504C4F ∧ leNat ((r.1.drop 4).take 4) = 0 ∧
    live.starts adm (.dukRotate adm 0) = true ∧ ((live.begun adm (.dukRotate adm 0)).hubRead 0x100 .hub stagingBase 40).2.2 = .ok ∧
    (live.begun adm (.dukRotate adm 0)).sec.duk.isSome = true := by
  decide +kernel

/-- `Breakouts`: none in force, levels 1 and 3 in force, a trigger that still stands. -/
theorem witness_breakouts :
    let at' (v : Word) : State := live.setReg Reg.secBoStat v
    live.starts adm (.breakoutRaise adm 1) = true ∧ live.boLevel = 0 ∧ (at' 1).starts adm (.breakoutClear adm) = true ∧
    (at' 1).boLevel = 1 ∧ (at' 3).boLevel = 3 ∧ (at' 3).starts adm (.breakoutClear adm) = true ∧ (at' 9).boLevel = 1 ∧
    ((at' 9).reg Reg.secBoStat).toNat / 8 % 2 ^ 8 = 1 := by decide +kernel

/-- `DebugUnlock`: a key is registered, a challenge stands, two refusals counted. -/
theorem witness_debug :
    let s := live.setReg 0x600010 1
    let c := { s with sec := { s.sec with chal := some ⟨1, 5, false⟩, fails := 2 } }
    (s.reg 0x600010).getLsbD 0 = true ∧ s.sec.locked = false ∧ c.sec.chal = some ⟨1, 5, false⟩ ∧ c.sec.fails = 2 := by decide +kernel

/-- `OwnersChange` and `OwnersAreLost`: claims of two live masters, a handover offered, an owner whose host has lapsed, one that
is live again. -/
theorem witness_ownership :
    let cs : List (Master × Byte × BitVec 16) := [(.he1, 7, 1), (.mgmt, 7, 2)]
    let up := State.setLadle { hosted with he1 := { hosted.he1 with speed := 3 } } .admin (Ladle.admin 0x10000)
    let s := { up with own := { up.own with claims := cs, electing := true } }
    let o := owned up
    let h := { o with own := { o.own with hand := some (.he1, 5) } }
    let lost := o.setLive 0 { o.live 0 with lapsed := true }
    let hold := { lost with own := { lost.own with holding := true } }
    s.ownWaits = false ∧ s.own.valid = false ∧ s.own.next = none ∧ s.own.electing = true ∧
    bestClaim (s.own.claims.filter fun c => s.masterLive c.1) = some (.he1, 7, 1) ∧ s.fw.admin.cmds = [] ∧ s.fw.act = none ∧
    s.fw.admin.sqHead = s.fw.admin.sqTail ∧ o.isOwner .he0 = true ∧ o.isOwner .mgmt = false ∧ h.own.hand = some (.he1, 5) ∧
    lost.own.valid = true ∧ lost.own.holding = false ∧ lost.masterLive .he0 = false ∧ hold.own.holding = true ∧ hold.ownWaits = false ∧
    o.masterLive .he0 = true ∧ ({ o with fw := { o.fw with down := [.security] } } : State).fw.down.contains .security = true ∧
    o.arrives .he0 = true := by decide +kernel

/-- A module of a pair whose link is up. -/
def paired (st : TwinSt) : State :=
  { live with twin := { Twin.reset with st := st, link := true, cable := true, kp := some 9, epoch := 2, peerEpoch := 2, lanes := 0xFFFF } }

def policy0 : TwinPolicyP := ⟨0, 1, 0, 0xFFFF, 0xFF⟩

/-- `TwinCommands`: a credential, which the identity and the free functions may take for the module's own or not, a policy, a fenced peer to readmit, a pair to end. -/
theorem witness_twin_commands :
    let s := { staged live (pad 192 (fld 4 0x52504C4F)) with twin := { Twin.reset with cable := true } }
    let i := Instr.twinPair adm 0 true
    let r := (s.begun adm i).hubRead 0x100 .hub stagingBase 192
    let v : State := { (paired .survivor) with twin := { (paired .survivor).twin with peer := some .fenced } }
    s.starts adm i = true ∧ (s.begun adm i).twin.st = .unpaired ∧ r.2.2 = .ok ∧ r.2.1.twinDead = false ∧
    pairBad (List.replicate 16 0) r.1 = none ∧ pairBad (List.replicate 16 1) r.1 = some 0x00B2 ∧ v.twin.kp.isSome = true ∧
    (paired .paired).starts adm (.twinPolicy adm policy0) = true ∧ live.starts adm (.twinPolicy adm policy0) = true ∧
    v.starts adm (.twinReadmit adm) = true ∧ (v.begun adm (.twinReadmit adm)).twin.peer = some .fenced ∧
    (paired .paired).starts adm (.twinUnpair adm) = true ∧ (paired .fenced).starts adm (.twinUnpair adm) = true ∧
    (paired .survivor).starts adm (.twinReadmit adm) = true := by decide +kernel

def beat (e : Word) (n : BitVec 64) : TwinMsg := ⟨0, e, n, .heartbeat⟩

/-- A message as the peer of the module tags it. -/
def fromPeer (s : State) (m : TwinMsg) : TwinMsg := { m with tag := s.linkTag (!s.twin.roleB) m.epoch m.seq.toNat m.body }

/-- `TwinMessages`: every message can come with its tag, and with another. -/
theorem witness_twin_tags (s : State) (m : TwinMsg) :
    s.tagged (fromPeer s m) = true ∧ s.tagged { fromPeer s m with tag := (fromPeer s m).tag + 1 } = false ∧
      s.twin.accepts (fromPeer s m) = s.twin.accepts m ∧ s.openBody (fromPeer s m) = s.openBody m := by
  refine ⟨?_, ?_, rfl, rfl⟩ <;> simp [State.tagged, fromPeer]

/-- `TwinMessages`: a beat of the epoch, one of a later, one of an earlier, a window write and a read. -/
theorem witness_twin_messages :
    let s := paired .paired
    let a := 2 * 2 ^ 44 + 1188 * 2 ^ 28
    let old (st : TwinSt) : Twin := { (paired st).twin with peerEpoch := 0 }
    s.phase.serves = true ∧ s.twin.accepts (beat 2 0) = true ∧ s.twin.accepts (beat 1 0) = false ∧
    s.twin.accepts (beat 3 0) = true ∧ serialOlder 2 3 = true ∧ (paired .suspect).twin.accepts (beat 2 0) = true ∧
    (old .pairing).accepts ⟨0, 1, 0, .hello 5 .pairing⟩ = true ∧ s.breakout = false ∧
    (old .joining).accepts ⟨0, 1, 0, .hello 5 .serving⟩ = true ∧ serialOlder 2 1 = false ∧
    s.windowWaits .heartbeat = (false, s) ∧ s.windowWaits (.windowWrite none (BitVec.ofNat 44 a) [1, 2, 3, 4]) = (false, s) ∧
    s.openBody ⟨0, 2, 0, .windowWrite none (BitVec.ofNat 44 a) [1, 2, 3, 4]⟩ = some (.windowWrite none (BitVec.ofNat 44 a) [1, 2, 3, 4]) ∧
    s.openBody ⟨0, 2, 0, .mirror (.mac 0 5)⟩ = some (.mirror (.mac 0 5)) ∧ s.twin.kp.isSome = true ∧ s.twin.link = true ∧
    s.writeWaits 0x100 a 4 = (false, s) ∧ (s.hubWrite 0x100 .hub a [1, 2, 3, 4]).2 = .ok := by decide +kernel

/-- `TwinEvents` and `TwinRestarts`: modules in each state that an event asks for, and a flask to restart. -/
theorem witness_twin_events :
    let m : List MirrorItem := [.flask 9 true create7 [] (some policy0), .key 9 []]
    let v := { (paired .survivor) with twin := { (paired .survivor).twin with restarts := [9], mirror := m } }
    (paired .paired).phase.serves = true ∧ (paired .suspect).twin.st.asks = true ∧ (paired .paired).twinDead = false ∧
    (paired .suspect).fw.down.contains .management = false ∧ v.twin.restarts = [9] ∧
    v.fw.act = none ∧ (v.mirrored 9).isSome = true ∧
    (match v.mirrored 9 with
      | some x => (match v.restart 9 x none with
        | .ok _ => true
        | .error _ => false)
      | none => false) = true := by decide +kernel

/-! ### Ingots, resets, registers -/

def setup0 : IngotSetupP := ⟨0, 2, 0, 0xFF, 50, 9, 100, 1000⟩
def area0 : Area := ⟨2, false, 0, 200, 600, 0, [], 0⟩

/-- The low word of the device's identity. -/
def dev : Word := live.deviceId.extractLsb' 0 32
def slotOf (k : Nat) (g : Option IngotHdr) : IngotSlot := ⟨0, dev, 0, k, 202 + 100 * k, 100, 0, g, []⟩
def ingotKey9 : KeySlot := ⟨1, 0x2, 0x100, 0, List.replicate 32 1⟩

/-- Flask 0 set up for ingots: an area on drive 2, two slots, its key in slot 9 (R478–R480). -/
def ingots (x : Flask → Flask) (slots : List IngotSlot) : State :=
  let s := (drives.setFlask 0 (x { drives.flask 0 with setup := some setup0, mould := some mould0 })).setSlot 9 ingotKey9
  { s with ing := { s.ing with areas := [(0, some area0)], slots := slots } }

/-- Slots of this device are its series, whatever its identity is. -/
theorem series_of (s : State) (slots : List IngotSlot) (hs : s.ing.slots = slots) (hd : s.deviceId = live.deviceId)
    (ha : s.area 0 = some area0) (h : ∀ y ∈ slots, y.device = dev ∧ y.flask = 0 ∧ y.area = 0) :
    s.series false (s.deviceId.extractLsb' 0 32) 0 = slots := by
  unfold State.series
  rw [hs, hd]
  refine List.filter_eq_self.mpr fun y hy => ?_
  obtain ⟨h1, h2, h3⟩ := h y hy
  rw [h1, h2, h3, ha]
  simp [dev, area0]

def hdr9 : IngotHdr := ⟨3, 0, 0, 0, 0, 7, 0, 1, 2, 0, 0, keyCheck ingotKey9.key, false, false, false, 0, 0, 0⟩
def take9 : Take := ⟨0, .flask 0 0, 0x44, [2], [], ingotKey9.key, none, ⟨[], []⟩, [], 1⟩

/-- `IngotCommands` and `NewestIngot`: an area where there is room, a setup that can be made and one that cannot, a take that
starts and one that waits, an ingot to restore. -/
theorem witness_ingots :
    let p : AreaP := ⟨2, 0, 0, 0, 800, 224⟩
    let s := ingots id []
    let r := ingots id [slotOf 0 (some hdr9), slotOf 1 none]
    let b := s.begun adm (.ingotArea adm p)
    let c := s.begun adm (.ingotTake adm 0)
    s.starts adm (.ingotArea adm p) = true ∧ b.rangeTaken 2 800 224 = false ∧ 800 + 224 ≤ (b.drive 2).blocks ∧ b.area 1 = none ∧
    (b.area 0).isSome = true ∧ s.starts adm (.ingotSetup adm setup0) = true ∧ setupLegal setup0 = true ∧
    (match (s.begun adm (.ingotSetup adm setup0)).trySetup 0 setup0 with | .ok _ => true | .error _ => false) = true ∧
    (match (s.begun adm (.ingotSetup adm setup0)).trySetup 0 { setup0 with area := 1 } with | .ok _ => false | .error e => decide (e = 0x00D0)) = true ∧
    s.starts adm (.ingotTake adm 0) = true ∧ s.starts tnt (.ingotTake tnt 0) = true ∧ (c.flask 0).setup = some setup0 ∧
    (c.flask 0).ingot = false ∧ c.castUnderWay 0 = false ∧ c.ing.waiting = [] ∧ c.ingotKey 9 = some ingotKey9.key ∧
    (c.takeGranules (c.flask 0) 50).isSome = true ∧ r.starts adm (.ingotRestore adm 0 0 0 0 3 none) = true ∧
    (r.flask 0).mould = some mould0 ∧ mould0.id = hdr9.mouldId ∧ mould0.sequence = hdr9.sequence ∧ (r.flask 0).rot = hdr9.rot ∧
    c.granuleReserved 5 = false := by decide +kernel

/-- `IngotCommands`: the ingot to restore, under the key that it was taken under. -/
theorem witness_restore :
    let r := ingots id [slotOf 0 (some hdr9), slotOf 1 none]
    newest 0 (r.ingotsOf false 0 0) = some hdr9 ∧ newest 2 (r.ingotsOf false 0 0) = none ∧
    (r.ingotKey 9).map keyCheck = some hdr9.keyCheck ∧ (ingots id [slotOf 0 (some hdr9)]).ingotsOf false 0 0 = [slotOf 0 (some hdr9)] := by
  have h : (ingots id [slotOf 0 (some hdr9), slotOf 1 none]).series false _ 0 = _ :=
    series_of _ [slotOf 0 (some hdr9), slotOf 1 none] rfl rfl rfl (by simp [slotOf])
  have h1 : (ingots id [slotOf 0 (some hdr9)]).series false _ 0 = _ := series_of _ [slotOf 0 (some hdr9)] rfl rfl rfl (by simp [slotOf])
  unfold State.ingotsOf
  simp only [Bool.false_eq_true, if_false, h, h1]
  exact ⟨rfl, rfl, rfl, rfl⟩

/-- `IngotsStream`: a take that waits at a step boundary, a flask that is not at one, and a stream that ends. -/
theorem witness_ingot_stream :
    let s0 := ingots (fun x => { x with ingot := true }) [slotOf 0 none, slotOf 1 none]
    let s := { s0 with ing := { s0.ing with takes := [take9] } }
    let off := s.setFlask 0 { s.flask 0 with disps := [⟨0, 1, 0, 0⟩] }
    let e := { s0 with ing := { s0.ing with takes := [{ take9 with ingot := some hdr9 }] } }
    s.fw.down.contains .scheduler = false ∧ (s.flask 0).ingot = true ∧ (s.flask 0).mould = some mould0 ∧ s.atStep 0 = true ∧
    off.atStep 0 = false ∧ e.breakout = false ∧ (e.flask 0).keyLoaded = true ∧ (e.flask 0).setup = some setup0 ∧ setup0.peerArea = 0xFF ∧
    (e.ownCopy (slotOf 1 none) { hdr9 with single := true } take9.data (ingotKeys take9.key)).isSome = true ∧ take9.bad = [] := by decide +kernel

/-- `IngotsStream`: the slot that the stream fills. -/
theorem witness_stream_slot :
    let e := ingots (fun x => { x with ingot := true }) [slotOf 0 none, slotOf 1 none]
    ((e.series false (e.deviceId.extractLsb' 0 32) 0).find? fun y => decide (y.slot = 1 ∧ y.ingot = none)) = some (slotOf 1 none) := by
  have h := series_of (ingots (fun x => { x with ingot := true }) [slotOf 0 none, slotOf 1 none]) [slotOf 0 none, slotOf 1 none] rfl rfl
    rfl (by simp [slotOf])
  simp only [h]
  rfl

/-- A start-up that meets nothing wrong. -/
def envOk : StartupEnv := ⟨0, true, .good, .good, true, true, true, true, false, ⟨0, 0, 0, 0, 0, 0, 0, [], 0, []⟩⟩

/-- `Resets`: unpowered and powered modules, the pin low, a debug unlock, an owner; a start-up that is right and one that BIST
holds up; options that are to be written. -/
theorem witness_resets_and_start_up :
    let s := State.reset
    let off : State := { s with phase := .off, rst := { s.rst with powered := false } }
    let low : State := { s with phase := .off, rst := { s.rst with pinLow := true } }
    let held : State := { s with phase := .startUp, rst := { s.rst with env := some envOk, refusals := 19 } }
    let d : State := { s with rst := { s.rst with opt := { s.rst.opt with dirty := true } } }
    off.rst.mated = true ∧ s.rst.powered = true ∧ low.rst.pinLow = true ∧ s.phase.serves = true ∧
    ({ s with sec := { s.sec with unlocked := 2 } } : State).sec.unlocked = 2 ∧ s.sec.erasing = false ∧ (owned s).isOwner .he0 = true ∧
    s.rst.loop.toNat < 4 ∧ (s.rst.opt.choose true true).isSome = true ∧
    (match s.rst.opt.choose true true with
      | some x => decide (x.1.once.getLsbD 1 = false ∧ x.1.bankB = false ∧ s.fw.romCheck false .good = St.success ∧ s.fw.romCheck true .good ≠ St.success)
      | none => false) = true ∧ s.fw.romCheck false .badSignature ≠ St.success ∧ s.fw.romCheck true .badSignature ≠ St.success ∧
    s.fw.running.raw = [] ∧ envOk.bist.fatal.toNat &&& 0x77 = 0 ∧ envOk.bist.badCheckers = 0 ∧
    ({ envOk.bist with fatal := 1 } : BistReport).fatal.toNat &&& 0x77 ≠ 0 ∧ (owned s).arrives .he0 = true ∧ s.arrives .he0 = false ∧
    ({ s with sec := { s.sec with erasing := true } } : State).sec.erasing = true ∧ 20 ≤ ({ held with rst := { held.rst with refusals := 20 } } : State).rst.refusals ∧ held.rst.refusals < 20 ∧
    d.rst.opt.dirty = true ∧ d.rst.opt.newest.seq.toNat + 1 < 2 ^ 32 := by decide +kernel

/-- `DomainsAndSelfTest`: a domain held with its parents released, flasks live and none, a free region and one in use, spares left. -/
theorem witness_domains :
    let s := owned State.reset
    let c := { s with rst := { s.rst with resetDomains := [.cluster 5, .dieInfra 3] } }
    let t := { s with phase := .test }
    c.rst.resetDomains.contains (.cluster 5) = true ∧ (domainParents (.cluster 5)).any c.rst.resetDomains.contains = false ∧
    c.rst.resetDomains.contains (.dieInfra 0) = false ∧ c.rst.resetDomains.contains (.channels 0) = false ∧
    s.liveFlasks = [] ∧ (owned live).liveFlasks = [0] ∧ t.phase = .test ∧ s.rst.bist = none ∧ s.isOwner .he1 = false ∧
    s.mem.clusterOwnerOf 0 = 0x1FF ∧ live.mem.clusterOwnerOf 0 = 0 ∧ (s.reg Reg.bistCtl).getLsbD 2 = false ∧ s.arrives .he0 = true ∧ s.arrives .mgmt = true ∧
    s.isOwner .mgmt = false ∧ s.mem.ownerOf 7 = 0x1FF ∧ s.granuleReserved 7 = false ∧ s.mem.spareLeft (.line 0) = true ∧
    s.mem.spareLeft .spareMacro = true ∧ ({ s with sec := { s.sec with unlocked := 2 } } : State).sec.unlocked = 2 := by decide +kernel

/-- `Registers`: a register with bits that reading clears and one without; before service, a register that is not read early; an offset
that is not aligned. -/
theorem witness_registers :
    let s := owned State.reset
    s.arrives .he0 = true ∧ s.arrives .mgmt = true ∧ s.arrives .he1 = false ∧ s.mem.trip = [] ∧ (0x102 : BitVec 26).toNat % 4 ≠ 0 ∧
    ({ s with phase := .startUp } : State).arrives .he0 = true ∧ ({ s with phase := .startUp } : State).phase.serves = false ∧
    s.phase.serves = true ∧ (BitVec.ofNat 26 Reg.idDevice).toNat % 4 = 0 ∧ ((rowOf Reg.idDevice).map (·.rc)) = some 0 ∧
    (regRows.any fun r => decide (r.rc ≠ 0 ∧ r.off % 4 = 0 ∧ r.off / 2 ^ 16 ≠ 0x18)) = true ∧ readsEarly Reg.hostTimeout0 = false ∧
    s.fw.down.contains .management = false ∧ s.isOwner .he0 = true ∧ s.isOwner .mgmt = false ∧ isSensor 0xFF = false ∧
    Tab.get none ({ s.bg with sensors := [(3, some 250)] } : Bg).sensors 3 = some 250 := by decide +kernel

def linked : State := { live with he0 := { Endpoint.reset with speed := 5, memSpace := true }, he1 := { Endpoint.reset with speed := 5, memSpace := true } }

/-- `FlaskPages`: a flask bound to HE0, and one that is FREE. -/
theorem witness_flask_pages : linked.phase.serves = true ∧ epOf .he0 = some 0 ∧ linked.pageLive 0 0 = true ∧
    linked.pageLive 0 1 = false ∧ linked.reaches 0 = true ∧ linked.arrives .he0 = true ∧ (linked.ep 0).inq = [] := by decide +kernel

/-- R268: `FP.ID` of page 0 is LIVE, and `FP.SIZE` counts clusters in [12:0] and granules in [29:16]. -/
theorem test_flask_page_read :
    (left (.registerReadClear .he0 0x4000000) linked).map (·.out) = some [.value .he0 0x100] ∧
    (left (.registerReadClear .he0 0x400000C) linked).map (·.out) = some [.value .he0 0x20001] ∧
    (left (.registerReadClear .he1 0x400000C) linked).map (·.out) = some [.value .he1 0] := by decide +kernel

/-- `InstructionsKeepStores` and its like: an add is issued by a processor, is no firmware operation, and completes. -/
theorem witness_issue : (Instr.add p0 f0).issuedBy.isSome = true ∧ (Instr.add p0 f0).firmwareOp = false ∧
    (regs2 (int 1) (int 2)).mem.wf = true ∧ (left (.add p0 f0) (regs2 (int 1) (int 2))).isSome = true := by decide +kernel

/-! ### The slowest: a whole mould -/

/-- What the control channel reads of the staging area is the mould, and nothing changes. -/
theorem staging_reads : (castable.hubRead 0x100 .hub stagingBase 832).1 = smallMould ∧
    (castable.hubRead 0x100 .hub stagingBase 832).2.2 = .ok ∧
    (castable.hubRead 0x100 .hub stagingBase 832).2.1 = castable := by decide +kernel

/-- `MouldIsVerified`: staging passes its first check, and reads without an error; a copy kept from an earlier turn. -/
theorem witness_verified :
    let s := castable
    let head := s.mem.bytes stagingBase 16
    let n := fieldAt head 12 4
    s.fw.castCopy = none ∧ s.castCheck1 head (leNat (s.mem.bytes (stagingBase + n - 128) 4)) = none ∧
    (s.hubRead 0x100 .hub stagingBase n).2.2 = .ok ∧ (s.mouldKey 0).isSome = true ∧ live.castCheck1 [] 0 = some St.malformed ∧
    ({ s with fw := { s.fw with castCopy := some (5, smallMould) } } : State).fw.castCopy = some (5, smallMould) := by
  have h : fieldAt (castable.mem.bytes stagingBase 16) 12 4 = 832 := by decide +kernel
  simp only [h, staging_reads.2.1]
  decide +kernel

/-- `CastSucceeds`, `CastRefused` and `CastsTakeTurns`: a mould that passes every check, with cluster 0 taken, in the copy of an earlier
turn. -/
theorem witness_cast :
    let s : State := { castable with fw := { castable.fw with castCopy := some (0x21, smallMould) } }
    let c := Container.read smallMould
    (∀ signed, (s.readTrip (.mouldRoot 0)).takeMould 0x21 signed = (s, .ok c)) ∧ s.verifies 0x21 = true ∧
    ({ s with fw := { s.fw with down := [.security] } } : State).verifies 0x22 = false ∧ (s.flask 0).st = .empty ∧ c.check s 0 = .ok 0 ∧
    c.isPartial = false ∧ (s.flask 0).ingot = false ∧ (c.clustersAfter 0).Nodup ∧ coreAt (c.clustersAfter 0) 3 = some 0x503 ∧
    ((c.mouldAfter (s.flask 0)).segts.any fun g => g.covers 3) = true ∧ (s.core (.core 0x503)).failed = false := by
  refine ⟨fun _ => rfl, ?_⟩
  decide +kernel

/-- `CastRefused`: the same mould with a reserved bit set is malformed. -/
theorem witness_cast_refused :
    (Container.read (smallMould.set 0x36 1)).check castable 0 = .bad St.malformed nowhere := by decide +kernel


end Sys2Proof.Tests
end

section
/-!
The frame of the processors' instructions: the keys, the owner, the twin, the drives, the transport, the ingots and the queue.
-/

namespace Sys2Proof.Machine

/-- What no program's instruction reaches. -/
def State.guarded (s : State) : Sec × Own × Twin × Stor × Xport × Ingots × List Instr :=
  (s.sec, s.own, s.twin, s.stor, s.xport, s.ing, s.pending)

variable {s : State}

theorem State.guarded_eq_iff {s t : State} : t.guarded = s.guarded ↔
    t.sec = s.sec ∧ t.own = s.own ∧ t.twin = s.twin ∧ t.stor = s.stor ∧ t.xport = s.xport ∧ t.ing = s.ing ∧
      t.pending = s.pending := by
  simp only [State.guarded, Prod.mk.injEq]

/-- An update of any of the other fields is none of these. -/
@[simp] theorem State.guarded_mk (s : State) (fresh out regs cores fwCores clusters fab mem flasks fw live0 live1 he0 he1 phase net scor
    fills asks rst bg refs) :
    State.guarded ⟨s.pending, fresh, out, regs, cores, fwCores, clusters, fab, mem, flasks, fw, live0, live1, he0, he1, s.own, phase, net,
      s.xport, s.stor, scor, fills, asks, s.sec, s.twin, s.ing, rst, bg, refs⟩ = s.guarded := rfl

/-! ### Writes of one table -/

@[simp] theorem State.guarded_setCore (p : Proc) (c : Core) : (s.setCore p c).guarded = s.guarded := by simp [State.guarded]
@[simp] theorem State.guarded_setFlask (f : FlaskId) (v : Flask) : (s.setFlask f v).guarded = s.guarded := rfl
@[simp] theorem State.guarded_setReg (off : Nat) (v : Word) : (s.setReg off v).guarded = s.guarded := rfl
@[simp] theorem State.guarded_count (off : Nat) : (s.count off).guarded = s.guarded := rfl
@[simp] theorem State.guarded_setCluster (cl : ClusterId) (c : Cluster) : (s.setCluster cl c).guarded = s.guarded := rfl
@[simp] theorem State.guarded_emit (o : Out) : (s.emit o).guarded = s.guarded := rfl
@[simp] theorem State.guarded_took : s.took.guarded = s.guarded := rfl
@[simp] theorem State.guarded_tick (d : Nat) : (s.tick d).guarded = s.guarded := rfl
@[simp] theorem State.guarded_setEp (e : Ep) (v : Endpoint) : (s.setEp e v).guarded = s.guarded := by simp [State.guarded]
@[simp] theorem State.guarded_setLadle (l : LadleRef) (v : Ladle) : (s.setLadle l v).guarded = s.guarded := by simp [State.guarded]
@[simp] theorem State.guarded_setBox (l : LadleRef) (b : EventBox) : (s.setBox l b).guarded = s.guarded := by simp [State.guarded]
@[simp] theorem State.guarded_breakResv (line : Nat) (x : Option Proc) : (s.breakResv line x).guarded = s.guarded := rfl
@[simp] theorem State.guarded_wakeWith (w : Waiter) (r : Reply) : (s.wakeWith w r).guarded = s.guarded := rfl
@[simp] theorem State.guarded_hubCount (event inst n : Nat) : (s.hubCount event inst n).guarded = s.guarded := rfl
@[simp] theorem State.guarded_modCore (p : Proc) (f : Core → Core) : (s.modCore p f).guarded = s.guarded := State.guarded_setCore ..

/-- A fold of steps that keep a state's guarded part keeps it. -/
theorem guarded_foldl {β : Type} {f : State → β → State} (hf : ∀ s b, (f s b).guarded = s.guarded) (l : List β) (s : State) :
    (l.foldl f s).guarded = s.guarded := by
  induction l generalizing s with
  | nil => rfl
  | cons b l ih => rw [List.foldl_cons, ih, hf]

/-! ### Events -/

@[simp] theorem State.guarded_raiseMsix (e : Ep) (entry : Nat) : (s.raiseMsix e entry).guarded = s.guarded := by
  unfold State.raiseMsix; dsimp only; split <;> simp

@[simp] theorem State.guarded_sendNote (e : Ep) : (s.sendNote e).guarded = s.guarded := by simp [State.sendNote]

@[simp] theorem State.guarded_notifyOwner : s.notifyOwner.guarded = s.guarded := by
  unfold State.notifyOwner
  split
  · rfl
  · dsimp only; (repeat' split) <;> simp

@[simp] theorem State.guarded_logMem (memory : Nat) (ue poison : Bool) (src : Src) (fa : Nat) :
    (s.logMem memory ue poison src fa).guarded = s.guarded := rfl

@[simp] theorem State.guarded_replaceCw (a : Nat) (src : Src) : (s.replaceCw a src).guarded = s.guarded := by
  unfold State.replaceCw; split <;> simp

@[simp] theorem State.guarded_noteFill (f : FlaskId) (r : ScorRec) (a n : Nat) : (s.noteFill f r a n).guarded = s.guarded := by
  unfold State.noteFill; dsimp only; split <;> rfl

@[simp] theorem State.guarded_noteAsk (f : FlaskId) (r : ScorRec) (a : Nat) (bs : List Byte) :
    (s.noteAsk f r a bs).guarded = s.guarded := by
  unfold State.noteAsk; dsimp only; (repeat' split) <;> rfl

@[simp] theorem State.guarded_noteWrite (fa : Nat) (bs : List Byte) : (s.noteWrite fa bs).guarded = s.guarded := by
  unfold State.noteWrite
  dsimp only
  split
  · rfl
  · exact guarded_foldl (fun _ _ => by simp) _ _

@[simp] theorem State.guarded_wholeLine (fa : Nat) (bs : List Byte) (src : Src) : (s.wholeLine fa bs src).guarded = s.guarded := by
  simp [State.wholeLine]

@[simp] theorem State.guarded_writeLp (dom : Domain) (a : Nat) (bs : List Byte) : (s.writeLp dom a bs).guarded = s.guarded := by
  unfold State.writeLp
  refine guarded_foldl (fun s x => ?_) _ _
  split
  · rfl
  · dsimp only; (repeat' split) <;> simp

@[simp] theorem State.guarded_signal (l : LadleRef) (quiet : Bool) : (s.signal l quiet).guarded = s.guarded := by
  unfold State.signal; dsimp only; (repeat' split) <;> simp

@[simp] theorem State.guarded_putEntry (l : LadleRef) (e : Entry) : (s.putEntry l e).guarded = s.guarded := by
  unfold State.putEntry; cases l <;> simp

@[simp] theorem State.guarded_tap (n : Nat) (flask : Domain) : (s.tap n flask).guarded = s.guarded := by
  unfold State.tap State.tapBy; split <;> rfl

@[simp] theorem State.guarded_reportLost (l : LadleRef) : (s.reportLost l).guarded = s.guarded := by
  unfold State.reportLost; dsimp only; split <;> simp

@[simp] theorem State.guarded_deliver (l : LadleRef) (e : Entry) : (s.deliver l e).guarded = s.guarded := by
  unfold State.deliver; dsimp only; (repeat' split) <;> simp

@[simp] theorem State.guarded_postFlask (f : FlaskId) (code : BitVec 16) (status : Status) (src : Nat) (result : List Byte) :
    (s.postFlask f code status src result).guarded = s.guarded := by
  unfold State.postFlask; dsimp only; split <;> simp

@[simp] theorem State.guarded_postOwner (code : BitVec 16) (status : Status) (src : Nat) (result : List Byte) :
    (s.postOwner code status src result).guarded = s.guarded := by simp [State.postOwner]

@[simp] theorem State.guarded_postDom (d : Domain) (code : BitVec 16) (status : Status) (src : Nat) (result : List Byte) :
    (s.postDom d code status src result).guarded = s.guarded := by
  unfold State.postDom; split <;> simp

@[simp] theorem State.guarded_wakeSys (p : Proc) : (s.wakeSys p).guarded = s.guarded := by
  unfold State.wakeSys; dsimp only; split <;> simp

@[simp] theorem State.guarded_postCluster (cl : ClusterId) (d : Domain) (code : BitVec 16) (status : Status) (result : List Byte) :
    (s.postCluster cl d code status result).guarded = s.guarded := by
  unfold State.postCluster; dsimp only; (repeat' split) <;> simp

/-! ### Accesses at their homes -/

@[simp] theorem State.guarded_noteUe (memory : Nat) (poison : Bool) (src : Src) (fa : Nat) :
    (s.noteUe memory poison src fa).guarded = s.guarded := by simp [State.noteUe]

@[simp] theorem State.guarded_meetCe (memory : Nat) (src : Src) (fa : Nat) : (s.meetCe memory src fa).guarded = s.guarded := rfl

@[simp] theorem State.guarded_scrubWord (src : Src) (k : Nat) : (s.scrubWord src k).guarded = s.guarded := by
  unfold State.scrubWord; split <;> simp

@[simp] theorem State.guarded_scrubCw (src : Src) (a : Nat) : (s.scrubCw src a).guarded = s.guarded := by
  unfold State.scrubCw; split <;> simp

@[simp] theorem State.guarded_scrubLine (src : Src) (fa : Nat) : (s.scrubLine src fa).guarded = s.guarded := by
  unfold State.scrubLine
  dsimp only
  split
  · simp
  · exact guarded_foldl (fun _ _ => by simp) _ _

@[simp] theorem State.guarded_noSpare (fa : Nat) : (s.noSpare fa).guarded = s.guarded := by
  unfold State.noSpare; dsimp only; (repeat' split) <;> rfl

@[simp] theorem State.guarded_repair (r : Repair) : (s.repair r).guarded = s.guarded := by
  unfold State.repair; (repeat' split) <;> simp

@[simp] theorem State.guarded_markLine (src : Src) (fa : Nat) : (s.markLine src fa).guarded = s.guarded := by
  unfold State.markLine State.softRepair; dsimp only; (repeat' split) <;> simp

@[simp] theorem State.guarded_meetUe (memory : Nat) (poison : Bool) (src : Src) (fa : Nat) :
    (s.meetUe memory poison src fa).guarded = s.guarded := by
  unfold State.meetUe; split <;> simp

@[simp] theorem State.guarded_readWord (k : Nat) (src : Src) (ecc : EccReport) : (s.readWord k src ecc).2.2.guarded = s.guarded := by
  unfold State.readWord; dsimp only; (repeat' split) <;> simp

@[simp] theorem State.guarded_readCode (a : Nat) (src : Src) (ecc : EccReport) : (s.readCode a src ecc).2.guarded = s.guarded := by
  unfold State.readCode; dsimp only; (repeat' split) <;> simp

@[simp] theorem State.guarded_readCw (a n : Nat) (src : Src) (ecc : EccReport) : (s.readCw a n src ecc).2.2.guarded = s.guarded :=
  State.guarded_readCode ..

@[simp] theorem State.guarded_lineWrite (fa : Nat) (bs : List Byte) (src : Src) (ecc : EccReport) :
    (s.lineWrite fa bs src ecc).1.guarded = s.guarded := by
  unfold State.lineWrite; dsimp only; (repeat' split) <;> simp

@[simp] theorem State.guarded_replaceWord (k : Nat) (w : TWord) (src : Src) (ecc : EccReport) :
    (s.replaceWord k w src ecc).guarded = s.guarded := by
  unfold State.replaceWord; dsimp only; (repeat' split) <;> simp

@[simp] theorem State.guarded_partWord (fa : Nat) (bs : List Byte) (tag : Tag → Tag) (src : Src) (ecc : EccReport) :
    (s.partWord fa bs tag src ecc).1.guarded = s.guarded := by
  unfold State.partWord; dsimp only; split <;> simp

@[simp] theorem State.guarded_ownResv (p : Proc) (line : Nat) : (s.ownResv p line).guarded = s.guarded := by
  unfold State.ownResv; dsimp only; split <;> simp

@[simp] theorem State.guarded_wakeTally (fa : Nat) : (s.wakeTally fa).guarded = s.guarded := by
  unfold State.wakeTally
  dsimp only
  split
  · rfl
  · rw [guarded_foldl (fun _ _ => by simp)]; simp

@[simp] theorem State.guarded_wrote (fa : Nat) (except : Option Proc) : (s.wrote fa except).guarded = s.guarded := by
  simp [State.wrote]

@[simp] theorem State.guarded_mixed (fa : Nat) (w : TWord) : (s.mixed fa w).1.guarded = s.guarded := by
  unfold State.mixed; split <;> simp

@[simp] theorem State.guarded_homeLoad (fa : Nat) (src : Src) (ecc : EccReport) : (s.homeLoad fa src ecc).1.guarded = s.guarded := by
  unfold State.homeLoad; dsimp only; (repeat' split) <;> simp

@[simp] theorem State.guarded_homeStore (fa n : Nat) (v : TWord) (src : Src) (ecc : EccReport) :
    (s.homeStore fa n v src ecc).1.guarded = s.guarded := by
  unfold State.homeStore; dsimp only; (repeat' split) <;> simp

@[simp] theorem State.guarded_homeTas (who : Proc) (fa : Nat) (src : Src) (ecc : EccReport) :
    (s.homeTas who fa src ecc).1.guarded = s.guarded := by
  have hload := (s.ownResv who (fa / 64)).guarded_homeLoad fa src ecc
  rw [State.guarded_ownResv] at hload
  unfold State.homeTas
  dsimp only
  split
  · rfl
  split
  · simp
  split
  · next t w e =>
    rw [e] at hload
    have hstore := t.guarded_homeStore fa 4 ⟨1, Tag.int⟩ src .stored
    split
    · split
      · next e' => rw [e'] at hstore; exact hstore.trans hload
      · exact hstore.trans hload
    · exact hload
  · exact hload

@[simp] theorem State.guarded_setResv (p : Proc) (fa : Nat) : (s.setResv p fa).guarded = s.guarded := State.guarded_modCore ..

@[simp] theorem State.guarded_homeScond (p : Proc) (fa : Nat) (v : TWord) (src : Src) (ecc : EccReport) :
    (s.homeScond p fa v src ecc).1.guarded = s.guarded := by
  unfold State.homeScond; dsimp only; (repeat' split) <;> simp

@[simp] theorem State.guarded_coreLoad (p : Proc) (fa : Nat) : (s.coreLoad p fa).1.guarded = s.guarded := by
  unfold State.coreLoad; dsimp only; split <;> simp

/-! ### Block moves -/

@[simp] theorem State.guarded_moveLine (dom : Domain) (a : Nat) (deftag : Tag) : (s.moveLine dom a deftag).2.guarded = s.guarded := by
  have hwords (fa : Nat) (l : List Nat) (r : List TWord × Bool × State) :
      (l.foldl (fun (r : List TWord × Bool × State) i =>
        let w := r.2.2.readWord (fa / 4 + i) .move .stored
        let t := if w.1.tag = Tag.lock ∨ w.1.tag = Tag.token then Tag.raw else w.1.tag
        ((r.1 ++ [(⟨w.1.payload, t⟩ : TWord)], (r.2.1 || w.2.1), w.2.2) : List TWord × Bool × State)) r).2.2.guarded =
      r.2.2.guarded := by
    induction l generalizing r with
    | nil => rfl
    | cons i l ih => rw [List.foldl_cons, ih]; simp
  unfold State.moveLine
  dsimp only at hwords ⊢
  (repeat' split) <;> simp [hwords]

theorem State.guarded_putLine {who : OutWho} {dom : Domain} {a : Nat} {ws : List TWord} {t : State}
    (h : s.putLine who dom a ws = some t) : t.guarded = s.guarded := by
  unfold State.putLine at h
  dsimp only at h
  split at h
  · cases h; simp
  · split at h
    · cases h
    · split at h
      · cases h
      · split at h
        · cases h; simp
        · split at h
          · cases h
          · cases h
            rw [guarded_foldl (fun _ _ => by simp), State.guarded_breakResv, guarded_foldl (fun _ _ => by simp)]

/-- A line of a move leaves the state that it makes, and the one that it leaves where it fails. -/
theorem State.guarded_moveOne (who : Nat → OutWho) (m : Move) (i : Nat) :
    (s.moveOne who m i).2.guarded = s.guarded ∧ ∀ t, (s.moveOne who m i).1 = some t → t.guarded = s.guarded := by
  have hread := s.guarded_moveLine m.sdom (m.src.toNat + 64 * i) m.deftag
  unfold State.moveOne
  cases m.data with
  | some bs => exact ⟨rfl, fun _ h => State.guarded_putLine h⟩
  | none =>
    dsimp only
    generalize s.moveLine m.sdom (m.src.toNat + 64 * i) m.deftag = r at hread ⊢
    obtain ⟨o, u⟩ := r
    cases o with
    | none => exact ⟨hread, fun _ h => by cases h⟩
    | some ws => exact ⟨hread, fun _ h => (State.guarded_putLine h).trans hread⟩

theorem State.guarded_moveLines (who : Nat → OutWho) (m : Move) (i n : Nat) : (s.moveLines who m i n).1.guarded = s.guarded := by
  induction n generalizing s i with
  | zero => rfl
  | succ n ih =>
    obtain ⟨hstop, hgo⟩ := s.guarded_moveOne who m i
    unfold State.moveLines
    split
    · next t _ h => rw [ih, hgo t (by rw [h])]
    · next t h => rw [h] at hstop; exact hstop

@[simp] theorem State.guarded_runMove (p : Proc) (slot : BitVec 2) (m : Move) : (s.runMove p slot m).guarded = s.guarded := by
  simp [State.runMove, State.endMove, State.guarded_moveLines]

@[simp] theorem State.guarded_flushMoves (p : Proc) (path : Nat) : (s.flushMoves p path).guarded = s.guarded :=
  guarded_foldl (fun _ _ => by split <;> simp) _ _

@[simp] theorem State.guarded_beforeWrite (p : Proc) (fa : Nat) : (s.beforeWrite p fa).guarded = s.guarded := by
  unfold State.beforeWrite State.noteStore; dsimp only; split <;> simp

/-! ### Traps and issue -/

@[simp] theorem State.guarded_markWaiters (fa : Nat) : (s.markWaiters fa).guarded = s.guarded := by
  unfold State.markWaiters; dsimp only; split <;> simp

@[simp] theorem State.guarded_mapClusters (f : Cluster → Cluster) : (s.mapClusters f).guarded = s.guarded :=
  guarded_foldl (fun _ _ => by simp) _ _

@[simp] theorem State.guarded_endWait (p : Proc) : (s.endWait p).guarded = s.guarded := by
  unfold State.endWait
  dsimp only
  split
  · rfl
  · rw [guarded_foldl (fun _ _ => by simp)]; simp

@[simp] theorem State.guarded_loseLocks (p : Proc) : (s.loseLocks p).guarded = s.guarded := by
  unfold State.loseLocks; split <;> simp

@[simp] theorem State.guarded_stopCore (p : Proc) (vector : Byte) (status : Status) :
    (s.stopCore p vector status).guarded = s.guarded := by
  unfold State.stopCore; dsimp only; split <;> simp

@[simp] theorem State.guarded_takeTrap (p : Proc) (t : TrapInfo) : (s.takeTrap p t).guarded = s.guarded := by
  unfold State.takeTrap; dsimp only; (repeat' split) <;> simp

@[simp] theorem State.guarded_retire (p : Proc) (pc event : Nat) : (s.retire p pc event).guarded = s.guarded :=
  State.guarded_modCore ..

@[simp] theorem State.guarded_fetchTrap (p : Proc) (i : Nat) : (s.fetchTrap p i).2.guarded = s.guarded := by
  unfold State.fetchTrap State.fetch; dsimp only; (repeat' split) <;> simp

@[simp] theorem State.guarded_fetchAhead (p : Proc) (i : Nat) : (s.fetchAhead p i).guarded = s.guarded := State.guarded_setCore ..

/-- The state that the body of an instruction answers with. -/
def Body.state : Body → State
  | .ok s | .jump s _ | .trap s _ | .wait s _ => s

@[simp] theorem Body.state_ok (s : State) : (Body.ok s).state = s := rfl
@[simp] theorem Body.state_jump (s : State) (pc : Nat) : (Body.jump s pc).state = s := rfl
@[simp] theorem Body.state_trap (s : State) (t : TrapInfo) : (Body.trap s t).state = s := rfl
@[simp] theorem Body.state_wait (s : State) (w : Wait) : (Body.wait s w).state = s := rfl

@[simp] theorem State.guarded_settle (p : Proc) (len : Nat) (b : Body) : (s.settle p len b).guarded = b.state.guarded := by
  cases b <;> simp [State.settle]

/-- The body of an instruction keeps the guarded part of the state in which it runs. -/
def Guards (body : State → Body) : Prop := ∀ s, (body s).state.guarded = s.guarded

/-- What a processor that reaches an instruction does keeps what the instruction's body keeps. -/
theorem State.guarded_issue (p : Proc) (cond : BitVec 4) (legal : Bool) (flow : Flow) {body : State → Body} (h : Guards body) :
    (s.issue p cond legal flow body).guarded = s.guarded := by
  have hsnd (t : State) (i : Nat) : ((if flow = .call then t.fetchTrap p i else (none, t)) : Option TrapInfo × State).2.guarded =
      t.guarded := by split <;> simp
  have hfst := s.guarded_fetchTrap p (s.core p).a.pc
  unfold State.issue
  dsimp only
  split
  · rfl
  split
  · simp
  split
  · simp
  split
  · next e => rw [e] at hfst; simpa using hfst
  next t e =>
  rw [e] at hfst
  have hsnd := hsnd t ((s.core p).a.pc + 1)
  split
  · next e => rw [e] at hsnd; simpa using hsnd.trans hfst
  next u e =>
  rw [e] at hsnd
  (repeat' split) <;> simpa [h _] using hsnd.trans hfst

end Sys2Proof.Machine
end

section
/-!
Each class of instructions keeps the guarded part of the state: one lemma for each body that instructions share.
-/

namespace Sys2Proof.Machine

variable {s : State}

/-- What an answer that goes on leaves of the guarded part. -/
def Stays (s : State) (o : Answer) : Prop := ∀ t, o = .next t → t.guarded = s.guarded

theorem stays_next {t : State} (h : t.guarded = s.guarded) : Stays s (.next t) := by
  rintro _ ⟨⟩; exact h

/-- An instruction that is the issue of a body. -/
theorem stays_issue {p : Proc} {cond : BitVec 4} {legal : Bool} {flow : Flow} {body : State → Body} (h : Guards body) :
    Stays s (.next (s.issue p cond legal flow body)) := stays_next (State.guarded_issue p cond legal flow h)

/-! ### Classes 0x0 to 0x4 -/

theorem stays_aluR {p : Proc} {f : AluR} {rule : TWord → TWord → Except TrapInfo Tag} {op : Word → Word → Stat → Word × FlagSet} :
    Stays s (aluR p f rule op s) := stays_issue fun s => by dsimp only; split <;> simp [writeResult]

theorem stays_aluU {p : Proc} {f : AluR} {op : Word → Word × FlagSet} : Stays s (aluU p f op s) :=
  stays_issue fun s => by dsimp only; split <;> simp [writeResult]

theorem stays_aluI {p : Proc} {f : AluI} {imm : Word} {rule : TWord → TWord → Except TrapInfo Tag}
    {op : Word → Word → Word × FlagSet} : Stays s (aluI p f imm rule op s) :=
  stays_issue fun s => by dsimp only; split <;> simp [writeResult]

theorem stays_fpOp {p : Proc} {f : FpF} {ops : Core → List TWord} {want res : Tag} {op : Core → Word × FFlags} :
    Stays s (fpOp p f ops want res op s) := stays_issue fun s => by dsimp only; split <;> simp

theorem stays_fp1 {p : Proc} {f : FpF} {want res : Tag} {op : Word → Word × FFlags} : Stays s (fp1 p f want res op s) :=
  stays_fpOp

theorem stays_fp2 {p : Proc} {f : FpF} {want res : Tag} {op : Word → Word → Word × FFlags} : Stays s (fp2 p f want res op s) :=
  stays_fpOp

/-! ### Loads, stores and atomics -/

@[simp] theorem State.guarded_sendReq (p : Proc) (d : Desc) (seg : BitVec 3) (off : Int) (fa : Nat) (posted : Bool) (op : MemOp) :
    (s.sendReq p d seg off fa posted op).guarded = s.guarded := by
  unfold State.sendReq; dsimp only; split <;> simp

theorem guards_loadBody {p : Proc} {i : Instr} {f : MemF} {disp : Int} {size : Nat} {need : Need} {op : MemOp}
    {done : Nat → Bool → TWord → State → Body} (h : ∀ fa lost w, Guards (done fa lost w)) :
    Guards (loadBody p i f disp size need op done) := by
  intro s
  unfold loadBody
  split
  · rfl
  split
  · rfl
  next off pl _ =>
  have hload := s.guarded_coreLoad p pl.fa
  split
  · split <;> next e => rw [e] at hload; rw [h]; exact hload
  · simp

theorem guards_ldDone {p : Proc} {f : MemF} {fa : Nat} {w : TWord} : Guards (ldDone p f fa w) := fun s => by simp [ldDone]

theorem guards_ldcDone {p : Proc} {f : MemF} {fa : Nat} {w : TWord} : Guards (ldcDone p f fa w) := fun s => by
  unfold ldcDone; dsimp only; split <;> simp

theorem guards_ldsubDone {p : Proc} {f : MemF} {fa : Nat} {lost : Bool} {w : TWord} : Guards (ldsubDone p f fa lost w) :=
  fun s => by simp [ldsubDone]

theorem guards_storeBody {p : Proc} {i : Instr} {f : MemF} {disp : Int} {n : Nat} : Guards (storeBody p i f disp n) := by
  intro s
  unfold storeBody localStore
  dsimp only
  (repeat' split) <;> simp

theorem guards_tasDone {p : Proc} {f : MemF} {fa : Nat} {old : TWord} {z : Bool} : Guards (tasDone p f fa old z) :=
  fun s => by simp [tasDone]

theorem guards_tasBody {p : Proc} {f : MemF} : Guards (tasBody p f) := by
  intro s
  unfold tasBody
  split
  · rfl
  split
  · rfl
  next off pl _ =>
  have htas := (s.beforeWrite p pl.fa).guarded_homeTas p pl.fa .core .stored
  rw [State.guarded_beforeWrite] at htas
  split
  · rfl
  split
  · split
    · rfl
    · split <;> next e => rw [e] at htas; simpa [guards_tasDone _] using htas
  · simp

theorem guards_scondDone {p : Proc} {f : MemF} {ok : Bool} : Guards (scondDone p f ok) := fun s => by simp [scondDone]

theorem guards_scondBody {p : Proc} {f : MemF} : Guards (scondBody p f) := by
  intro s
  unfold scondBody
  dsimp only
  split
  · rfl
  split
  · rfl
  next off pl _ =>
  have hcond := (s.beforeWrite p pl.fa).guarded_homeScond p pl.fa ((s.core p).reg (scondRs f)) .core .stored
  rw [State.guarded_beforeWrite] at hcond
  split
  · rfl
  split
  · split
    · rfl
    · split <;> next e => rw [e] at hcond; simpa [guards_scondDone _] using hcond
  · simp

/-! ### Branches, calls and returns -/

@[simp] theorem state_branchTo (p : Proc) (s : State) (t : Int) : (branchTo p s t).state = s := by
  unfold branchTo; split <;> rfl

/-- The state that the stores of a call leave, whether one of them traps or none. -/
def storesLeave : Except (State × TrapInfo) (State × Nat) → State
  | .error x => x.1
  | .ok x => x.1

@[simp] theorem guarded_callStores (p : Proc) (sp : Int) (n : Nat) (ws : List TWord) (s : State) :
    (storesLeave (callStores p s sp n ws)).guarded = s.guarded := by
  induction ws generalizing s sp n with
  | nil => rfl
  | cons w ws ih =>
    unfold callStores
    dsimp only
    split
    · rfl
    split
    · rfl
    next pl _ =>
    have hstore := (s.beforeWrite p pl.fa).guarded_homeStore pl.fa 4 w .core .stored
    rw [State.guarded_beforeWrite] at hstore
    split
    · split
      · next e => rw [e] at hstore; exact hstore
      · next e => rw [e] at hstore; exact (ih ..).trans hstore
    · rw [ih]; simp

@[simp] theorem State.guarded_withdraw (p : Proc) : (s.withdraw p).guarded = s.guarded := rfl

theorem guards_callDone {p : Proc} {f : CallF} : Guards (callDone p f) := fun s => by simp [callDone]

theorem guards_callBody {p : Proc} {f : CallF} : Guards (callBody p f) := by
  intro s
  have hstores := guarded_callStores p (segOff ((s.core p).reg 14).payload false 0) 0 (callWords (s.core p) f.mask) s
  unfold callBody
  dsimp only
  split
  · rfl
  split
  · rfl
  split
  · rfl
  split
  · next e => rw [e] at hstores; exact hstores
  · next e => rw [e] at hstores; exact (guards_callDone _).trans hstores
  · next e => rw [e] at hstores; exact hstores

theorem guards_retDone {p : Proc} {got : List TWord} : Guards (retDone p got) := fun s => by
  unfold retDone; dsimp only; split <;> simp

theorem guards_retNext {p : Proc} {f : JmpF} {got : List TWord} {sp : Int} {fuel : Nat}
    (ih : ∀ got, Guards fun s => retLoads p f got s fuel) : Guards fun s => retLoads.retNext p f got s sp fuel := by
  intro s
  dsimp only
  unfold retLoads.retNext
  dsimp only
  split
  · rfl
  split
  · rfl
  next pl _ =>
  have hload := s.guarded_coreLoad p pl.fa
  split
  · split <;> next e => rw [e] at hload; exact (ih _ _).trans hload
  · simp

theorem guards_retLoads {p : Proc} {f : JmpF} (fuel : Nat) : ∀ got, Guards fun s => retLoads p f got s fuel := by
  induction fuel with
  | zero => intro got s; dsimp only; unfold retLoads; exact guards_retDone s
  | succ fuel ih =>
    intro got s
    have hgo (c : Prop) [Decidable c] (got : List TWord) (sp : Int) :
        (if c then retDone p got s else retLoads.retNext p f got s sp fuel).state.guarded = s.guarded := by
      split
      · exact guards_retDone s
      · exact guards_retNext ih s
    dsimp only
    unfold retLoads
    dsimp only
    split
    · split
      · rfl
      · exact hgo ..
    · exact hgo ..

/-! ### Ports and synchronisation -/

@[simp] theorem State.guarded_takeWord (p : Proc) (q : Port) : (s.takeWord p q).guarded = s.guarded := by
  unfold State.takeWord; dsimp only; (repeat' split) <;> simp

@[simp] theorem State.guarded_sendWord (p : Proc) (q : Port) (w : TWord) : (s.sendWord p q w).guarded = s.guarded := by
  unfold State.sendWord; dsimp only; split <;> simp

theorem guards_recvBody {p : Proc} {f : StrF} : Guards (recvBody p f) := fun s => by
  unfold recvBody; split <;> simp

theorem guards_sendBody {p : Proc} {f : StrF} : Guards (sendBody p f) := fun s => by
  unfold sendBody; dsimp only; (repeat' split) <;> simp

theorem guards_waitanyBody {p : Proc} {f : StrF} : Guards (waitanyBody p f) := fun s => by
  unfold waitanyBody; split <;> simp

theorem guards_syncBody {p : Proc} {i : Instr} {f : SyncF} {kind : SyncKind} : Guards (syncBody p i f kind) := fun s => by
  unfold syncBody; dsimp only; (repeat' split) <;> simp

theorem guards_fenceBody {p : Proc} {f : SyncF} : Guards (fenceBody p f) := fun s => by
  unfold fenceBody; split <;> rfl

/-! ### Engines -/

theorem State.guarded_pullOne {p : Proc} {q : Port} {t : State} (h : s.pullOne p q = some t) : t.guarded = s.guarded := by
  unfold State.pullOne at h
  dsimp only at h
  split at h
  · cases h; simp
  · cases h

@[simp] theorem State.guarded_pullPort (p : Proc) (q : Port) (n : Nat) : (s.pullPort p q n).guarded = s.guarded := by
  induction n generalizing s with
  | zero => rfl
  | succ n ih =>
    unfold State.pullPort
    split
    · rfl
    · next h => exact ih.trans (State.guarded_pullOne h)

@[simp] theorem State.guarded_pull (p : Proc) : (s.pull p).guarded = s.guarded := guarded_foldl (fun _ _ => by simp) _ _

theorem State.guarded_enqueue {p : Proc} {e : BitVec 2} {op : EngOp} {t : State} (h : s.enqueue p e op = some t) :
    t.guarded = s.guarded := by
  unfold State.enqueue at h
  dsimp only at h
  split at h
  · cases h
  · cases h; simp

/-- The report of an engine's error. -/
theorem State.guarded_engReport {p : Proc} {es : List (BitVec 2)} {b : Body} (h : s.engReport p es = some b) :
    b.state.guarded = s.guarded := by
  induction es with
  | nil => cases h
  | cons e es ih =>
    unfold State.engReport at h
    dsimp only at h
    split at h
    · cases h; simp
    · exact ih h

theorem guards_engQueue {p : Proc} {i : Instr} {e : BitVec 2} {op : EngOp} : Guards (engQueue p i e op) := fun s => by
  unfold engQueue
  split
  · next h => exact State.guarded_engReport h
  split
  · next h => exact State.guarded_enqueue h
  · rfl

theorem guards_edotBody {p : Proc} {f : EdotF} : Guards (edotBody p f) := fun s => by
  unfold edotBody
  dsimp only
  split
  · rfl
  split
  · rfl
  · exact guards_engQueue s

theorem guards_packBody {p : Proc} {i : Instr} {f : PackF} {isPack : Bool} : Guards (packBody p i f isPack) := fun s => by
  unfold packBody
  dsimp only
  split
  · rfl
  split
  · split
    · next h => exact State.guarded_engReport h
    · rfl
  split
  · rfl
  · exact guards_engQueue s

/-- An instruction that reads idle engines. -/
theorem guards_engIdle {p : Proc} {i : Instr} {es : List (BitVec 2)} {done : State → Body} (h : Guards done) :
    Guards fun s => engIdle p i es s done := by
  intro s
  unfold engIdle
  dsimp only
  split
  · next e => exact State.guarded_engReport e
  split
  · rw [h]; simp
  · rfl

@[simp] theorem State.guarded_driftEvents (c : CoreId) (e : BitVec 2) (counter : Nat) (old new limit : Word) :
    (s.driftEvents c e counter old new limit).guarded = s.guarded := by
  unfold State.driftEvents
  split
  · rfl
  · exact guarded_foldl (fun _ _ => by simp) _ _

@[simp] theorem State.guarded_drift (p : Proc) (e : BitVec 2) (g g' : Engine) : (s.drift p e g g').guarded = s.guarded := by
  unfold State.drift; split <;> simp

theorem guards_erdBody {p : Proc} {f : ErdF} : Guards (erdBody p f) := guards_engIdle fun s => by simp

theorem guards_ewaitBody {p : Proc} {f : EwaitF} : Guards (ewaitBody p f) := guards_engIdle fun _ => rfl

theorem guards_edriftBody {p : Proc} {f : EdriftF} : Guards (edriftBody p f) := guards_engIdle fun s => by simp

/-! ### Classes 0xD and 0xE -/

theorem guards_bmvBody {p : Proc} {f : BmvF} : Guards (bmvBody p f) := fun s => by
  unfold bmvBody State.askMove; dsimp only; (repeat' split) <;> simp

theorem guards_bwaitBody {p : Proc} {f : BwaitF} : Guards (bwaitBody p f) := fun s => by
  unfold bwaitBody; dsimp only; (repeat' split) <;> simp

@[simp] theorem state_giveInt (p : Proc) (f : SysF) (s : State) (v : Word) :
    (giveInt p f s v).state = s.modCore p fun k => k.setReg f.rd ⟨v, Tag.int⟩ := rfl

theorem guards_withInt {p : Proc} {f : SysF} {body : Word → State → Body} (h : ∀ v, Guards (body v)) :
    Guards fun s => withInt p f s fun v => body v s := by
  intro s
  unfold withInt
  dsimp only
  split
  · rfl
  · exact h _ s

@[simp] theorem State.guarded_readPm (p : Proc) (i : BitVec 2) : (s.readPm p i).2.guarded = s.guarded := by
  unfold State.readPm; dsimp only; split <;> rfl

@[simp] theorem State.guarded_identity (p : Proc) (imm : Nat) : (s.identity p imm).2.guarded = s.guarded := by
  unfold State.identity; dsimp only; (repeat' split) <;> rfl

theorem guards_haltBody {p : Proc} {f : SysF} : Guards (haltBody p f) := fun s => by
  unfold haltBody; dsimp only; split <;> rfl

end Sys2Proof.Machine
end

section
/-!
No instruction of a program reaches the guarded part of the state.
-/

open Sys2Proof Sys2Proof.Machine

namespace Sys2Proof.Machine

/-- An instruction that a processor issues, firmware's own operations apart, keeps the guarded part of the state. -/
theorem exec_stays (i : Instr) (s : State) (hi : i.issuedBy.isSome = true) (hf : i.firmwareOp = false) : Stays s (exec i s) := by
  cases i
  all_goals unfold exec
  case add | sub | and | or | xor | andn | shl | shr | sar | rol | mul | mulhs | mulhu | divs | divu | rems | remu | min | max | minu |
      maxu | adc | sbc =>
    exact stays_aluR
  case clz | popc => exact stays_aluU
  case addi | andi | ori | xori | shli | shri | sari | muli => exact stays_aluI
  case mov | movi | movui | tcmp | tchk | tget | tset => exact stays_issue fun s => by simp
  case movhi | cmp | cmpi | fcmp | tsetr => exact stays_issue fun s => by dsimp only; split <;> simp
  case fadd | fsub | fmul | fmin | fmax | fdiv | fxadd | fxsub | fxmul => exact stays_fp2
  case fma => exact stays_fpOp
  case fneg | i2f | f2i | fx2f | f2fx | fsqrt => exact stays_fp1
  case ld => exact stays_issue (guards_loadBody fun _ _ _ => guards_ldDone)
  case ldc => exact stays_issue (guards_loadBody fun _ _ _ => guards_ldcDone)
  case ldsub => exact stays_issue (guards_loadBody fun _ _ _ => guards_ldsubDone)
  case lea => exact stays_issue fun s => by dsimp only; (repeat' split) <;> simp
  case st | stb | sth => exact stays_issue guards_storeBody
  case tas => exact stays_issue guards_tasBody
  case lres => exact stays_issue fun s => by dsimp only; (repeat' split) <;> simp
  case scond => exact stays_issue guards_scondBody
  case b => exact stays_issue fun s => by simp
  case bl p f =>
    refine stays_issue fun s => ?_
    have hbr := state_branchTo p s ((s.core p).a.pc + f.disp.toInt)
    dsimp only
    split
    · next e => rw [e] at hbr; simpa using congrArg State.guarded hbr
    · rw [hbr]
  case call => exact stays_issue guards_callBody
  case ret =>
    refine stays_issue fun s => ?_
    dsimp only
    split
    · rfl
    split
    · rfl
    · exact guards_retLoads 18 [] s
  case jr => exact stays_issue fun s => by dsimp only; (repeat' split) <;> rfl
  case recv => exact stays_issue guards_recvBody
  case rtry | peek => exact stays_issue fun s => by split <;> simp
  case send => exact stays_issue guards_sendBody
  case stry => exact stays_issue fun s => by dsimp only; (repeat' split) <;> simp
  case waitany => exact stays_issue guards_waitanyBody
  case pstat => exact stays_issue fun s => by simp
  case tdec | tinc | twait | barr | barw | lock | trylock | unlock => exact stays_issue guards_syncBody
  case fence => exact stays_issue guards_fenceBody
  case edot => exact stays_issue guards_edotBody
  case epack | emx => exact stays_issue guards_packBody
  case ezero => exact stays_issue guards_engQueue
  case erd => exact stays_issue guards_erdBody
  case ewait => exact stays_issue guards_ewaitBody
  case edrift => exact stays_issue guards_edriftBody
  case bmv => exact stays_issue guards_bmvBody
  case bwait => exact stays_issue guards_bwaitBody
  case rdref | rdrefh | rdsys | rdseg | rdid | tmclr | wdkick | trapret | ifence | raise | coreNop => exact stays_issue fun s => by simp
  case rdctr => exact stays_issue fun s => by dsimp only; split <;> simp
  case wrsys | tmset => exact stays_issue (guards_withInt fun v s => by simp)
  case halt => exact stays_issue guards_haltBody
  case sysPostEvent | sysRegRead | sysRegWrite | sysWriteDescriptor | sysCoreControl | sysHeartbeat | sysTapRecord | sysWait =>
    exact absurd hf.symm Bool.false_ne_true
  -- the ladle commands and the events, which no processor issues
  all_goals exact absurd hi Bool.false_ne_true

end Sys2Proof.Machine

namespace Sys2Proof

/-- Settles O59: an instruction is the issue of a body on its processor, and no body, trap or event that it posts writes the
security, ownership, twin, storage, transport or ingot state or the queue. -/
theorem instructionsReachOnlyCores : Obligations.InstructionsReachOnlyCores := by
  intro i s t hi hf h
  exact State.guarded_eq_iff.mp (exec_stays i s hi hf t h)

end Sys2Proof
end

section
/-!
The doorbells: what a ring of each kind does, which writes reach a ring, and that freeing a ring behind which nothing is held
writes nothing.
-/

open Sys2Proof Sys2Proof.Machine

namespace Sys2Proof.Machine

variable {s : State}

/-! ### A command doorbell's ring -/

theorem State.ringSq_equal (l : LadleRef) : s.ringSq l (s.ladle l).sqTail = s := by
  simp only [State.ringSq, if_true]

theorem State.ringSq_ahead {l : LadleRef} {x : Nat} (hne : x ≠ (s.ladle l).sqTail) (hin : x < (s.ladle l).sqSize)
    (hahead : ahead (s.ladle l).sqSize (s.ladle l).sqHead (s.ladle l).sqTail ≤ ahead (s.ladle l).sqSize (s.ladle l).sqHead x) :
    s.ringSq l x = (s.setLadle l { s.ladle l with sqTail := x }).wakeSys (.hub 2) := by
  simp only [State.ringSq, if_neg hne, if_neg (show ¬ (x ≥ (s.ladle l).sqSize ∨
    ahead (s.ladle l).sqSize (s.ladle l).sqHead x < ahead (s.ladle l).sqSize (s.ladle l).sqHead (s.ladle l).sqTail) by omega)]

theorem State.ringSq_astray {l : LadleRef} {x : Nat} (hne : x ≠ (s.ladle l).sqTail) (hbad : (s.ladle l).sqSize ≤ x ∨
      ahead (s.ladle l).sqSize (s.ladle l).sqHead x < ahead (s.ladle l).sqSize (s.ladle l).sqHead (s.ladle l).sqTail) :
    s.ringSq l x = (s.took.setLadle l { s.ladle l with sqTail := s.free.toNat % (s.ladle l).sqSize }).wakeSys (.hub 2) := by
  simp only [State.ringSq, if_neg hne, ge_iff_le, if_pos hbad]

/-! ### A completion doorbell's ring -/

theorem State.ringCq_equal (l : LadleRef) : s.ringCq l (s.ladle l).cqHead = s := by
  simp only [State.ringCq, if_true]

theorem State.ringCq_ahead {l : LadleRef} {x : Nat} (hne : x ≠ (s.ladle l).cqHead) (hin : x < (s.ladle l).cqSize)
    (hahead : ahead (s.ladle l).cqSize (s.ladle l).cqHead x ≤ ahead (s.ladle l).cqSize (s.ladle l).cqHead (s.ladle l).cqTail) :
    s.ringCq l x = ((s.setLadle l { s.ladle l with cqHead := x, raised := false }).ladleFreed l).wakeSys (.hub 2) := by
  have hright : (decide (x ≥ (s.ladle l).cqSize) || decide (ahead (s.ladle l).cqSize (s.ladle l).cqHead (s.ladle l).cqTail <
      ahead (s.ladle l).cqSize (s.ladle l).cqHead x)) = false := by
    simp only [Bool.or_eq_false_iff, decide_eq_false_iff_not]; omega
  simp only [State.ringCq, if_neg hne, hright, Bool.false_eq_true, if_false]

/-! ### What a doorbell's end leaves -/

@[simp] theorem State.wakeSys_mem (p : Proc) : (s.wakeSys p).mem = s.mem := by
  unfold State.wakeSys; dsimp only; split <;> simp
@[simp] theorem State.wakeSys_regs (p : Proc) : (s.wakeSys p).regs = s.regs := by
  unfold State.wakeSys; dsimp only; split <;> simp
@[simp] theorem State.wakeSys_fw (p : Proc) : (s.wakeSys p).fw = s.fw := by
  unfold State.wakeSys; dsimp only; split <;> simp
@[simp] theorem State.wakeSys_flasks (p : Proc) : (s.wakeSys p).flasks = s.flasks := by
  unfold State.wakeSys; dsimp only; split <;> simp

/-- A ladle is a matter of the firmware's state and the flasks. -/
theorem State.ladle_congr {s t : State} (hfw : t.fw = s.fw) (hfl : t.flasks = s.flasks) (l : LadleRef) : t.ladle l = s.ladle l := by
  cases l <;> simp only [State.ladle, State.flask, State.genStart, hfw, hfl]

@[simp] theorem State.ladle_wakeSys (p : Proc) (l : LadleRef) : (s.wakeSys p).ladle l = s.ladle l :=
  State.ladle_congr (State.wakeSys_fw p) (State.wakeSys_flasks p) l

@[simp] theorem State.box_setLadle (l : LadleRef) (v : Ladle) : (s.setLadle l v).box l = s.box l := by
  cases l <;> simp [State.box, State.setLadle]

/-- The `PAUSED` bit is no part of a ladle. -/
theorem State.ladle_setFlask_paused (f g : FlaskId) (n : BitVec 4) (b : Bool) :
    (s.setFlask f { s.flask f with paused := b }).ladle (.flask g n) = s.ladle (.flask g n) := by
  by_cases h : g = f
  · subst h; simp [State.ladle, State.genStart]
  · simp [State.ladle, State.genStart, State.flask_setFlask_ne _ _ h]

/-- Space freed in the admin ladle behind which nothing is held. -/
theorem State.ladleFreed_admin (hheld : s.fw.admin.held = []) (hbox : s.fw.box.held = []) : s.ladleFreed .admin = s := by
  simp only [State.ladleFreed, State.ladle, hheld, State.drainHeld, hbox, State.drainBox]

/-- Space freed in a flask's ladle behind which nothing is held: at most the `PAUSED` bit changes. -/
theorem State.ladleFreed_flask {f : FlaskId} {n : BitVec 4} (hheld : (s.ladle (.flask f n)).held = []) (hbox : (s.flask f).box.held = []) :
    s.ladleFreed (.flask f n) = s ∨ s.ladleFreed (.flask f n) = s.setFlask f { s.flask f with paused := false } := by
  have hdrain (t : State) (ht : (t.flask f).box.held = []) :
      (if n = 0 then t.drainBox (.flask f n) (t.flask f).box.held else t) = t := by
    rw [ht]; split <;> rfl
  unfold State.ladleFreed
  rw [hheld]
  dsimp only [State.drainHeld]
  rw [hdrain]
  · split
    · exact .inl rfl
    · exact .inr rfl
  · split <;> simp [hbox]

/-! ### Which doorbells ring -/

theorem State.fpDoorbell_live {e : Ep} {f : FlaskId} {n : BitVec 4} {ring : State → LadleRef → State} (hserves : s.phase.serves = true)
    (hreach : s.reaches e = true) (hin : (s.ep e).inq = []) (hlive : s.pageLive e f = true) (hn : n.toNat < (s.flask f).nladles)
    (hen : (s.ladle (.flask f n)).enabled = true) : s.fpDoorbell e f n ring = ring s (.flask f n) := by
  have hnum : decide (n.toNat ≥ (s.flask f).nladles) = false := decide_eq_false (Nat.not_le.mpr hn)
  simp only [State.fpDoorbell, hserves, hreach, hin, hlive, hen, hnum, List.isEmpty_nil, Bool.not_true, Bool.or_false, Bool.false_eq_true,
    if_false]

theorem State.fpDoorbell_stray {e : Ep} {f : FlaskId} {n : BitVec 4} {ring : State → LadleRef → State} (hserves : s.phase.serves = true)
    (hreach : s.reaches e = true) (hin : (s.ep e).inq = []) (hlive : s.pageLive e f = false) :
    s.fpDoorbell e f n ring = s.strayWrite f := by
  simp [State.fpDoorbell, hserves, hreach, hin, hlive]

theorem State.admDoorbell_owner {m : Master} {ring : State → State} (hserves : s.phase.serves = true) (harr : s.arrives m = true)
    (howner : s.isOwner m = true) : s.admDoorbell m ring = ring s := by
  simp [State.admDoorbell, hserves, harr, howner]

theorem State.admDoorbell_observer {m : Master} {ring : State → State} (hserves : s.phase.serves = true) (harr : s.arrives m = true)
    (howner : s.isOwner m = false) : s.admDoorbell m ring = s.observed m := by
  simp [State.admDoorbell, hserves, harr, howner]

/-! ### A completion doorbell behind which nothing is held -/

theorem State.ringCq_flask {f : FlaskId} {n : BitVec 4} {x : Nat} (hne : x ≠ (s.ladle (.flask f n)).cqHead)
    (hin : x < (s.ladle (.flask f n)).cqSize)
    (hahead : ahead (s.ladle (.flask f n)).cqSize (s.ladle (.flask f n)).cqHead x ≤
      ahead (s.ladle (.flask f n)).cqSize (s.ladle (.flask f n)).cqHead (s.ladle (.flask f n)).cqTail)
    (hheld : (s.ladle (.flask f n)).held = []) (hbox : (s.box (.flask f n)).held = []) :
    let t := s.ringCq (.flask f n) x
    t.ladle (.flask f n) = { s.ladle (.flask f n) with cqHead := x, raised := false } ∧ t.mem = s.mem ∧ t.regs = s.regs := by
  have hbox' : ((s.setLadle (.flask f n) { s.ladle (.flask f n) with cqHead := x, raised := false }).box (.flask f n)).held = [] := by
    rw [State.box_setLadle, hbox]
  rw [State.ringCq_ahead hne hin hahead]
  obtain h | h := State.ladleFreed_flask (s := s.setLadle (.flask f n) { s.ladle (.flask f n) with cqHead := x, raised := false })
    (by rw [State.ladle_setLadle]; exact hheld) hbox'
  · rw [h]; simp
  · rw [h]; simp [State.ladle_setFlask_paused]

theorem State.ringCq_admin {x : Nat} (hne : x ≠ s.fw.admin.cqHead) (hin : x < s.fw.admin.cqSize)
    (hahead : ahead s.fw.admin.cqSize s.fw.admin.cqHead x ≤ ahead s.fw.admin.cqSize s.fw.admin.cqHead s.fw.admin.cqTail)
    (hheld : s.fw.admin.held = []) (hbox : s.fw.box.held = []) :
    s.ringCq .admin x = (s.setLadle .admin { s.fw.admin with cqHead := x, raised := false }).wakeSys (.hub 2) := by
  rw [State.ringCq_ahead (l := .admin) hne hin hahead]
  exact congrArg (State.wakeSys · (.hub 2)) (State.ladleFreed_admin hheld hbox)

end Sys2Proof.Machine

namespace Sys2Proof

/-- Settles O28: each doorbell that its page or its owner takes is the ring's equation for the case at hand; every other is
counted. -/
theorem doorbells : Obligations.Doorbells := by
  refine ⟨fun s e f n x hserves hreach hin => ⟨fun hlive hn hen => ?_, fun hlive => ?_⟩, fun s m x hserves harr => ⟨?_, ?_⟩⟩
  · have hsq : exec (.fpSqdb e f n x) s = .next (s.ringSq (.flask f n) x.toNat) :=
      congrArg Host.Outcome.next (State.fpDoorbell_live hserves hreach hin hlive hn hen)
    have hcq : exec (.fpCqdb e f n x) s = .next (s.ringCq (.flask f n) x.toNat) :=
      congrArg Host.Outcome.next (State.fpDoorbell_live hserves hreach hin hlive hn hen)
    rw [hsq, hcq]
    refine ⟨fun hne hlt ha => by rw [State.ringSq_ahead hne hlt ha], fun hne hbad => by rw [State.ringSq_astray hne hbad],
      fun he => by rw [he, State.ringSq_equal], fun he => by rw [he, State.ringCq_equal],
      fun hne hlt ha hheld hbox => ⟨_, rfl, State.ringCq_flask hne hlt ha hheld hbox⟩⟩
  · exact ⟨congrArg Host.Outcome.next (State.fpDoorbell_stray hserves hreach hin hlive),
      congrArg Host.Outcome.next (State.fpDoorbell_stray hserves hreach hin hlive)⟩
  · intro hvalid hmaster
    have howner : s.isOwner m = true := by simp [State.isOwner, hvalid, hmaster]
    have hsq : exec (.admSqdb m x) s = .next (s.ringSq .admin x.toNat) :=
      congrArg Host.Outcome.next (State.admDoorbell_owner hserves harr howner)
    have hcq : exec (.admCqdb m x) s = .next (s.ringCq .admin x.toNat) :=
      congrArg Host.Outcome.next (State.admDoorbell_owner hserves harr howner)
    rw [hsq, hcq]
    refine ⟨fun hne hlt ha => ⟨_, rfl, ?_⟩, fun he => by rw [he]; exact congrArg _ (State.ringCq_equal .admin),
      fun hne hlt ha hheld hbox => ⟨_, rfl, ?_⟩⟩
    · rw [State.ringSq_ahead (l := .admin) hne hlt ha]
      simp [State.setLadle, State.ladle]
    · rw [State.ringCq_admin hne hlt ha hheld hbox]
      simp [State.setLadle]
  · intro howner
    exact ⟨congrArg Host.Outcome.next (State.admDoorbell_observer hserves harr howner),
      congrArg Host.Outcome.next (State.admDoorbell_observer hserves harr howner)⟩

end Sys2Proof
end

section
/-!
Reads of BAR0 and of a flask's page: what a read that reaches the module gives, and what it clears.
-/

open Sys2Proof Sys2Proof.Machine

namespace Sys2Proof.Machine

variable {s : State}

theorem Phase.serves_ne_off {p : Phase} (h : p.serves = true) : p ≠ .off := by
  rintro rfl; cases h

/-! ### The rows of a read and of a write -/

theorem State.anyRead_aligned {m : Master} {off : Nat} (h : off % 4 = 0) : s.anyRead m off = s.busRead m off := by
  simp only [State.anyRead, if_pos h]

theorem State.anyRead_unaligned {m : Master} {off : Nat} (h : off % 4 ≠ 0) : s.anyRead m off = (s.free.extractLsb' 0 32, s.took) := by
  simp only [State.anyRead, if_neg h]

theorem exec_registerReadClear {m : Master} {off : BitVec 27} (hphase : s.phase ≠ .off) (harr : s.arrives m = true) :
    exec (.registerReadClear m off) s =
      .next ((s.anyRead m off.toNat).2.emit (.value m (s.anyRead m off.toNat).1)) := by
  unfold exec execRegisterReadClear
  simp only [decide_eq_false hphase, harr, Bool.not_true, Bool.or_self, Bool.false_eq_true, if_false]

theorem exec_registerReadClear_dropped {m : Master} {off : BitVec 27} (harr : s.arrives m = false) :
    exec (.registerReadClear m off) s = .next s := by
  unfold exec execRegisterReadClear
  simp only [harr, Bool.not_false, Bool.or_true, if_true]

theorem exec_mctpRead {off : BitVec 26} (hphase : s.phase ≠ .off) (hmgmt : s.fw.down.contains .management = false) :
    exec (.mctpRead off) s =
      .next ((s.anyRead .mgmt off.toNat).2.emit (.value .mgmt (s.anyRead .mgmt off.toNat).1)) := by
  unfold exec execMctpRead
  simp only [hphase, hmgmt, Bool.false_eq_true, or_self, if_false]

theorem exec_registerWrite (m : Master) (off : BitVec 27) (v : Word) (s : State) :
    exec (.registerWrite m off v) s = s.anyWrite m off.toNat v s.twin.peerEpoch := rfl

/-! ### Registers of BAR0 -/

theorem State.busRead_early {m : Master} {off : Nat} (hserves : s.phase.serves = false) (hearly : readsEarly off = false) :
    s.busRead m off = (0, s) := by
  simp only [State.busRead, hserves, hearly, Bool.not_false, Bool.and_self, if_true]

/-- A register that is a row of the tables reads its value, and its read-to-clear bits are cleared. -/
theorem State.busRead_row {m : Master} {off : Nat} {r : RegRow} (hserves : s.phase.serves = true) (hbar : off < 2 ^ 26)
    (hmsix : off / 2 ^ 16 ≠ 0x18) (hhub : indexIn off Reg.pmonHubLo 8 64 = none) (hage : off ≠ Reg.twinHbAge)
    (hvote : off = Reg.ownStat → s.mem.trip = []) (hrow : rowOf off = some r) :
    s.busRead m off =
      (s.regValue off, if r.rc = 0 then s else s.setReg off (s.reg off &&& ~~~(BitVec.ofNat 32 r.rc))) := by
  have hread : (if off = Reg.ownStat then s.readTrip .ownerRecord else s) = s := by
    split
    · next h => simp [State.readTrip, hvote h]
    · rfl
  simp only [State.busRead, hserves, Bool.not_true, Bool.false_and, Bool.false_eq_true, if_false, if_neg (Nat.not_le.mpr hbar),
    if_neg hmsix, hhub, if_neg hage, hread, hrow]

/-- `RegisterReads`: both ways to read a register that is a row. -/
theorem registerReads : Claims.RegisterReads := by
  refine ⟨?_, ?_, ?_⟩
  · intro s m off r hserves harr halign hmsix hhub hage hvote hrow row hread
    have hexec : exec row s = .next ((s.busRead m off.toNat).2.emit (.value m (s.busRead m off.toNat).1)) := by
      rw [← State.anyRead_aligned halign]
      obtain rfl | ⟨rfl, rfl, hmgmt⟩ := hread
      · rw [exec_registerReadClear (Phase.serves_ne_off hserves) harr, BitVec.toNat_setWidth_of_le (by decide)]
      · exact exec_mctpRead (Phase.serves_ne_off hserves) hmgmt
    rw [State.busRead_row hserves off.isLt hmsix hhub hage hvote hrow] at hexec
    refine ⟨fun hrc => ?_, fun hrc => ?_⟩
    · simpa only [if_pos hrc] using hexec
    · simp only [if_neg hrc] at hexec
      exact ⟨_, hexec, rfl, State.reg_setReg .., fun x hx => State.reg_setReg_ne s _ hx, rfl⟩
  · intro s m off hphase harr hserves halign hearly
    rw [exec_registerReadClear hphase harr, BitVec.toNat_setWidth_of_le (by decide), State.anyRead_aligned halign,
      State.busRead_early hserves hearly]
  · intro s m off v hphase
    refine ⟨exec_registerReadClear_dropped, fun harr halign => ⟨?_, ?_⟩⟩
    · rw [exec_registerReadClear hphase harr, State.anyRead_unaligned halign]
    · have hword : (BitVec.ofNat 27 (off.toNat / 4 * 4)).toNat = off.toNat / 4 * 4 := by
        rw [BitVec.toNat_ofNat]; exact Nat.mod_eq_of_lt (by have := off.isLt; omega)
      rw [exec_registerWrite, exec_registerWrite, hword]
      simp only [State.anyWrite, if_neg halign, Nat.mul_mod_left, if_true, State.took_twin]

/-! ### A flask's page -/

/-- The offset of a register of a flask's page. -/
theorem toNat_pageOffset (f : FlaskId) {r : Nat} (h : r < 2 ^ 16) :
    (BitVec.ofNat 27 (2 ^ 26 + f.toNat * 2 ^ 16 + r)).toNat = 2 ^ 26 + f.toNat * 2 ^ 16 + r := by
  rw [BitVec.toNat_ofNat]; exact Nat.mod_eq_of_lt (by have := f.isLt; omega)

theorem pageOffset_flask (f : FlaskId) {r : Nat} (h : r < 2 ^ 16) : BitVec.ofNat 8 ((2 ^ 26 + f.toNat * 2 ^ 16 + r) / 2 ^ 16) = f := by
  apply BitVec.eq_of_toNat_eq
  have := f.isLt
  rw [BitVec.toNat_ofNat]
  omega

theorem pageOffset_reg (f : FlaskId) {r : Nat} (h : r < 2 ^ 16) : (2 ^ 26 + f.toNat * 2 ^ 16 + r) % 2 ^ 16 = r := by omega

theorem State.busRead_page {m : Master} {e : Ep} (f : FlaskId) {r : Nat} (hserves : s.phase.serves = true) (hep : epOf m = some e)
    (hr : r < 2 ^ 16) : s.busRead m (2 ^ 26 + f.toNat * 2 ^ 16 + r) = (s.pageWord e f r, s) := by
  have hpage : 2 ^ 26 ≤ 2 ^ 26 + f.toNat * 2 ^ 16 + r := by omega
  simp only [State.busRead, hserves, Bool.not_true, Bool.false_and, Bool.false_eq_true, if_false, if_pos hpage, hep,
    pageOffset_flask f hr, pageOffset_reg f hr]

/-- A read of a register of a flask's page. -/
theorem exec_readPage {m : Master} {e : Ep} (f : FlaskId) {r : Nat} (hserves : s.phase.serves = true) (hep : epOf m = some e)
    (harr : s.arrives m = true) (hr : r < 2 ^ 16) (halign : r % 4 = 0) :
    exec (.registerReadClear m (BitVec.ofNat 27 (2 ^ 26 + f.toNat * 2 ^ 16 + r))) s = .next (s.emit (.value m (s.pageWord e f r))) := by
  rw [exec_registerReadClear (Phase.serves_ne_off hserves) harr, toNat_pageOffset f hr, State.anyRead_aligned (by omega),
    State.busRead_page f hserves hep hr]

theorem State.pageWord_dead {e : Ep} {f : FlaskId} {r : Nat} (h : s.pageLive e f = false) : s.pageWord e f r = 0 := by
  simp only [State.pageWord, h, Bool.not_false, if_true]

theorem State.pageWord_gen {e : Ep} {f : FlaskId} {n : Nat} (h : s.pageLive e f = true) (hn : n < 16) :
    s.pageWord e f (0x104 + 8 * n) = (s.ladle (.flask f (BitVec.ofNat 4 n))).gen := by
  have hix : indexIn (0x104 + 8 * n) 0x104 8 16 = some n := by
    unfold indexIn
    rw [if_pos (by omega), show (0x104 + 8 * n - 0x104) / 8 = n by omega]
  simp only [State.pageWord, h, Bool.not_true, Bool.false_eq_true, if_false, hix]

/-- A flag at its place in a word (the model imports no Mathlib, whose `boole_mul` says this). -/
theorem bit_scaled (b : Bool) (k : Nat) : (if b then 1 else 0) * k = if b then k else 0 := by
  cases b
  · exact Nat.zero_mul k
  · exact Nat.one_mul k

/-- The registers of a page below the ladles' generations. -/
theorem State.pageWord_low {e : Ep} {f : FlaskId} (h : s.pageLive e f = true) :
    s.pageWord e f 0 = BitVec.ofNat 32 (f.toNat + 256) ∧
    s.pageWord e f 0x04 = BitVec.ofNat 32 ((s.flask f).st.code + (if s.castUnderWay f then 8 else 0) +
      (if (s.flask f).ingot then 16 else 0) + if (s.flask f).paused then 32 else 0) ∧
    s.pageWord e f 0x08 = ((s.flask f).mould.map fun x => x.sequence).getD 0 ∧
    s.pageWord e f 0x1C = (s.flask f).events ∧ s.pageWord e f 0x20 = (s.flask f).stray ∧ s.pageWord e f 0x24 = 0 := by
  refine ⟨?_, ?_, ?_, ?_, ?_, ?_⟩ <;> simp [State.pageWord, h, indexIn, valueAt, pack, flag, bit_scaled, Nat.add_assoc]

end Sys2Proof.Machine
end

section
/-!
Writes of BAR0 and of a flask's page, and the answers of PLDM.
-/

open Sys2Proof Sys2Proof.Machine

namespace Sys2Proof.Machine

variable {s : State}

/-! ### Which writes are performed -/

theorem State.anyWrite_aligned {m : Master} {off : Nat} {v epoch : Word} (h : off % 4 = 0) :
    s.anyWrite m off v epoch = s.busWrite m off v epoch := by
  simp only [State.anyWrite, if_pos h]

theorem exec_mctpWrite {off : BitVec 26} {v : Word} (hphase : s.phase ≠ .off) (hmgmt : s.fw.down.contains .management = false) :
    exec (.mctpWrite off v) s = exec (.registerWrite .mgmt (off.setWidth 27) v) s := by
  unfold exec execMctpWrite execRegisterWrite
  simp only [hphase, hmgmt, Bool.false_eq_true, or_self, if_false, BitVec.toNat_setWidth_of_le (show 26 ≤ 27 by decide)]

theorem State.busWrite_dropped {m : Master} {off : Nat} {v epoch : Word} (h : s.phase.serves = false ∨ s.arrives m = false) :
    s.busWrite m off v epoch = .next s := by
  have hdrop : (!s.phase.serves || !s.arrives m) = true := by obtain h | h := h <;> simp [h]
  simp only [State.busWrite, hdrop, if_true]

/-- A write of a register that any master may not write on its own (R435). -/
theorem State.busWrite_bar0 {m : Master} {off : Nat} {v epoch : Word} (hserves : s.phase.serves = true) (harr : s.arrives m = true)
    (hbar : off < 2 ^ 26) (hclaim : off ≠ Reg.ownClaim) (haccept : off ≠ Reg.ownAccept) (hbeat0 : off ≠ Reg.hostBeat0)
    (hbeat1 : off ≠ Reg.hostBeat1) (hconfirm : off ≠ Reg.twinConfirm) (hnote0 : isOnote 0 off = false) (hnote1 : isOnote 1 off = false)
    (hmsix : off / 2 ^ 16 ≠ 0x18) :
    s.busWrite m off v epoch = if s.isOwner m then s.regEffect m off v else .next (s.observed m) := by
  simp only [State.busWrite, hserves, harr, Bool.not_true, Bool.or_self, Bool.false_eq_true, if_false, if_neg (Nat.not_le.mpr hbar),
    if_neg hclaim, if_neg haccept, if_neg hbeat0, if_neg hbeat1, if_neg hconfirm, hnote0, hnote1, Bool.false_and, if_neg hmsix]

theorem State.busWrite_page {m : Master} {e : Ep} (f : FlaskId) {r : Nat} {v epoch : Word} (hserves : s.phase.serves = true)
    (harr : s.arrives m = true) (hep : epOf m = some e) (hr : r < 2 ^ 16) :
    s.busWrite m (2 ^ 26 + f.toNat * 2 ^ 16 + r) v epoch = s.pageWrite e f r v := by
  have hpage : 2 ^ 26 ≤ 2 ^ 26 + f.toNat * 2 ^ 16 + r := by omega
  simp only [State.busWrite, hserves, harr, Bool.not_true, Bool.or_self, Bool.false_eq_true, if_false, if_pos hpage, hep,
    pageOffset_flask f hr, pageOffset_reg f hr]

/-- A write of a register of a flask's page. -/
theorem exec_writePage {m : Master} {e : Ep} (f : FlaskId) {r : Nat} {v : Word} (hserves : s.phase.serves = true)
    (harr : s.arrives m = true) (hep : epOf m = some e) (hr : r < 2 ^ 16) (halign : r % 4 = 0) :
    exec (.registerWrite m (BitVec.ofNat 27 (2 ^ 26 + f.toNat * 2 ^ 16 + r)) v) s = s.pageWrite e f r v := by
  rw [exec_registerWrite, toNat_pageOffset f hr, State.anyWrite_aligned (by omega), State.busWrite_page f hserves harr hep hr]

/-- A master whose command arrives reaches its endpoint. -/
theorem State.reaches_of_arrives {m : Master} {e : Ep} (harr : s.arrives m = true) (hep : epOf m = some e) : s.reaches e = true := by
  cases m
  case he0 | he1 =>
    simp only [epOf, Option.some.injEq] at hep
    simp only [State.arrives, Bool.and_eq_true] at harr
    exact hep ▸ harr.1
  case mgmt | peer => cases hep

/-- A read-only register of a page, or one that the page does not have. -/
theorem State.pageWrite_low {e : Ep} {f : FlaskId} {v : Word} (hreach : s.reaches e = true) :
    (s.pageLive e f = false → s.pageWrite e f 0 v = .next (s.strayWrite f)) ∧
    (s.pageLive e f = true → s.pageWrite e f 0 v = .next s ∧ s.pageWrite e f 0x24 v = .next (s.strayWrite f)) := by
  refine ⟨fun h => ?_, fun h => ⟨?_, ?_⟩⟩ <;> simp [State.pageWrite, indexIn, hreach, h]

/-- `FlaskPages`: each read is the page's word, and each write is the page's. -/
theorem flaskPages : Claims.FlaskPages := by
  intro s m e f v hserves hep harr
  dsimp only
  have hread (r : Nat) (hr : r < 2 ^ 16) (halign : r % 4 = 0) := exec_readPage (s := s) (m := m) f hserves hep harr hr halign
  have hwrite (r : Nat) (hr : r < 2 ^ 16) (halign : r % 4 = 0) := exec_writePage (v := v) f hserves harr hep hr halign
  obtain ⟨hstray, hlive⟩ := s.pageWrite_low (f := f) (v := v) (State.reaches_of_arrives harr hep)
  refine ⟨fun h r hr halign => ?_, fun h => ?_, fun h => ?_, fun h => ⟨?_, ?_⟩⟩
  · rw [hread r hr halign, State.pageWord_dead h]
  · obtain ⟨hid, hstate, hseq, hevents, hstrays, hnone⟩ := State.pageWord_low h
    refine ⟨?_, ?_, ?_, ?_, ?_, ?_, fun n hn => ?_⟩
    · rw [hread 0 (by decide) rfl, hid]
    · rw [hread 0x04 (by decide) rfl, hstate]
    · rw [hread 0x08 (by decide) rfl, hseq]
    · rw [hread 0x1C (by decide) rfl, hevents]
    · rw [hread 0x20 (by decide) rfl, hstrays]
    · rw [hread 0x24 (by decide) rfl, hnone]
    · rw [hread (0x104 + 8 * n) (by omega) (by omega), State.pageWord_gen h hn]
  · rw [hwrite 0 (by decide) rfl, hstray h]
  · rw [hwrite 0 (by decide) rfl, (hlive h).1]
  · rw [hwrite 0x24 (by decide) rfl, (hlive h).2]

/-! ### Plain registers -/

/-- What a write by a row's access codes leaves of a register: `c` is the value within its range. -/
def RegRow.written (r : RegRow) (old c v : Word) : Word :=
  (((old &&& ~~~(BitVec.ofNat 32 r.rw)) ||| (c &&& BitVec.ofNat 32 r.rw)) &&& ~~~(v &&& BitVec.ofNat 32 r.w1c)) |||
    (v &&& BitVec.ofNat 32 r.w1s)

/-- A field of read-write bits from bit 0 on takes the value. -/
theorem RegRow.written_field {r : RegRow} {k : Nat} (hk : k ≤ 32) (hrw : r.rw = 2 ^ k - 1) (hc : r.w1c = 0) (hs : r.w1s = 0)
    (old c v : Word) : (r.written old c v).toNat % 2 ^ k = c.toNat % 2 ^ k := by
  have hbits : (r.written old c v).setWidth k = c.setWidth k := by
    apply BitVec.eq_of_getLsbD_eq
    intro i hi
    have hmask : (BitVec.ofNat 32 (2 ^ k - 1)).getLsbD i = true := by
      rw [BitVec.getLsbD_ofNat, Nat.testBit_two_pow_sub_one]; simp; omega
    simp only [RegRow.written, hrw, hc, hs, BitVec.getLsbD_setWidth, BitVec.getLsbD_or, BitVec.getLsbD_and, BitVec.getLsbD_not, hmask,
      BitVec.getLsbD_zero]
    simp [hi, show i < 32 by omega]
  simpa only [BitVec.toNat_setWidth] using congrArg BitVec.toNat hbits

theorem State.plainWrite_row {off : Nat} {r : RegRow} (h : rowOf off = some r) (v : Word) :
    (s.plainWrite off v).reg off = r.written (s.reg off) (clampReg off v) v := by
  simp only [State.plainWrite, h]
  split
  · next he => exact he.symm
  · split
    · exact State.reg_setReg ..
    · exact State.reg_setReg ..

/-- A plain write changes one register and, of the rest, at most whether the option words are to be written. -/
theorem State.plainWrite_rest (off : Nat) (v : Word) :
    (s.plainWrite off v).mem = s.mem ∧ (s.plainWrite off v).cores = s.cores ∧ ∀ x, x ≠ off → (s.plainWrite off v).reg x = s.reg x := by
  unfold State.plainWrite
  split
  · exact ⟨rfl, rfl, fun _ _ => rfl⟩
  dsimp only
  split
  · exact ⟨rfl, rfl, fun _ _ => rfl⟩
  split
  · exact ⟨rfl, rfl, fun x hx => State.reg_setReg_ne s _ hx⟩
  · exact ⟨rfl, rfl, fun x hx => State.reg_setReg_ne s _ hx⟩

/-- The registers of which `RegisterWrites` speaks. -/
def plainOffs : List Nat := [Reg.hostTimeout0, Reg.hostTimeout1, Reg.telemBudget, Reg.ladleTapEn]

theorem mem_plainOffs {off : Nat} (h : off ∈ plainOffs) :
    off = Reg.hostTimeout0 ∨ off = Reg.hostTimeout1 ∨ off = Reg.telemBudget ∨ off = Reg.ladleTapEn := by
  simpa only [plainOffs, List.mem_cons, List.not_mem_nil, or_false] using h

/-- They are plain: no rule of its own takes a write of them. -/
theorem State.regEffect_plain {m : Master} {off : Nat} (h : off ∈ plainOffs) (v : Word) :
    s.regEffect m off v = .next (s.plainWrite off v) := by
  obtain rfl | rfl | rfl | rfl := mem_plainOffs h <;> rfl

theorem rowOf_hostTimeout0 : rowOf Reg.hostTimeout0 = some ⟨0xC00008, 0, 1, 0xFFFFF, 0, 0, 0, 0, 0x1388⟩ := rfl
theorem rowOf_hostTimeout1 : rowOf Reg.hostTimeout1 = some ⟨0xC0000C, 0, 1, 0xFFFFF, 0, 0, 0, 0, 0x1388⟩ := rfl
theorem rowOf_telemBudget : rowOf Reg.telemBudget = some ⟨0xA00000, 0, 1, 0xFFF, 0, 0, 0, 0, 0xA28⟩ := rfl

/-- A clamped value is within its field. -/
theorem toNat_clamped {w lo hi : Nat} (hw : w ≤ 32) (hlo : lo < 2 ^ w) (hhi : hi < 2 ^ w) (v : Nat) :
    (BitVec.ofNat 32 (clampRange lo hi v)).toNat % 2 ^ w = max lo (min hi v) := by
  have hlt : max lo (min hi v) < 2 ^ w := by omega
  rw [BitVec.toNat_ofNat, Nat.mod_mod_of_dvd _ (Nat.pow_dvd_pow 2 hw), clampRange, Nat.mod_eq_of_lt hlt]

/-- The periods of the hosts' liveness (R345). -/
theorem State.plainWrite_hostTimeout {off : Nat} (h : off ∈ [Reg.hostTimeout0, Reg.hostTimeout1]) (v : Word) :
    ((s.plainWrite off v).reg off).toNat % 2 ^ 20 = max 100 (min 600000 (v.toNat % 2 ^ 20)) := by
  simp only [List.mem_cons, List.not_mem_nil, or_false] at h
  have hclamp : clampReg off v = BitVec.ofNat 32 (clampRange 100 600000 (v.toNat % 2 ^ 20)) := by
    obtain rfl | rfl := h <;> rfl
  obtain ⟨r, hrow, hrw, hc, hs⟩ : ∃ r, rowOf off = some r ∧ r.rw = 2 ^ 20 - 1 ∧ r.w1c = 0 ∧ r.w1s = 0 := by
    obtain rfl | rfl := h
    · exact ⟨_, rowOf_hostTimeout0, rfl, rfl, rfl⟩
    · exact ⟨_, rowOf_hostTimeout1, rfl, rfl, rfl⟩
  rw [State.plainWrite_row hrow, RegRow.written_field (by decide) hrw hc hs, hclamp, toNat_clamped] <;> decide

/-- The module's power budget (R524). -/
theorem State.plainWrite_telemBudget (v : Word) :
    ((s.plainWrite Reg.telemBudget v).reg Reg.telemBudget).toNat % 2 ^ 12 = max 600 (min 2600 (v.toNat % 2 ^ 12)) := by
  have hclamp : clampReg Reg.telemBudget v = BitVec.ofNat 32 (clampRange 600 2600 (v.toNat % 2 ^ 12)) := rfl
  rw [State.plainWrite_row rowOf_telemBudget, RegRow.written_field (by decide) rfl rfl rfl, hclamp, toNat_clamped] <;> decide

/-- The owner's write of one of these registers is a plain write. -/
theorem exec_writePlain {m : Master} {off : Nat} {v : Word} (hserves : s.phase.serves = true) (harr : s.arrives m = true)
    (howner : s.isOwner m = true) (h : off ∈ plainOffs) :
    exec (.registerWrite m (BitVec.ofNat 27 off) v) s = .next (s.plainWrite off v) := by
  have hbus (epoch : Word) : s.busWrite m off v epoch = if s.isOwner m then s.regEffect m off v else .next (s.observed m) := by
    obtain rfl | rfl | rfl | rfl := mem_plainOffs h <;>
      exact State.busWrite_bar0 hserves harr (by decide) (by decide) (by decide) (by decide) (by decide) (by decide) (by decide)
        (by decide) (by decide)
  have hoff : ∀ off ∈ plainOffs, (BitVec.ofNat 27 off).toNat = off ∧ off % 4 = 0 := by decide
  obtain ⟨hval, halign⟩ := hoff off h
  rw [exec_registerWrite, hval, State.anyWrite_aligned halign, hbus, if_pos howner, State.regEffect_plain h]

/-- `RegisterWrites`: which writes reach the registers, and the plain registers with a range. -/
theorem registerWrites : Claims.RegisterWrites := by
  refine ⟨fun s m off v halign => ?_, fun s m v hserves harr howner => ?_⟩
  · have hexec (m : Master) : exec (.registerWrite m (off.setWidth 27) v) s = s.busWrite m off.toNat v s.twin.peerEpoch := by
      rw [exec_registerWrite, BitVec.toNat_setWidth_of_le (by decide), State.anyWrite_aligned halign]
    refine ⟨fun hdrop => ?_, fun hphase hmgmt => exec_mctpWrite hphase hmgmt, ?_⟩
    · rw [hexec, State.busWrite_dropped hdrop]
    · intro hserves harr hclaim haccept hbeat0 hbeat1 hconfirm hnote0 hnote1 hmsix
      rw [hexec, State.busWrite_bar0 hserves harr off.isLt hclaim haccept hbeat0 hbeat1 hconfirm hnote0 hnote1 hmsix]
      exact ⟨fun howner => if_pos howner, fun howner => if_neg (by rw [howner]; decide)⟩
  · refine ⟨fun off hoff row hrow => ?_, ?_, ?_⟩
    · have hsub : ∀ off ∈ [Reg.hostTimeout0, Reg.hostTimeout1], off ∈ plainOffs ∧
          (BitVec.ofNat 26 off).setWidth 27 = BitVec.ofNat 27 off := by
        decide
      obtain ⟨hplain, hwidth⟩ := hsub off hoff
      have hexec : exec row s = .next (s.plainWrite off v) := by
        obtain rfl | ⟨rfl, rfl, hmgmt⟩ := hrow
        · exact exec_writePlain hserves harr howner hplain
        · rw [exec_mctpWrite (Phase.serves_ne_off hserves) hmgmt, hwidth, exec_writePlain hserves harr howner hplain]
      exact ⟨_, hexec, State.plainWrite_hostTimeout hoff v, (s.plainWrite_rest off v).2.2⟩
    · exact ⟨_, exec_writePlain hserves harr howner (by decide), State.plainWrite_telemBudget v⟩
    · exact ⟨_, exec_writePlain hserves harr howner (by decide), s.plainWrite_rest Reg.ladleTapEn v⟩

/-! ### PLDM -/

/-- While the management core runs, a command of PLDM is answered. -/
theorem pldmAnswers : Claims.PldmAnswers := by
  intro s hphase hmgmt
  have hexec (req : PldmReq) : exec (.pldmCommand req) s = execPldmCommand req s := rfl
  have hruns : ¬ (s.phase = .off ∨ s.fw.down.contains .management = true) := by
    rw [hmgmt]; simp [hphase]
  refine ⟨fun id v hv => ?_, fun id hv hid => ?_, fun eid => ?_, fun req hreq => ?_⟩
  · simp only [hexec, execPldmCommand, if_neg hruns, hv]
  · simp only [hexec, execPldmCommand, if_neg hruns, hv, hid, Bool.false_eq_true, if_false]
  · rw [hexec, execPldmCommand, if_neg hruns]
    exact ⟨_, rfl, rfl, rfl, rfl⟩
  · rw [hexec, execPldmCommand, if_neg hruns]
    simp only [List.mem_cons, List.not_mem_nil, or_false] at hreq
    obtain rfl | rfl | rfl | rfl | rfl := hreq <;> exact ⟨_, rfl, _, rfl, rfl, rfl, rfl⟩

end Sys2Proof.Machine

namespace Sys2Proof

/-- Settles O56: what a read gives and clears, what a flask's page reads and ignores, which writes take effect, and what PLDM
answers. -/
theorem registers : Obligations.Registers := ⟨Machine.registerReads, Machine.flaskPages, Machine.registerWrites, Machine.pldmAnswers⟩

end Sys2Proof
end

section
/-!
The streams: what travels counts at the links only, what a core that waits for nothing and whose engines take nothing does with an
arrival, and the words, tokens and credits that reach their ports.
-/

open Sys2Proof Sys2Proof.Machine

namespace Sys2Proof.Machine

variable {s : State}

/-- A fold of steps that each keep a view of the state keeps it. -/
theorem foldl_keeps {σ β γ : Type} {view : σ → γ} {f : σ → β → σ} (hf : ∀ s b, view (f s b) = view s) (l : List β) (s : σ) :
    view (l.foldl f s) = view s :=
  List.foldlRecOn (motive := fun t => view t = view s) l f rfl fun _ ih b _ => (hf _ b).trans ih

/-! ### The counts of what travels -/

/-- A processor's state is a matter of the two tables of cores. -/
theorem State.core_congr {s t : State} (hcores : t.cores = s.cores) (hfw : t.fwCores = s.fwCores) (p : Proc) : t.core p = s.core p := by
  simp only [State.core, hcores, hfw]

@[simp] theorem State.travel_cores (a b kind n : Nat) : (s.travel a b kind n).cores = s.cores := by
  unfold State.travel; split
  · exact foldl_keeps (view := State.cores) (fun _ _ => State.hubCount_cores ..) _ _
  · rfl
@[simp] theorem State.travel_fwCores (a b kind n : Nat) : (s.travel a b kind n).fwCores = s.fwCores := by
  unfold State.travel; split
  · exact foldl_keeps (view := State.fwCores) (fun _ _ => State.hubCount_fwCores ..) _ _
  · rfl
@[simp] theorem State.travel_fab (a b kind n : Nat) : (s.travel a b kind n).fab = s.fab := by
  unfold State.travel; split
  · exact foldl_keeps (view := State.fab) (fun _ _ => State.hubCount_fab ..) _ _
  · rfl

@[simp] theorem State.core_travel (a b kind n : Nat) (p : Proc) : (s.travel a b kind n).core p = s.core p :=
  State.core_congr (State.travel_cores ..) (State.travel_fwCores ..) p

@[simp] theorem State.core_clCount (cl : ClusterId) (event n : Nat) (p : Proc) : (s.clCount cl event n).core p = s.core p := rfl

/-! ### A core that waits for nothing -/

/-- A core that waits for nothing has nothing to look at again. -/
theorem State.rerun_of_no_wait {p : Proc} (h : (s.core p).wait = none) : s.rerun p = s := by
  simp only [State.rerun, h, ite_self]

theorem State.pullPort_of_no_claim {p : Proc} {q : Port} (h : (s.core p).claims q = []) (n : Nat) : s.pullPort p q n = s := by
  cases n <;> simp [State.pullPort, State.pullOne, h, firstClaim]

/-- Where no engine takes words from a port, every word stays in its port. -/
theorem State.pull_of_no_claims {p : Proc} (h : ∀ q, (s.core p).claims q = []) : s.pull p = s :=
  List.foldlRecOn (motive := fun t => t = s) allPorts _ rfl fun t ht q _ => by
    subst ht; exact State.pullPort_of_no_claim (h q) _

@[simp] theorem Core.setInport_wait (k : Core) (q : Port) (ws : List PortWord) : (k.setInport q ws).wait = k.wait := rfl
@[simp] theorem Core.setOutport_wait (k : Core) (q : Port) (o : OutPort) : (k.setOutport q o).wait = k.wait := rfl

/-- What the engines take is a matter of their queues, not of the words that stand in the ports. -/
@[simp] theorem Core.claims_setInport (k : Core) (q r : Port) (ws : List PortWord) : (k.setInport q ws).claims r = k.claims r := rfl

/-- A word that arrives at a core whose engines take none and which waits for nothing stands in its port. -/
theorem State.arriveAt_of_idle {c : CoreId} (hwait : (s.core (.core c)).wait = none) (hclaims : ∀ q, (s.core (.core c)).claims q = [])
    (q : Port) (w : PortWord) : s.arriveAt c q w =
      (s.clCount (coreCluster c) 3 1).setCore (.core c) ((s.core (.core c)).setInport q ((s.core (.core c)).inport q ++ [w])) := by
  unfold State.arriveAt State.modCore
  rw [State.pull_of_no_claims (by simpa using hclaims), State.rerun_of_no_wait (by simpa using hwait)]
  simp

/-- Where a core and another wait for nothing, a change of the first that keeps it so leaves the second nothing to look at again. -/
theorem State.rerun_setCore_of_no_wait {p q : Proc} {k : Core} (hk : k.wait = none) (hq : (s.core q).wait = none) :
    (s.setCore p k).rerun q = s.setCore p k := by
  refine State.rerun_of_no_wait ?_
  by_cases h : q = p
  · subst h; rw [State.core_setCore, hk]
  · rw [State.core_setCore_ne _ _ h, hq]

/-! ### Credits -/

/-- A credit of a stream that is not stale raises its output port's count, to its most, and is no longer on its way. -/
theorem State.creditBack_live {x : CoreId × Port × Byte × Nat} {o : OutPort}
    (ho : (s.core (.core x.1)).outport x.2.1 = o) (hlive : ∀ d, o.dst = some d → s.stale (.core d.1) x.2.2.1 = false) :
    ∃ t : State, t.fab = { s.fab with credits := s.fab.credits.erase x } ∧ t.core (.core x.1) = s.core (.core x.1) ∧
      s.creditBack x = t.setCore (.core x.1) ((s.core (.core x.1)).setOutport x.2.1
        { o with credits := min (o.credits + x.2.2.2) o.max, sent := o.sent - x.2.2.2 }) := by
  let taken : State := { s with fab := { s.fab with credits := s.fab.credits.erase x } }
  have hcore (p : Proc) : taken.core p = s.core p := rfl
  have hstale (p : Proc) (gen : Byte) : taken.stale p gen = s.stale p gen := rfl
  unfold State.creditBack
  simp only [taken] at hcore hstale
  cases hdst : o.dst with
  | none =>
    refine ⟨taken.clCount (coreCluster x.1) 8 x.2.2.2, rfl, rfl, ?_⟩
    simp only [taken, ho, hdst, hcore, Bool.false_eq_true, if_false]
  | some d =>
    refine ⟨(taken.travel (procDie (.core d.1)) (procDie (.core x.1)) 4 x.2.2.2).clCount (coreCluster x.1) 8 x.2.2.2, ?_, ?_, ?_⟩
    · simp [taken]
    · simp [taken, hcore]
    · simp only [taken, ho, hdst, hcore, hstale, hlive d hdst, Bool.false_eq_true, if_false]

/-! ### Arrivals -/

theorem exec_streamWordArrival (a : Arrival) (s : State) : exec (.streamWordArrival a) s = execStreamWordArrival a s := rfl

theorem exec_creditReturn (src : CoreId) (port : Port) (n : BitVec 3) (s : State) :
    exec (.creditReturn src port n) s = execCreditReturn src port n s := rfl

/-- A stream's word enters its port, and nothing of the cores but that port changes. -/
theorem wordArrives (src : CoreId) (port : Port) (x : Transit)
    (hnext : s.fab.transit.find? (fun y => y.src == src && y.port == port) = some x) (hlive : s.stale (.core src) x.gen = false)
    (hroom : (s.core (.core x.dst)).portCount x.dport false < 16) (hwait : (s.core (.core x.dst)).wait = none)
    (hsrc : (s.core (.core src)).wait = none) (hclaims : ∀ q, (s.core (.core x.dst)).claims q = []) :
    Answers (exec (.streamWordArrival (.word src port)) s) fun t =>
      t.core (.core x.dst) =
        (s.core (.core x.dst)).setInport x.dport ((s.core (.core x.dst)).inport x.dport ++ [x.w]) ∧
      (∀ q, q ≠ .core x.dst → t.core q = s.core q) ∧ t.fab = { s.fab with transit := s.fab.transit.erase x } := by
  let taken : State := { s with fab := { s.fab with transit := s.fab.transit.erase x } }
  let moved := taken.travel (procDie (.core src)) (procDie (.core x.dst)) 3 4
  have hcore (p : Proc) : moved.core p = s.core p := State.core_travel ..
  have hexec : exec (.streamWordArrival (.word src port)) s =
      .next ((moved.arriveAt x.dst x.dport x.w).rerun (.core src)) := by
    simp only [exec_streamWordArrival, execStreamWordArrival, hnext, hlive, Bool.false_eq_true, if_false,
      if_neg (Nat.not_le.mpr hroom), moved, taken]
  rw [hexec, State.arriveAt_of_idle (by rw [hcore, hwait]) (by simpa only [hcore] using hclaims), hcore,
    State.rerun_setCore_of_no_wait (by simpa using hwait) (by simpa [hcore] using hsrc)]
  refine ⟨_, rfl, State.core_setCore .., fun q hq => ?_, ?_⟩
  · rw [State.core_setCore_ne _ _ hq, State.core_clCount, hcore]
  · simp [moved, taken]

/-- The oldest token that the hub holds for a port with room enters it. -/
theorem tokenArrives (f : FlaskId) (b : BitVec 12) (x : HeldToken)
    (hnext : s.fab.tokens.find? (fun y => y.flask == f && y.binding == b && s.tokenMay y) = some x)
    (hwait : (s.core (.core x.core)).wait = none) (hclaims : ∀ q, (s.core (.core x.core)).claims q = []) :
    Answers (exec (.streamWordArrival (.token f b)) s) fun t =>
      t.core (.core x.core) = (s.core (.core x.core)).setInport x.port
        ((s.core (.core x.core)).inport x.port ++ [⟨⟨x.w, Tag.token⟩, BitVec.ofNat 9 f.toNat, true⟩]) ∧
      t.fab = { s.fab with tokens := s.fab.tokens.erase x } := by
  let taken : State := { s with fab := { s.fab with tokens := s.fab.tokens.erase x } }
  have hcore (p : Proc) : taken.core p = s.core p := rfl
  have hexec : exec (.streamWordArrival (.token f b)) s =
      .next (taken.arriveAt x.core x.port ⟨⟨x.w, Tag.token⟩, BitVec.ofNat 9 f.toNat, true⟩) := by
    simp only [exec_streamWordArrival, execStreamWordArrival, hnext, taken]
  rw [hexec, State.arriveAt_of_idle (by rw [hcore, hwait]) (by simpa only [hcore] using hclaims), hcore]
  exact ⟨_, rfl, State.core_setCore .., by simp [taken]⟩

/-- The one credit on its way to an output port comes back to it. -/
theorem creditReturns (src : CoreId) (port : Port) (n : BitVec 3) (gen : Byte) (m : Nat) (o : OutPort)
    (ho : (s.core (.core src)).outport port = o)
    (honly : s.fab.credits.filter (fun x => x.1 == src && x.2.1 == port) = [(src, port, gen, m)]) (hn : n ≠ 0)
    (hwait : (s.core (.core src)).wait = none) (hlive : ∀ d, o.dst = some d → s.stale (.core d.1) gen = false) :
    Answers (exec (.creditReturn src port n) s) fun t =>
      t.core (.core src) = (s.core (.core src)).setOutport port { o with credits := min (o.credits + m) o.max, sent := o.sent - m } ∧
      t.fab = { s.fab with credits := s.fab.credits.erase (src, port, gen, m) } := by
  have htake : [(src, port, gen, m)].take (min n.toNat 4) = [(src, port, gen, m)] :=
    List.take_of_length_le (by simp only [List.length_singleton]; bv_omega)
  obtain ⟨t, hfab, hcore, hback⟩ := State.creditBack_live (x := (src, port, gen, m)) ho hlive
  have hexec : exec (.creditReturn src port n) s = .next ((s.creditBack (src, port, gen, m)).rerun (.core src)) := by
    simp only [exec_creditReturn, execCreditReturn, honly, htake, List.foldl_cons, List.foldl_nil]
  rw [hexec, hback, State.rerun_setCore_of_no_wait (by simpa using hwait) (by rw [hcore, hwait])]
  exact ⟨_, rfl, State.core_setCore .., by rw [State.setCore_fab, hfab]⟩

end Sys2Proof.Machine

namespace Sys2Proof

/-- Settles O24: a word and a token enter their ports, and a credit comes back to its output port. -/
theorem streamsMove : Obligations.StreamsMove :=
  ⟨fun _ src port x => Machine.wordArrives src port x, fun _ f b x => Machine.tokenArrives f b x,
    fun _ src port n gen m honly hn hwait hlive => Machine.creditReturns src port n gen m _ rfl honly hn hwait hlive⟩

end Sys2Proof
end

section
/-!
A read of the staging area: whatever errors it meets belong to firmware's own region, so they are reported to the owner, and neither a
flask nor a core changes.
-/

open Sys2Proof Sys2Proof.Machine

namespace Sys2Proof.Machine

/-- The flasks and their cores: what the verification of a mould leaves as it is. -/
def State.roster (s : State) : Tab Flask × Tab Core := (s.flasks, s.cores)

variable {s : State}

theorem State.roster_eq_iff {s t : State} : t.roster = s.roster ↔ t.flasks = s.flasks ∧ t.cores = s.cores := by
  simp only [State.roster, Prod.mk.injEq]

/-! ### Reports to the owner -/

/-- A state whose flasks and cores are those of s, whatever its other fields. -/
@[simp] theorem State.roster_mk (s : State) (pending fresh out regs fwCores clusters fab mem fw live0 live1 he0 he1 own phase net xport
    stor scor fills asks sec twin ing rst bg refs) :
    State.roster ⟨pending, fresh, out, regs, s.cores, fwCores, clusters, fab, mem, s.flasks, fw, live0, live1, he0, he1, own, phase, net,
      xport, stor, scor, fills, asks, sec, twin, ing, rst, bg, refs⟩ = s.roster := rfl

@[simp] theorem State.roster_count (off : Nat) : (s.count off).roster = s.roster := rfl
@[simp] theorem State.roster_emit (o : Out) : (s.emit o).roster = s.roster := rfl
@[simp] theorem State.roster_setEp (e : Ep) (v : Endpoint) : (s.setEp e v).roster = s.roster := by simp [State.roster]
@[simp] theorem State.roster_logMem (memory : Nat) (ue poison : Bool) (src : Src) (fa : Nat) :
    (s.logMem memory ue poison src fa).roster = s.roster := rfl
@[simp] theorem State.roster_sendNote (e : Ep) : (s.sendNote e).roster = s.roster := by simp [State.sendNote]

@[simp] theorem State.roster_tap (n : Nat) (d : Domain) : (s.tap n d).roster = s.roster := by
  unfold State.tap State.tapBy; split <;> rfl

@[simp] theorem State.roster_notifyOwner : s.notifyOwner.roster = s.roster := by
  unfold State.notifyOwner; dsimp only; (repeat' split) <;> simp

@[simp] theorem State.roster_setBox_admin (b : EventBox) : (s.setBox .admin b).roster = s.roster := rfl

@[simp] theorem State.roster_putEntry_admin (e : Entry) : (s.putEntry .admin e).roster = s.roster := by
  unfold State.putEntry State.signal State.setLadle; dsimp only; split <;> simp

@[simp] theorem State.roster_reportLost_admin : (s.reportLost .admin).roster = s.roster := by
  unfold State.reportLost; dsimp only; split <;> simp

@[simp] theorem State.roster_deliver_admin (e : Entry) : (s.deliver .admin e).roster = s.roster := by
  unfold State.deliver; dsimp only; (repeat' split) <;> simp

@[simp] theorem State.roster_postOwner (code : BitVec 16) (st : Status) (src : Nat) (result : List Byte) :
    (s.postOwner code st src result).roster = s.roster := by simp [State.postOwner]

/-! ### Errors met in the staging area -/

/-- An address of the staging area (R28). -/
def inStaging (fa : Nat) : Prop := stagingBase ≤ fa ∧ fa < stagingBase + 2 ^ 28

theorem stagingBase_eq : stagingBase = 35503273410560 := rfl

theorem inStaging_iff {fa : Nat} : inStaging fa ↔ 35503273410560 ≤ fa ∧ fa < 35503541846016 := by
  simp only [inStaging, stagingBase_eq, Nat.reducePow, Nat.reduceAdd]

theorem space_inStaging {fa : Nat} (h : inStaging fa) : space fa = 2 := by
  rw [inStaging_iff] at h
  simp only [space]; omega

theorem inStaging_lt_aboveSpace {fa : Nat} (h : inStaging fa) : fa < aboveSpace := by
  rw [inStaging_iff] at h
  simp only [aboveSpace]; omega

/-- The staging area is a granule of firmware's region. -/
theorem firmwareGranule_inStaging {fa : Nat} (h : inStaging fa) : firmwareGranule (faGranule fa) = true := by
  rw [inStaging_iff] at h
  simp only [firmwareGranule, faGranule, bits, Nat.shiftRight_eq_div_pow, decide_eq_true_eq]; omega

/-- It is firmware's, whatever the owners of the other granules. -/
theorem State.ownerAt_inStaging {fa : Nat} (h : inStaging fa) : s.ownerAt fa = 0x100 := by
  rw [State.ownerAt, if_neg (Nat.not_le.mpr (inStaging_lt_aboveSpace h)), if_pos (space_inStaging h), Mem.ownerOf,
    if_pos (firmwareGranule_inStaging h)]

/-- The line of an address of the staging area lies in it, with both its codewords. -/
theorem inStaging_line {fa : Nat} (h : inStaging fa) : inStaging (fa / 64 * 64) ∧ inStaging (fa / 64 * 64 + 32) := by
  simp only [inStaging_iff] at h ⊢; omega

theorem inStaging_codeword {fa : Nat} (h : inStaging fa) : inStaging (fa / 32 * 32) := by
  simp only [inStaging_iff] at h ⊢; omega

/-- An error found in the staging area is posted to the owner. -/
theorem State.roster_noteUe {fa : Nat} (h : inStaging fa) (memory : Nat) (poison : Bool) (src : Src) :
    (s.noteUe memory poison src fa).roster = s.roster := by
  unfold State.noteUe State.postDom
  rw [State.ownerAt_inStaging h]
  simp

@[simp] theorem State.roster_meetCe (memory : Nat) (src : Src) (fa : Nat) : (s.meetCe memory src fa).roster = s.roster := rfl

theorem State.roster_scrubCw {fa : Nat} (h : inStaging fa) (src : Src) : (s.scrubCw src fa).roster = s.roster := by
  unfold State.scrubCw
  split
  · simp
  · rw [State.roster_noteUe h]; simp
  · rfl

theorem State.roster_scrubLine {fa : Nat} (h : inStaging fa) (src : Src) : (s.scrubLine src fa).roster = s.roster := by
  obtain ⟨hlow, hhigh⟩ := inStaging_line h
  unfold State.scrubLine
  rw [if_pos ⟨inStaging_lt_aboveSpace h, space_inStaging h⟩, State.roster_scrubCw hhigh, State.roster_scrubCw hlow]

@[simp] theorem State.roster_noSpare (fa : Nat) : (s.noSpare fa).roster = s.roster := by
  unfold State.noSpare; dsimp only; (repeat' split) <;> simp

@[simp] theorem State.roster_repair (r : Repair) : (s.repair r).roster = s.roster := by
  unfold State.repair; (repeat' split) <;> simp

theorem State.roster_markLine {fa : Nat} (h : inStaging fa) (src : Src) : (s.markLine src fa).roster = s.roster := by
  unfold State.markLine State.softRepair
  dsimp only
  split
  · rw [State.roster_repair, State.roster_scrubLine h]; split <;> simp
  · split <;> simp

theorem State.roster_meetUe {fa : Nat} (h : inStaging fa) (memory : Nat) (poison : Bool) (src : Src) :
    (s.meetUe memory poison src fa).roster = s.roster := by
  unfold State.meetUe
  rw [State.roster_noteUe h]
  split
  · rfl
  · exact State.roster_markLine h src

/-! ### Reads of the staging area -/

theorem State.roster_readCode {fa : Nat} (h : inStaging fa) (src : Src) (ecc : EccReport) : (s.readCode fa src ecc).2.roster = s.roster := by
  have hmeet (t : State) (memory : Nat) (poison : Bool) := State.roster_meetUe (s := t) (inStaging_codeword h) memory poison src
  unfold State.readCode
  dsimp only
  (repeat' split) <;> simp [hmeet]

theorem State.roster_hubReadPiece {fa : Nat} (h : inStaging fa) (src : Src) (n : Nat) :
    (s.hubReadPiece 0x100 src fa n).2.1.roster = s.roster := by
  have htranslate : translate s 0x100 fa = some fa := rfl
  simp only [State.hubReadPiece, htranslate, if_pos (space_inStaging h), State.readCw]
  split
  · rfl
  · exact State.roster_readCode h ..

/-- The pieces of a range lie in it. -/
theorem mem_pieces {step : Nat} {x : Nat × Nat} : ∀ {fuel a n : Nat}, x ∈ pieces step fuel a n → a ≤ x.1 ∧ x.1 < a + n
  | 0, _, _, hx => absurd hx (by simp [pieces])
  | fuel + 1, a, n, hx => by
    rw [pieces] at hx
    split at hx
    · simp at hx
    · obtain rfl | hx := List.mem_cons.mp hx
      · exact ⟨Nat.le_refl _, by omega⟩
      · have := mem_pieces hx
        omega

/-- A read of up to the whole staging area changes no flask and no core. -/
theorem State.roster_hubRead_staging {n : Nat} (h : n ≤ 2 ^ 28) (src : Src) :
    (s.hubRead 0x100 src stagingBase n).2.1.roster = s.roster := by
  unfold State.hubRead
  refine List.foldlRecOn (motive := fun r : List Byte × State × HubRes => r.2.1.roster = s.roster) _ _ rfl fun r ih x hx => ?_
  have hin : inStaging x.1 := by
    obtain ⟨hlo, hhi⟩ := mem_pieces hx
    exact ⟨hlo, by omega⟩
  exact (State.roster_hubReadPiece hin src x.2).trans ih

end Sys2Proof.Machine
end

section
/-!
Casts up to their checks: which mould a cast works from and that its signature is verified once, the checks that end a cast or let it
wait, and the turns that casts and firmware stagings take.
-/

open Sys2Proof Sys2Proof.Machine

namespace Sys2Proof.Machine

variable {s : State}

/-! ### The mould that a cast works from -/

@[simp] theorem State.roster_castSteps (n : Nat) : (s.castSteps n).roster = s.roster :=
  foldl_keeps (view := State.roster) (fun _ _ => State.roster_tap ..) _ _

@[simp] theorem State.castCopy_tap (n : Nat) (d : Domain) : (s.tap n d).fw.castCopy = s.fw.castCopy := by
  unfold State.tap State.tapBy; split <;> rfl

@[simp] theorem State.castCopy_castSteps (n : Nat) : (s.castSteps n).fw.castCopy = s.fw.castCopy :=
  foldl_keeps (view := fun t : State => t.fw.castCopy) (fun _ _ => State.castCopy_tap ..) _ _

/-- A later turn of a cast works from the copy that its first turn made. -/
theorem State.takeMould_of_copy {tag : Word} {bs : List Byte} (h : s.fw.castCopy = some (tag, bs))
    (signed : Container → BitVec 256 → Bool) : s.takeMould tag signed = (s, .ok (Container.read bs)) := by
  simp only [State.takeMould, h, Option.filter_some, decide_true, if_true]

/-- The first turn reads the staging area and verifies what it holds. -/
theorem State.takeMould_of_no_copy {tag : Word} (h : ∀ bs, s.fw.castCopy ≠ some (tag, bs)) (signed : Container → BitVec 256 → Bool) :
    s.takeMould tag signed = s.verifyMould tag signed := by
  have hnone : (s.fw.castCopy.filter fun x => decide (x.1 = tag)) = none := by
    rw [Option.filter_eq_none_iff]
    rintro ⟨tag', bs⟩ hcopy htag
    obtain rfl : tag' = tag := of_decide_eq_true htag
    exact h bs hcopy
  simp only [State.takeMould, hnone]

/-- A container that passes the first check is no larger than the staging area. -/
theorem State.size_of_castCheck1 {head : List Byte} {keyId : Nat} (h : s.castCheck1 head keyId = none) : fieldAt head 12 4 ≤ 2 ^ 28 := by
  unfold State.castCheck1 at h
  dsimp only at h
  split at h
  · cases h
  · omega

/-- Verifying a mould changes no flask and no core. -/
theorem State.roster_verifyMould (tag : Word) (signed : Container → BitVec 256 → Bool) : (s.verifyMould tag signed).1.roster = s.roster := by
  unfold State.verifyMould
  dsimp only
  split
  · rfl
  · next hcheck =>
    have hread := State.roster_hubRead_staging (s := s) (State.size_of_castCheck1 hcheck) .hub
    (repeat' split) <;> simpa using hread

theorem State.roster_takeMould (tag : Word) (signed : Container → BitVec 256 → Bool) : (s.takeMould tag signed).1.roster = s.roster := by
  unfold State.takeMould
  split
  · rfl
  · exact State.roster_verifyMould tag signed

/-- The copy of an earlier turn, or staging as read and verified now. -/
theorem mouldIsVerified : Claims.MouldIsVerified := by
  intro s tag signed
  refine ⟨fun bs h => State.takeMould_of_copy h signed, fun hcopy => ?_, State.roster_eq_iff.mp (State.roster_takeMould tag signed)⟩
  have hroster := State.roster_verifyMould (s := s) tag signed
  rw [State.takeMould_of_no_copy hcopy signed]
  dsimp only
  refine ⟨fun st hst => ?_, fun hcheck => ⟨fun hres => ?_, fun hres hbad => ?_, fun k hres hkey hgood => ?_⟩⟩
  · simp only [State.verifyMould, hst]
  · simp only [State.verifyMould, hcheck, if_pos hres]
  · simp only [State.verifyMould, hcheck, hres, (Option.any_eq_false _ _).mpr hbad, ne_eq, not_true, if_false, Bool.not_false, if_true]
  · simp only [State.verifyMould, hcheck, hres, hkey, Option.any_some, hgood, ne_eq, not_true, if_false, Bool.not_true, Bool.false_eq_true]
      at hroster ⊢
    obtain ⟨hflasks, hcores⟩ := State.roster_eq_iff.mp hroster
    exact ⟨_, rfl, State.castCopy_castSteps 2, hflasks, hcores⟩

/-! ### What ends a cast before it is loaded, and what lets it wait -/

/-- The vote on the mould root that a cast begins with changes neither a flask, nor a core, nor firmware's own state. -/
@[simp] theorem State.readTrip_flasks (w : TripWord) : (s.readTrip w).flasks = s.flasks := by
  unfold State.readTrip; split <;> rfl
@[simp] theorem State.readTrip_cores (w : TripWord) : (s.readTrip w).cores = s.cores := by
  unfold State.readTrip; split <;> rfl
@[simp] theorem State.readTrip_fw (w : TripWord) : (s.readTrip w).fw = s.fw := by
  unfold State.readTrip; split <;> rfl

@[simp] theorem State.flask_readTrip (w : TripWord) (f : FlaskId) : (s.readTrip w).flask f = s.flask f := by
  simp only [State.flask, State.readTrip_flasks]

theorem flaskOf_eq_some {n : Nat} {f : FlaskId} (h : n = f.toNat) : flaskOf n = some f := by
  rw [flaskOf, if_pos (by omega), h, BitVec.ofNat_toNat, BitVec.setWidth_eq]

/-- A flask that is empty or has a mould has not failed, and may be cast. -/
theorem FState.castable {x : FState} (h : x = .empty ∨ x.isCast = true) : x ≠ .failed ∧ (decide (x = .empty) || x.isCast) = true := by
  refine ⟨?_, by simpa using h⟩
  rintro rfl
  exact h.elim nofun nofun

theorem State.not_verifies (tag : Word) :
    (s.fw.down.contains .security && !(s.fw.castCopy.any fun x => decide (x.1 = tag))) = !s.verifies tag := by
  rw [State.verifies, Bool.not_or, Bool.not_not]

section
variable {b : State} {tag : Word} {flask : BitVec 16} {env : CastEnv} {signed : Container → BitVec 256 → Bool} {f : FlaskId}
  (hflask : flask.toNat = f.toNat)
include hflask

theorem State.performCastAs_failed (hst : (s.flask f).st = .failed) :
    s.performCastAs tag flask env signed = ((s.readTrip (.mouldRoot f)).castDone tag (some f) St.uncorrectable nowhere, false) := by
  simp only [State.performCastAs, flaskOf_eq_some hflask, State.flask_readTrip, hst, if_true]

theorem State.performCastAs_wrongState (hst : (s.flask f).st ∈ [FState.free, .resetting, .destroying]) :
    s.performCastAs tag flask env signed = ((s.readTrip (.mouldRoot f)).castDone tag (some f) St.wrongState nowhere, false) := by
  simp only [List.mem_cons, List.not_mem_nil, or_false] at hst
  obtain hst | hst | hst := hst <;>
    simp only [State.performCastAs, flaskOf_eq_some hflask, State.flask_readTrip, hst] <;> rfl

variable (hst : (s.flask f).st = .empty ∨ (s.flask f).st.isCast = true)
include hst

theorem State.performCastAs_unverifiable (hver : s.verifies tag = false) :
    s.performCastAs tag flask env signed = (s.readTrip (.mouldRoot f), true) := by
  obtain ⟨hfailed, hcast⟩ := FState.castable hst
  simp only [State.performCastAs, flaskOf_eq_some hflask, State.flask_readTrip, if_neg hfailed, hcast, State.readTrip_fw,
    State.not_verifies, hver, Bool.not_true, Bool.not_false, Bool.false_eq_true, if_false, if_true]

variable (hver : s.verifies tag = true)
include hver

theorem State.performCastAs_unverified {st : Status} (htake : (s.readTrip (.mouldRoot f)).takeMould tag signed = (b, .error st)) :
    s.performCastAs tag flask env signed = (b.castDone tag (some f) st nowhere, false) := by
  obtain ⟨hfailed, hcast⟩ := FState.castable hst
  simp only [State.performCastAs, flaskOf_eq_some hflask, State.flask_readTrip, if_neg hfailed, hcast, State.readTrip_fw,
    State.not_verifies, hver, htake, Bool.not_true, Bool.false_eq_true, if_false]

variable {c : Container} (htake : (s.readTrip (.mouldRoot f)).takeMould tag signed = (b, .ok c)) (hingot : (b.flask f).ingot = false)
include htake hingot

theorem State.performCastAs_bad {st : Status} {w : Word} (hcheck : c.check b f = .bad st w) :
    s.performCastAs tag flask env signed = (b.castDone tag (some f) st w, false) := by
  obtain ⟨hfailed, hcast⟩ := FState.castable hst
  simp only [State.performCastAs, flaskOf_eq_some hflask, State.flask_readTrip, if_neg hfailed, hcast, State.readTrip_fw,
    State.not_verifies, hver, htake, hingot, hcheck, Bool.not_true, Bool.false_and, Bool.false_eq_true, if_false]

theorem State.performCastAs_ok {r : Nat} (hcheck : c.check b f = .ok r) :
    s.performCastAs tag flask env signed = b.goCast tag f c r env := by
  obtain ⟨hfailed, hcast⟩ := FState.castable hst
  simp only [State.performCastAs, flaskOf_eq_some hflask, State.flask_readTrip, if_neg hfailed, hcast, State.readTrip_fw,
    State.not_verifies, hver, htake, hingot, hcheck, Bool.not_true, Bool.false_and, Bool.false_eq_true, if_false]

end

/-- The refusals of R55 and R59 in the order in which a cast meets them. -/
theorem castRefused : Claims.CastRefused := fun _ _ _ _ _ _ _ hflask =>
  ⟨State.performCastAs_failed hflask, State.performCastAs_wrongState hflask, State.performCastAs_unverifiable hflask,
    fun hst hver => ⟨fun _ => State.performCastAs_unverified hflask hst hver,
      fun _ _ _ htake hingot => State.performCastAs_bad hflask hst hver htake hingot⟩⟩

/-! ### Turns -/

theorem exec_queuedCastStart (s : State) : exec .queuedCastStart s = execQueuedCastStart s := rfl

/-- At once where none waits, else behind those that do; what waits is taken up from the head. -/
theorem castsTakeTurns : Claims.CastsTakeTurns := by
  refine ⟨fun s t h flask env stays => ?_, fun s tag rest c => ?_⟩
  · intro i b hstarts
    have hexec : exec i s = .next (if !b.fw.waiting.isEmpty then b.queueCast h.tag
        else if (b.performCast h.tag flask env).2 then (b.performCast h.tag flask env).1.queueCast h.tag
        else (b.performCast h.tag flask env).1) := State.command_of_starts hstarts _
    refine ⟨fun hnone hcast => ?_, fun hsome => ?_⟩
    · rw [hexec, hnone, hcast]; rfl
    · have hwaits : b.fw.waiting.isEmpty = false := by simpa using hsome
      rw [hexec, hwaits]; rfl
  · intro popped hhead hserves hup hfind
    have hmay : (!s.phase.serves || s.fw.down.contains .scheduler) = false := by simp [hserves, hup]
    refine ⟨fun h flask env t stays hcast hbreak hperform => ?_, fun h flask env hcast hbreak => ?_,
      fun h o l hstage hbreak hsec => ?_⟩
    · simp only [exec_queuedCastStart, execQueuedCastStart, hhead, hmay, hfind, Option.map_some, hcast, hbreak, Bool.false_eq_true,
        if_false]
      rw [hperform]
    · simp only [exec_queuedCastStart, execQueuedCastStart, hhead, hmay, hfind, Option.map_some, hcast, hbreak, Bool.false_eq_true,
        if_false, if_true, popped]
    · have hverifies : (s.breakout || s.fw.down.contains .security) = false := by simp [hbreak, hsec]
      simp only [exec_queuedCastStart, execQueuedCastStart, hhead, hmay, hfind, Option.map_some, hstage, hverifies, Bool.false_eq_true,
        if_false, popped]

end Sys2Proof.Machine
end

section
/-!
The loading of a whole mould: the clusters and granules given to the flask, its cores at their `ENTRY`, its streams wired and its objects
written, each step with what it keeps of the ones before.
-/

open Sys2Proof Sys2Proof.Machine

namespace Sys2Proof.Machine

/-- The flasks, and which flask each cluster belongs to: what loading the cores, streams and objects keeps. -/
def State.charter (s : State) : Tab Flask × Tab Domain := (s.flasks, s.mem.clusterOwner)

/-- Where a core stands in its flask and whether it runs: what wiring its streams and writing objects keeps. -/
def Core.station (k : Core) : Nat × Nat × Domain × RunState := (k.a.pc, k.idx, k.flask, k.run)

variable {s : State}

/-! ### Objects -/

@[simp] theorem Mem.clusterOwner_flipWord (m : Mem) (k : Nat) : (m.flipWord k).clusterOwner = m.clusterOwner := by
  unfold Mem.flipWord; dsimp only; (repeat' split) <;> rfl

@[simp] theorem Mem.clusterOwner_setWord (m : Mem) (k : Nat) (w : TWord) : (m.setWord k w).clusterOwner = m.clusterOwner := by
  unfold Mem.setWord; dsimp only; split <;> simp

@[simp] theorem State.charter_setCore (p : Proc) (k : Core) : (s.setCore p k).charter = s.charter := by simp [State.charter]

@[simp] theorem State.charter_syncWrite (who : Option Proc) (fa : Nat) (w : TWord) : (s.syncWrite who fa w).charter = s.charter := by
  simp [State.charter, State.syncWrite]

@[simp] theorem State.charter_wakeWith (w : Waiter) (r : Reply) : (s.wakeWith w r).charter = s.charter := rfl
@[simp] theorem State.core_wakeWith (w : Waiter) (r : Reply) (p : Proc) : (s.wakeWith w r).core p = s.core p := rfl

@[simp] theorem State.charter_wakeTally (fa : Nat) : (s.wakeTally fa).charter = s.charter := by
  unfold State.wakeTally
  dsimp only
  split
  · rfl
  · exact foldl_keeps (view := State.charter) (fun _ _ => State.charter_wakeWith ..) _ _

@[simp] theorem State.charter_barrierWrite (who : Option Proc) (fa : Nat) (b : Barrier) : (Barrier.write s who fa b).charter = s.charter :=
  foldl_keeps (view := State.charter) (fun _ _ => State.charter_syncWrite ..) _ _

@[simp] theorem State.charter_putObject (cls : List ClusterId) (r : SyncRec) : (s.putObject cls r).charter = s.charter := by
  unfold State.putObject; dsimp only; (repeat' split) <;> simp

/-- The end of a reservation leaves a core where it stands. -/
theorem Tab.station_endResv (line : Nat) (x : Option Proc) (d : Core) (k : Nat) : ∀ t : Tab Core,
    (Tab.get d (State.breakResv.ended line x t) k).station = (Tab.get d t k).station
  | [] => rfl
  | e :: t => by
    have ih := Tab.station_endResv line x d k t
    rw [State.breakResv.ended, List.map_cons]
    split <;> simp only [Tab.get] <;> split
    · rfl
    · exact ih
    · rfl
    · exact ih

@[simp] theorem State.station_breakResv (line : Nat) (x : Option Proc) (p : Proc) :
    ((s.breakResv line x).core p).station = (s.core p).station := by
  unfold State.core State.breakResv
  split <;> exact Tab.station_endResv ..

theorem State.station_syncWrite (who : Option Proc) (fa : Nat) (w : TWord) (p : Proc) :
    ((s.syncWrite who fa w).core p).station = (s.core p).station :=
  State.station_breakResv ..

@[simp] theorem State.core_wakeTally (fa : Nat) (p : Proc) : (s.wakeTally fa).core p = s.core p := by
  unfold State.wakeTally
  dsimp only
  split
  · rfl
  · exact foldl_keeps (view := fun t : State => t.core p) (fun _ _ => State.core_wakeWith ..) _ _

theorem State.station_barrierWrite (who : Option Proc) (fa : Nat) (b : Barrier) (p : Proc) :
    ((Barrier.write s who fa b).core p).station = (s.core p).station :=
  foldl_keeps (view := fun t : State => (t.core p).station) (fun _ _ => State.station_syncWrite ..) _ _

theorem State.station_putObject (cls : List ClusterId) (r : SyncRec) (p : Proc) :
    ((s.putObject cls r).core p).station = (s.core p).station := by
  unfold State.putObject
  dsimp only
  (repeat' split) <;> simp [State.station_syncWrite, State.station_barrierWrite]

/-! ### Streams and cores -/

@[simp] theorem State.charter_wire (f : FlaskId) (r : RouteRec) (n : Nat) : (s.wire f r n).charter = s.charter := by
  unfold State.wire; dsimp only; split <;> simp

theorem State.station_setCore {p : Proc} {k : Core} (hk : k.station = (s.core p).station) (q : Proc) :
    ((s.setCore p k).core q).station = (s.core q).station := by
  by_cases h : q = p
  · rw [h, State.core_setCore, hk]
  · rw [State.core_setCore_ne _ _ h]

theorem State.station_wire (f : FlaskId) (r : RouteRec) (n : Nat) (p : Proc) : ((s.wire f r n).core p).station = (s.core p).station := by
  unfold State.wire
  dsimp only
  split
  · refine State.station_setCore ?_ p
    rfl
  · rfl

@[simp] theorem Mem.clusterOwner_putImage (m : Mem) (c : CoreId) (r : SegtRec) : (m.putImage c r).clusterOwner = m.clusterOwner :=
  foldl_keeps (view := Mem.clusterOwner) (fun _ _ => Mem.clusterOwner_setWord ..) _ _

@[simp] theorem State.charter_loadCore (f : FlaskId) (m : Mould) (i : Nat) : (s.loadCore f m i).charter = s.charter := by
  unfold State.loadCore
  split
  · simp [State.charter]
  · rfl

theorem State.flask_eq_of_charter {t : State} (h : t.charter = s.charter) (f : FlaskId) : t.flask f = s.flask f := by
  rw [State.flask, State.flask, show t.flasks = s.flasks from congrArg Prod.fst h]

theorem State.clusterOwnerOf_eq_of_charter {t : State} (h : t.charter = s.charter) (cl : ClusterId) :
    t.mem.clusterOwnerOf cl = s.mem.clusterOwnerOf cl := by
  rw [Mem.clusterOwnerOf, Mem.clusterOwnerOf, show t.mem.clusterOwner = s.mem.clusterOwner from congrArg Prod.snd h]

/-- In a flask whose clusters are all different, no two core indices name one core. -/
theorem coreAt_inj {cls : List ClusterId} (hcls : cls.Nodup) {i j : Nat} {x : CoreId} (hi : coreAt cls i = some x)
    (hj : coreAt cls j = some x) : i = j := by
  simp only [coreAt, Option.map_eq_some_iff] at hi hj
  obtain ⟨a, ha, hax⟩ := hi
  obtain ⟨b, hb, hbx⟩ := hj
  have hnum : a.toNat * 256 + i % 256 = b.toNat * 256 + j % 256 := by
    have h := congrArg BitVec.toNat (hax.trans hbx.symm)
    simp only [BitVec.toNat_ofNat] at h
    omega
  have hab : a = b := BitVec.eq_of_toNat_eq (by omega)
  rw [hab] at ha
  have hplace : i / 256 = j / 256 := (List.getElem?_inj (List.getElem?_eq_some_iff.mp ha).1 hcls).mp (ha.trans hb.symm)
  omega

/-- A core index of the flask lies below 256 for each of its clusters. -/
theorem lt_of_coreAt {cls : List ClusterId} {i : Nat} {x : CoreId} (h : coreAt cls i = some x) : i < cls.length * 256 := by
  simp only [coreAt, Option.map_eq_some_iff] at h
  obtain ⟨a, ha, -⟩ := h
  have := (List.getElem?_eq_some_iff.mp ha).1
  omega

section
variable {f : FlaskId} {m : Mould} {x : CoreId}

theorem State.core_loadCore_ne {i : Nat} (h : coreAt (s.flask f).clusters i ≠ some x) :
    (s.loadCore f m i).core (.core x) = s.core (.core x) := by
  unfold State.loadCore
  split
  · next hc _ =>
    rw [State.core_setCore_ne _ _ fun e => h (by rw [hc, Proc.core.inj e])]
    rfl
  · rfl

theorem State.core_loadCore {i : Nat} {g : SegtRec} (hx : coreAt (s.flask f).clusters i = some x)
    (hg : m.segts.find? (fun g => g.covers i) = some g) :
    (s.loadCore f m i).core (.core x) = (s.core (.core x)).loaded f m g i := by
  simp only [State.loadCore, hx, hg, State.core_setCore]
  rfl

/-- Cores at other indices than x's leave x as it is. -/
theorem State.core_loadCores_ne (l : List Nat) (h : ∀ i ∈ l, coreAt (s.flask f).clusters i ≠ some x) :
    (l.foldl (fun s i => s.loadCore f m i) s).core (.core x) = s.core (.core x) := by
  induction l generalizing s with
  | nil => rfl
  | cons i l ih =>
    have hflask := State.flask_eq_of_charter (State.charter_loadCore (s := s) f m i) f
    rw [List.foldl_cons, ih (by simpa only [hflask] using fun j hj => h j (List.mem_cons_of_mem _ hj)),
      State.core_loadCore_ne (h i List.mem_cons_self)]

/-- Of the indices loaded in turn one is x's: x is loaded once, from what stood there before. -/
theorem State.core_loadCores (hcls : (s.flask f).clusters.Nodup) {i : Nat} {g : SegtRec} (hx : coreAt (s.flask f).clusters i = some x)
    (hg : m.segts.find? (fun g => g.covers i) = some g) (l : List Nat) (hl : l.Nodup) (hi : i ∈ l) :
    (l.foldl (fun s i => s.loadCore f m i) s).core (.core x) = (s.core (.core x)).loaded f m g i := by
  have hother (j : Nat) (hj : j ≠ i) : coreAt (s.flask f).clusters j ≠ some x := fun h => hj (coreAt_inj hcls h hx)
  induction l generalizing s with
  | nil => simp at hi
  | cons j l ih =>
    obtain ⟨hjl, hl⟩ := List.nodup_cons.mp hl
    have hflask := State.flask_eq_of_charter (State.charter_loadCore (s := s) f m j) f
    rw [List.foldl_cons]
    by_cases hji : j = i
    · subst hji
      rw [State.core_loadCores_ne l, State.core_loadCore hx hg]
      intro k hk
      rw [hflask]
      exact hother k fun e => hjl (e ▸ hk)
    · have hil : i ∈ l := (List.mem_cons.mp hi).resolve_left (Ne.symm hji)
      rw [ih (by rwa [hflask]) (by rwa [hflask]) hl hil (by simpa only [hflask] using hother), State.core_loadCore_ne (hother j hji)]

end

/-! ### The whole mould -/

theorem State.charter_loadAll (f : FlaskId) (m : Mould) : (s.loadAll f m).charter = s.charter := by
  unfold State.loadAll
  dsimp only
  rw [foldl_keeps (view := State.charter) fun _ _ => State.charter_putObject ..,
    foldl_keeps (view := State.charter) fun _ _ => State.charter_wire ..,
    foldl_keeps (view := State.charter) fun _ _ => State.charter_loadCore ..]

/-- A core of the flask that a record of the mould names stands as that record loads it. -/
theorem State.station_loadAll {f : FlaskId} {m : Mould} (hcls : (s.flask f).clusters.Nodup) {i : Nat} {x : CoreId} {g : SegtRec}
    (hx : coreAt (s.flask f).clusters i = some x) (hg : m.segts.find? (fun g => g.covers i) = some g) :
    ((s.loadAll f m).core (.core x)).station = ((s.core (.core x)).loaded f m g i).station := by
  unfold State.loadAll
  dsimp only
  rw [foldl_keeps (view := fun t : State => (t.core (.core x)).station) fun _ _ => State.station_putObject ..,
    foldl_keeps (view := fun t : State => (t.core (.core x)).station) fun _ _ => State.station_wire ..,
    State.core_loadCores hcls hx hg _ List.nodup_range (List.mem_range.mpr (lt_of_coreAt hx))]

/-! ### What the flask is given -/

@[simp] theorem State.giveCluster_cores (d : Domain) (cl : ClusterId) : (s.giveCluster d cl).cores = s.cores := by
  unfold State.giveCluster; dsimp only; (repeat' split) <;> rfl

theorem State.clusterOwnerOf_giveCluster (d : Domain) (cl cl' : ClusterId) :
    (s.giveCluster d cl).mem.clusterOwnerOf cl' = if cl' = cl then d else s.mem.clusterOwnerOf cl' := by
  have htable : (s.giveCluster d cl).mem.clusterOwner = Tab.put 0x1FF s.mem.clusterOwner cl.toNat d := by
    unfold State.giveCluster; dsimp only; (repeat' split) <;> rfl
  rw [Mem.clusterOwnerOf, htable]
  split
  · next h => rw [h, Tab.get_put_self]
  · next h => rw [Tab.get_put_ne _ _ _ fun e => h (BitVec.eq_of_toNat_eq e), Mem.clusterOwnerOf]

theorem State.clusterOwnerOf_giveClusters (d : Domain) (cls : List ClusterId) (cl : ClusterId) :
    (cls.foldl (fun s cl => s.giveCluster d cl) s).mem.clusterOwnerOf cl = if cl ∈ cls then d else s.mem.clusterOwnerOf cl := by
  induction cls generalizing s with
  | nil => rfl
  | cons a cls ih =>
    rw [List.foldl_cons, ih, State.clusterOwnerOf_giveCluster]
    by_cases hmem : cl ∈ cls
    · rw [if_pos hmem, if_pos (List.mem_cons_of_mem _ hmem)]
    · simp only [hmem, if_false, List.mem_cons, or_false]

@[simp] theorem State.giveGranule_cores (d : Domain) (g : Nat) : (s.giveGranule d g).cores = s.cores := rfl
@[simp] theorem State.giveGranule_clusterOwner (d : Domain) (g : Nat) : (s.giveGranule d g).mem.clusterOwner = s.mem.clusterOwner := rfl

@[simp] theorem Mem.clusterOwner_writeTrip (m : Mem) (w : Nat) : (m.writeTrip w).clusterOwner = m.clusterOwner := by
  unfold Mem.writeTrip; dsimp only; (repeat' split) <;> rfl

@[simp] theorem State.charter_writeTrip (w : TripWord) : (s.writeTrip w).charter = s.charter := by
  simp [State.charter, State.writeTrip]

/-- What a full cast loads the flask's cores over: the cores as they stood, in a flask that has its clusters, granules and mould. -/
theorem State.castFull_loads (f : FlaskId) (c : Container) (r : Nat) : ∃ t : State,
    s.castFull f c r = t.loadAll f (c.mouldAfter (s.flask f)) ∧ t.cores = s.cores ∧
      (t.flask f).clusters = c.clustersAfter r ∧ (t.flask f).granules = c.granulesAfter s (s.flask f) r ∧
      (t.flask f).mould = some (c.mouldAfter (s.flask f)) ∧ (t.flask f).rot.toNat = r % 8 ∧
      ∀ cl ∈ c.clustersAfter r, t.mem.clusterOwnerOf cl = flaskDom f := by
  refine ⟨_, rfl, ?_, ?_, ?_, ?_, ?_, fun cl hcl => ?_⟩
  · rw [State.writeTrip_cores, State.setFlask_cores, foldl_keeps (view := State.cores) fun _ _ => State.setCluster_cores ..,
      foldl_keeps (view := State.cores) fun _ _ => State.giveGranule_cores ..,
      foldl_keeps (view := State.cores) fun _ _ => State.giveCluster_cores ..]
  iterate 3 rw [State.flask_eq_of_charter (State.charter_writeTrip _), State.flask_setFlask]
  · rw [State.flask_eq_of_charter (State.charter_writeTrip _), State.flask_setFlask, BitVec.toNat_ofNat]
  · have howner : (((c.clustersAfter r).foldl (fun s cl => s.giveCluster (flaskDom f) cl) s).mem.clusterOwnerOf cl) = flaskDom f := by
      rw [State.clusterOwnerOf_giveClusters, if_pos hcl]
    rw [State.clusterOwnerOf_eq_of_charter (State.charter_writeTrip _), State.setFlask_mem, Mem.clusterOwnerOf,
      foldl_keeps (view := fun t : State => t.mem.clusterOwner) fun _ _ => congrArg Mem.clusterOwner (State.setCluster_mem ..),
      foldl_keeps (view := fun t : State => t.mem.clusterOwner) fun _ _ => State.giveGranule_clusterOwner ..]
    exact howner

/-! ### A full cast -/

/-- The checks passed and nothing cuts the cast short: it loads the mould and ends with success. -/
theorem State.goCast_full {tag : Word} {f : FlaskId} {c : Container} {r : Nat} {env : CastEnv} (hload : env.loadFault = none)
    (hcut : env.cut = .none) (hfull : c.isPartial = false) :
    s.goCast tag f c r env = ((s.castFull f c r).castDone tag (some f) St.success nowhere, false) := by
  simp only [State.goCast, hload, hcut, CastCut_status, hfull, Bool.not_false, if_true]

/-- The mould's cores stand at their `ENTRY` in a flask that holds its clusters and granules. -/
theorem castSucceeds : Claims.CastSucceeds := by
  intro s b tag flask env signed f c r fl cls hflask hst hver htake hcheck hingot hload hcut hfull
  obtain ⟨t, hcast, hcores, hclusters, hgranules, hmould, hrot, howner⟩ := State.castFull_loads (s := b) f c r
  have hcharter := State.charter_loadAll (s := t) f (c.mouldAfter fl)
  have hbefore (x : CoreId) : t.core (.core x) = s.core (.core x) := by
    have htaken : b.cores = s.cores := by
      simpa only [htake, State.readTrip_cores] using
        (State.roster_eq_iff.mp (State.roster_takeMould (s := s.readTrip (.mouldRoot f)) tag signed)).2
    simp only [State.core, procIsCore, if_true, hcores, htaken]
  refine ⟨t.loadAll f (c.mouldAfter fl), ?_, ?_, ?_, ?_, ?_, fun cl hcl => ?_, fun hnodup i x g hx hg => ?_⟩
  · rw [State.performCastAs_ok hflask hst hver htake hingot hcheck, State.goCast_full hload hcut hfull, hcast]
  · rw [State.flask_eq_of_charter hcharter, hclusters]
  · rw [State.flask_eq_of_charter hcharter, hgranules]
  · rw [State.flask_eq_of_charter hcharter, hmould]
  · rw [State.flask_eq_of_charter hcharter, hrot]
  · rw [State.clusterOwnerOf_eq_of_charter hcharter, howner cl hcl]
  · have hstation := State.station_loadAll (s := t) (m := c.mouldAfter fl) (by rwa [hclusters]) (by rwa [hclusters]) hg
    simp only [hbefore, Core.station, Prod.mk.injEq] at hstation
    obtain ⟨hpc, hidx, hdom, hrun⟩ := hstation
    refine ⟨hpc, hidx, hdom, hrun.trans ?_⟩
    simp only [Core.loaded, Bool.and_eq_true, Bool.not_eq_true']

end Sys2Proof.Machine

namespace Sys2Proof

/-- Settles O31: which mould a cast works from, the checks that end it, what its success leaves, and its turns. -/
theorem castsLoadFlasks : Obligations.CastsLoadFlasks :=
  ⟨Machine.castSucceeds, Machine.mouldIsVerified, Machine.castRefused, Machine.castsTakeTurns⟩

end Sys2Proof
end

section
/-!
Which operations leave the stores alone or keep their canonical form: records, completions, events and notes.
-/

namespace Sys2Proof.Machine

variable {s : State}

@[simp] theorem State.raiseMsix_mem (e : Ep) (entry : Nat) : (s.raiseMsix e entry).mem = s.mem := by
  unfold State.raiseMsix; split <;> simp

@[simp] theorem State.sendNote_mem (e : Ep) : (s.sendNote e).mem = s.mem := by simp [State.sendNote]

@[simp] theorem State.notifyOwner_mem : s.notifyOwner.mem = s.mem := by
  unfold State.notifyOwner; dsimp only; (repeat' split) <;> simp

@[simp] theorem State.signal_mem (l : LadleRef) (quiet : Bool) : (s.signal l quiet).mem = s.mem := by
  unfold State.signal; dsimp only; (repeat' split) <;> simp

@[simp] theorem State.logRecord_mem (code : BitVec 16) (source sev : Nat) (tap : Bool) (flask : Domain) (cl : Option ClusterId)
    (data : List Byte) : (s.logRecord code source sev tap flask cl data).mem = s.mem := rfl

@[simp] theorem State.tapBy_mem (source : Nat) (cl : Option ClusterId) (n : Nat) (flask : Domain) :
    (s.tapBy source cl n flask).mem = s.mem := by
  unfold State.tapBy; split <;> simp

@[simp] theorem State.tap_mem (n : Nat) (flask : Domain) : (s.tap n flask).mem = s.mem := by simp [State.tap]

@[simp] theorem State.modCore_mem (p : Proc) (f : Core → Core) : (s.modCore p f).mem = s.mem := by simp [State.modCore]

@[simp] theorem State.loseLocks_mem (p : Proc) : (s.loseLocks p).mem = s.mem := by
  unfold State.loseLocks; split <;> simp

@[simp] theorem State.mapClusters_mem (f : Cluster → Cluster) : (s.mapClusters f).mem = s.mem := by
  unfold State.mapClusters; exact foldl_keeps (view := State.mem) (fun _ _ => by simp) _ _

@[simp] theorem State.sendReq_mem (p : Proc) (d : Desc) (seg : BitVec 3) (off : Int) (fa : Nat) (posted : Bool) (op : MemOp) :
    (s.sendReq p d seg off fa posted op).mem = s.mem := by
  unfold State.sendReq; split <;> simp

@[simp] theorem State.setResv_mem (p : Proc) (fa : Nat) : (s.setResv p fa).mem = s.mem := by simp [State.setResv]

@[simp] theorem State.takeWord_mem (p : Proc) (q : Port) : (s.takeWord p q).mem = s.mem := by
  unfold State.takeWord; dsimp only; (repeat' split) <;> simp

@[simp] theorem State.syncReply_mem (r : SyncReq) (x : Reply) : (s.syncReply r x).mem = s.mem := rfl

@[simp] theorem State.fenceDrop_mem (p : Proc) : (s.fenceDrop p).mem = s.mem := by
  unfold State.fenceDrop; split <;> simp

@[simp] theorem State.ringSq_mem (l : LadleRef) (tail : Nat) : (s.ringSq l tail).mem = s.mem := by
  unfold State.ringSq; dsimp only; (repeat' split) <;> simp

/-! ### The admin ladle lies outside the stores -/

@[simp] theorem State.putEntry_admin_mem (e : Entry) : (s.putEntry .admin e).mem = s.mem := by simp [State.putEntry]

@[simp] theorem State.reportLost_admin_mem : (s.reportLost .admin).mem = s.mem := by
  unfold State.reportLost; dsimp only; split <;> simp

@[simp] theorem State.deliver_admin_mem (e : Entry) : (s.deliver .admin e).mem = s.mem := by
  unfold State.deliver; dsimp only; (repeat' split) <;> simp

@[simp] theorem State.postOwner_mem (code : BitVec 16) (status : Status) (src : Nat) (result : List Byte) :
    (s.postOwner code status src result).mem = s.mem := by
  simp [State.postOwner]

end Sys2Proof.Machine
end

section
/-!
The instructions of a processor keep the canonical form of the stores.
-/

namespace Sys2Proof.Machine

variable {s : State}

/-! ### What an operation answers beside its state -/

theorem wf_fst {α : Type} {r : State × α} {t : State} {x : α} (h : r.1.mem.wf = true) (e : r = (t, x)) : t.mem.wf = true := by
  rw [e] at h; exact h

/-- A fold of steps that keep the form keeps it; the steps may depend on the list. -/
theorem foldl_wf_snd {β γ : Type} {f : γ × State → β → γ × State} (hf : ∀ r b, r.2.mem.wf = true → (f r b).2.mem.wf = true) :
    ∀ (l : List β) {r : γ × State}, r.2.mem.wf = true → (l.foldl f r).2.mem.wf = true
  | [], _, h => h
  | b :: l, _, h => foldl_wf_snd hf l (hf _ b h)

/-! ### Bodies and their issue -/

@[simp] theorem Body.keeps_ok {t : State} : (Body.ok t).keeps ↔ t.mem.wf = true := Iff.rfl
@[simp] theorem Body.keeps_jump {t : State} {pc : Nat} : (Body.jump t pc).keeps ↔ t.mem.wf = true := Iff.rfl
@[simp] theorem Body.keeps_trap {t : State} {x : TrapInfo} : (Body.trap t x).keeps ↔ t.mem.wf = true := Iff.rfl
@[simp] theorem Body.keeps_wait {t : State} {w : Wait} : (Body.wait t w).keeps ↔ t.mem.wf = true := Iff.rfl

theorem keeps_issue {p : Proc} {cond : BitVec 4} {legal : Bool} {flow : Flow} {body : State → Body} (hw : s.mem.wf = true)
    (hb : ∀ t : State, t.mem.wf = true → (body t).keeps) : Keeps (.next (s.issue p cond legal flow body)) :=
  Keeps.next.2 (State.issue_wf p cond legal flow hw hb)

/-! ### Classes 0x0 to 0x4 -/

section
variable {p : Proc} (hw : s.mem.wf = true)
include hw

theorem aluR_keeps {f : AluR} {rule : TWord → TWord → Except TrapInfo Tag} {op : Word → Word → Stat → Word × FlagSet} :
    Keeps (aluR p f rule op s) := keeps_issue hw fun t ht => by dsimp only; split <;> simp [writeResult, ht]

theorem aluU_keeps {f : AluR} {op : Word → Word × FlagSet} : Keeps (aluU p f op s) :=
  keeps_issue hw fun t ht => by dsimp only; split <;> simp [writeResult, ht]

theorem aluI_keeps {f : AluI} {imm : Word} {rule : TWord → TWord → Except TrapInfo Tag} {op : Word → Word → Word × FlagSet} :
    Keeps (aluI p f imm rule op s) := keeps_issue hw fun t ht => by dsimp only; split <;> simp [writeResult, ht]

theorem fpOp_keeps {f : FpF} {ops : Core → List TWord} {want res : Tag} {op : Core → Word × FFlags} :
    Keeps (fpOp p f ops want res op s) := keeps_issue hw fun t ht => by dsimp only; split <;> simp [ht]

theorem fp1_keeps {f : FpF} {want res : Tag} {op : Word → Word × FFlags} : Keeps (fp1 p f want res op s) := fpOp_keeps hw

theorem fp2_keeps {f : FpF} {want res : Tag} {op : Word → Word → Word × FFlags} : Keeps (fp2 p f want res op s) := fpOp_keeps hw

/-! ### Loads, stores and atomics -/

theorem ldDone_keeps {f : MemF} {fa : Nat} {w : TWord} : (ldDone p f fa w s).keeps := by simp [ldDone, hw]

theorem ldcDone_keeps {f : MemF} {fa : Nat} {w : TWord} : (ldcDone p f fa w s).keeps := by
  unfold ldcDone; dsimp only; split <;> simp [hw]

theorem ldsubDone_keeps {f : MemF} {fa : Nat} {lost : Bool} {w : TWord} :
    (ldsubDone p f fa lost w s).keeps := by simp [ldsubDone, hw]

theorem tasDone_keeps {f : MemF} {fa : Nat} {old : TWord} {z : Bool} : (tasDone p f fa old z s).keeps := by simp [tasDone, hw]

theorem scondDone_keeps {f : MemF} {ok : Bool} : (scondDone p f ok s).keeps := by simp [scondDone, hw]

/-- A load reads at its home at once, or sends its request. -/
theorem loadBody_keeps {i : Instr} {f : MemF} {disp : Int} {size : Nat} {need : Need} {op : MemOp}
    {done : Nat → Bool → TWord → State → Body} (hdone : ∀ fa lost w (t : State), t.mem.wf = true → (done fa lost w t).keeps) :
    (loadBody p i f disp size need op done s).keeps := by
  unfold loadBody
  split
  · exact hw
  split
  · exact hw
  split
  · split <;> next e => exact hdone _ _ _ _ (wf_fst (State.coreLoad_wf p _ hw) e)
  · simp [hw]

theorem storeBody_keeps {i : Instr} {f : MemF} {disp : Int} {n : Nat} : (storeBody p i f disp n s).keeps := by
  unfold storeBody localStore
  dsimp only
  (repeat' split) <;> simp [hw]

theorem tasBody_keeps {f : MemF} : (tasBody p f s).keeps := by
  unfold tasBody
  split
  · exact hw
  split
  · exact hw
  next off pl _ =>
  have htas := State.homeTas_wf p pl.fa .core .stored (State.beforeWrite_wf p pl.fa hw)
  split
  · exact hw
  split
  · split
    · exact hw
    split
    · next e => exact tasDone_keeps (wf_fst htas e)
    · next e => exact wf_fst htas e
    · next e => exact tasDone_keeps (wf_fst htas e)
  · simp [hw]

theorem scondBody_keeps {f : MemF} : (scondBody p f s).keeps := by
  unfold scondBody
  dsimp only
  split
  · exact hw
  split
  · exact hw
  next off pl _ =>
  have hcond := State.homeScond_wf p pl.fa ((s.core p).reg (scondRs f)) .core .stored (State.beforeWrite_wf p pl.fa hw)
  split
  · exact hw
  split
  · split
    · exact hw
    split
    · next e => exact scondDone_keeps (wf_fst hcond e)
    · next e => exact wf_fst hcond e
    · next e => exact scondDone_keeps (wf_fst hcond e)
  · simp [hw]

/-! ### Branches, calls and returns -/

theorem branchTo_keeps {t : Int} : (branchTo p s t).keeps := by
  unfold branchTo; split <;> exact hw

end

section
variable {p : Proc}

/-- The stores of a call, whether one of them traps or none. -/
theorem callStores_keeps (ws : List TWord) : ∀ {s : State} (sp : Int) (n : Nat), s.mem.wf = true →
    (storesLeave (callStores p s sp n ws)).mem.wf = true := by
  induction ws with
  | nil => exact fun _ _ hw => hw
  | cons w ws ih =>
    intro s sp n hw
    unfold callStores
    dsimp only
    split
    · exact hw
    split
    · exact hw
    next pl _ =>
    have hstore := State.homeStore_wf pl.fa 4 w .core .stored (State.beforeWrite_wf p pl.fa hw)
    split
    · split
      · next e => exact wf_fst hstore e
      · next e => exact ih _ _ (wf_fst hstore e)
    · exact ih _ _ (by simp [hw])

theorem callDone_keeps {f : CallF} (hw : s.mem.wf = true) : (callDone p f s).keeps := by simp [callDone, hw]

theorem callBody_keeps {f : CallF} (hw : s.mem.wf = true) : (callBody p f s).keeps := by
  have hstores := callStores_keeps (p := p) (callWords (s.core p) f.mask) (segOff ((s.core p).reg 14).payload false 0) 0 hw
  unfold callBody
  dsimp only
  split
  · exact hw
  split
  · exact hw
  split
  · exact hw
  split
  · next e => rw [e] at hstores; exact hstores
  · next e => rw [e] at hstores; exact callDone_keeps hstores
  · next e => rw [e] at hstores; exact hstores

theorem retDone_keeps {got : List TWord} (hw : s.mem.wf = true) : (retDone p got s).keeps := by
  unfold retDone; dsimp only; split <;> simp [hw]

/-- The next load of a return, where the loads behind it keep the form. -/
theorem retNext_keeps {f : JmpF} {got : List TWord} {sp : Int} {fuel : Nat}
    (ih : ∀ got (t : State), t.mem.wf = true → (retLoads p f got t fuel).keeps) (hw : s.mem.wf = true) :
    (retLoads.retNext p f got s sp fuel).keeps := by
  unfold retLoads.retNext
  dsimp only
  split
  · exact hw
  split
  · exact hw
  split
  · split <;> next e => exact ih _ _ (wf_fst (State.coreLoad_wf p _ hw) e)
  · simp [hw]

theorem retLoads_keeps {f : JmpF} (fuel : Nat) : ∀ got (s : State), s.mem.wf = true → (retLoads p f got s fuel).keeps := by
  induction fuel with
  | zero => intro got s hw; unfold retLoads; exact retDone_keeps hw
  | succ fuel ih =>
    intro got s hw
    have hgo (c : Prop) [Decidable c] (got : List TWord) (sp : Int) :
        (if c then retDone p got s else retLoads.retNext p f got s sp fuel).keeps := by
      split
      · exact retDone_keeps hw
      · exact retNext_keeps ih hw
    unfold retLoads
    dsimp only
    split
    · split
      · exact hw
      · exact hgo ..
    · exact hgo ..

end

/-! ### Ports and synchronisation -/

section
variable {p : Proc} (hw : s.mem.wf = true)

@[simp] theorem State.sendWord_mem (q : Port) (w : TWord) : (s.sendWord p q w).mem = s.mem := by
  unfold State.sendWord; dsimp only; split <;> simp

@[simp] theorem State.landEnd_mem (key : LandKey) : (s.landEnd key).mem = s.mem := rfl

@[simp] theorem State.travel_mem (a b kind n : Nat) : (s.travel a b kind n).mem = s.mem := by
  unfold State.travel
  split
  · exact foldl_keeps (view := State.mem) (fun _ _ => State.hubCount_mem ..) _ _
  · rfl

include hw

theorem recvBody_keeps {f : StrF} : (recvBody p f s).keeps := by
  unfold recvBody; split <;> simp [hw]

theorem sendBody_keeps {f : StrF} : (sendBody p f s).keeps := by
  unfold sendBody; dsimp only; (repeat' split) <;> simp [hw]

theorem waitanyBody_keeps {f : StrF} : (waitanyBody p f s).keeps := by
  unfold waitanyBody; split <;> simp [hw]

theorem syncBody_keeps {i : Instr} {f : SyncF} {kind : SyncKind} : (syncBody p i f kind s).keeps := by
  unfold syncBody; dsimp only; (repeat' split) <;> exact hw

theorem fenceBody_keeps {f : SyncF} : (fenceBody p f s).keeps := by
  unfold fenceBody; split <;> exact hw

/-! ### Engines -/

theorem State.enqueue_wf {e : BitVec 2} {op : EngOp} {t : State} (h : s.enqueue p e op = some t) : t.mem.wf = true := by
  unfold State.enqueue at h
  dsimp only at h
  split at h
  · cases h
  · cases h; simp [hw]

/-- The report of an engine's error. -/
theorem State.engReport_keeps {es : List (BitVec 2)} {b : Body} (h : s.engReport p es = some b) : b.keeps := by
  induction es with
  | nil => cases h
  | cons e es ih =>
    unfold State.engReport at h
    dsimp only at h
    split at h
    · cases h; simp [hw]
    · exact ih h

theorem engQueue_keeps {i : Instr} {e : BitVec 2} {op : EngOp} : (engQueue p i e op s).keeps := by
  unfold engQueue
  split
  · next h => exact State.engReport_keeps hw h
  split
  · next h => exact State.enqueue_wf hw h
  · exact hw

theorem edotBody_keeps {f : EdotF} : (edotBody p f s).keeps := by
  unfold edotBody
  dsimp only
  split
  · exact hw
  split
  · exact hw
  · exact engQueue_keeps hw

theorem packBody_keeps {i : Instr} {f : PackF} {isPack : Bool} : (packBody p i f isPack s).keeps := by
  unfold packBody
  dsimp only
  split
  · exact hw
  split
  · split
    · next h => exact State.engReport_keeps hw h
    · exact hw
  split
  · exact hw
  · exact engQueue_keeps hw

/-- An instruction that reads idle engines. -/
theorem engIdle_keeps {i : Instr} {es : List (BitVec 2)} {done : State → Body}
    (hdone : ∀ t : State, t.mem.wf = true → (done t).keeps) :
    (engIdle p i es s done).keeps := by
  unfold engIdle
  dsimp only
  split
  · next e => exact State.engReport_keeps hw e
  split
  · exact hdone _ (by simp [hw])
  · exact hw

theorem erdBody_keeps {f : ErdF} : (erdBody p f s).keeps := engIdle_keeps hw fun t ht => by simp [ht]

theorem ewaitBody_keeps {f : EwaitF} : (ewaitBody p f s).keeps := engIdle_keeps hw fun _ ht => ht

theorem edriftBody_keeps {f : EdriftF} : (edriftBody p f s).keeps := engIdle_keeps hw fun t ht => by simp [ht]

/-! ### Classes 0xD and 0xE -/

theorem bmvBody_keeps {f : BmvF} : (bmvBody p f s).keeps := by
  unfold bmvBody State.askMove; dsimp only; (repeat' split) <;> simp [hw]

theorem bwaitBody_keeps {f : BwaitF} : (bwaitBody p f s).keeps := by
  unfold bwaitBody; dsimp only; (repeat' split) <;> simp [hw]

theorem giveInt_keeps {f : SysF} {v : Word} : (giveInt p f s v).keeps := by simp [giveInt, hw]

theorem withInt_keeps {f : SysF} {body : Word → Body} (hbody : ∀ v, (body v).keeps) : (withInt p f s body).keeps := by
  unfold withInt
  dsimp only
  split
  · exact hw
  · exact hbody _

theorem haltBody_keeps {f : SysF} : (haltBody p f s).keeps := by
  unfold haltBody; dsimp only; split <;> exact hw

end

@[simp] theorem State.readPm_mem (p : Proc) (i : BitVec 2) : (s.readPm p i).2.mem = s.mem := by
  unfold State.readPm; dsimp only; split <;> rfl

@[simp] theorem State.identity_mem (p : Proc) (imm : Nat) : (s.identity p imm).2.mem = s.mem := by
  unfold State.identity; dsimp only; (repeat' split) <;> rfl

end Sys2Proof.Machine
end

section
/-!
What reaches a home or a core from outside keeps the canonical form of the stores: synchronization, memory, streams and timers.
-/

namespace Sys2Proof.Machine

variable {s : State}

/-! ### Synchronisation at the home -/

@[simp] theorem wordsOk_wf (fa : Nat) (lock : Bool) (n : Nat) (hw : s.mem.wf = true) : (wordsOk s fa lock n).2.mem.wf = true := by
  unfold wordsOk; exact foldl_wf_snd (fun _ _ hs => by simp [hs]) _ hw

@[simp] theorem Barrier.write_wf (who : Option Proc) (fa : Nat) (b : Barrier) (hw : s.mem.wf = true) :
    (Barrier.write s who fa b).mem.wf = true := by
  unfold Barrier.write; exact foldl_wf (fun _ _ hs => by simp [hs]) _ (by simp [hw])

@[simp] theorem State.anyResult_wf (r : SyncReq) (hw : s.mem.wf = true) : (s.anyResult r).mem.wf = true := by
  unfold State.anyResult; exact foldl_wf (fun _ _ hs => by simp [hs]) _ (by simp [hw])

theorem State.land_wf {r : SyncReq} {waits : Bool} {fa : Nat} {b : Barrier} {round : BitVec 2} (hw : s.mem.wf = true) :
    (State.arrive.land s r waits fa b round).mem.wf = true := by
  unfold State.arrive.land
  split
  · dsimp only; split <;> simp [hw]
  next t e =>
  have ht : t.mem.wf = true := by
    split at e
    · exact State.addWaiter_wf hw e
    · cases e; exact hw
  dsimp only
  simp [ht]

@[simp] theorem State.arrive_wf (r : SyncReq) (waits : Bool) (hw : s.mem.wf = true) : (s.arrive r waits).mem.wf = true := by
  unfold State.arrive
  dsimp only
  split
  · simp [hw]
  split
  · split <;> simp [hw]
  split
  · simp [hw]
  split
  · exact State.land_wf hw
  split
  · split
    · simp [hw]
    · exact State.land_wf hw
  · simp [hw]

@[simp] theorem State.leaveBarrier_mem (r : MemRep) : (s.leaveBarrier r).mem = s.mem := by
  unfold State.leaveBarrier; dsimp only; split <;> simp

@[simp] theorem State.syncAt_wf (r : SyncReq) (hw : s.mem.wf = true) : (s.syncAt r).mem.wf = true := by
  unfold State.syncAt
  dsimp only
  generalize (if r.kind.object = 2 then 8 else 1) = n
  have hok := wordsOk_wf r.addr.toNat (decide (r.kind.object = 3)) n hw
  generalize wordsOk s r.addr.toNat (decide (r.kind.object = 3)) n = ok at hok
  by_cases hvalid : (!faValid r.addr.toNat) = true
  · simp [hvalid, hw]
  rw [if_neg hvalid]
  by_cases hhome : (!homeOk s r.dom r.addr.toNat) = true
  · simp [hhome, hw]
  rw [if_neg hhome]
  refine ite_wf (State.anyResult_wf r hw) (ite_wf (by simp [hok]) (ite_wf (State.anyResult_wf r hok) ?_))
  split <;> simp [hok]

@[simp] theorem execSyncOpAtHome_keeps {req : Nat} (hw : s.mem.wf = true) : Keeps (execSyncOpAtHome req s) := by
  unfold execSyncOpAtHome; dsimp only; (repeat' split) <;> simp [hw]

theorem syncEnd_keeps {p : Proc} {f : SyncF} {kind : SyncKind} {w : Wait} {r : MemRep} (hw : s.mem.wf = true) :
    (syncEnd p f kind w r s).keeps := by
  unfold syncEnd; dsimp only; (repeat' split) <;> simp [hw]

@[simp] theorem execSyncReply_keeps {p : Proc} (hw : s.mem.wf = true) : Keeps (execSyncReply p s) := by
  unfold execSyncReply
  split
  · simp [hw]
  next r _ =>
  dsimp only
  generalize e : State.travel _ _ _ _ _ = t
  have ht : t.mem.wf = true := by rw [← e]; simp [hw]
  clear e
  split
  · rw [Keeps.next]
    split
    · split <;> exact ht
    · exact ht
  split
  · split
    · split
      · exact Keeps.next.2 (State.settle_wf _ _ (syncEnd_keeps ht))
      · split <;> simp [ht]
    · split <;> simp [ht]
  · split
    · simp [ht]
    split
    · simp [ht]
    · split <;> simp [ht]

@[simp] theorem execSyncWaitRetry_keeps {p : Proc} (hw : s.mem.wf = true) : Keeps (execSyncWaitRetry p s) := by
  unfold execSyncWaitRetry
  split
  · split
    · split
      · simp [hw]
      · exact Keeps.next.2 (State.settle_wf _ _ (syncBody_keeps (by simp [hw])))
    · simp [hw]
  · simp [hw]

@[simp] theorem execLockAbandon_keeps {c : CoreId} (hw : s.mem.wf = true) : Keeps (execLockAbandon c s) :=
  Keeps.next.2 (foldl_wf (fun _ _ hs => by simp [hs]) _ hw)

/-! ### Waiting instructions -/

/-- What a waiting instruction does when it is looked at again. -/
theorem waitBody_keeps {p : Proc} {w : Wait} {b : State → Body} (e : waitBody p w = some b) (hw : s.mem.wf = true) :
    (b s).keeps := by
  unfold waitBody at e
  split at e
  case h_1 => cases e; exact recvBody_keeps hw
  case h_2 => cases e; exact waitanyBody_keeps hw
  case h_3 => cases e; exact sendBody_keeps hw
  case h_4 => cases e; exact haltBody_keeps hw
  case h_5 => cases e; exact fenceBody_keeps hw
  case h_6 => cases e; exact edotBody_keeps hw
  case h_7 | h_8 => cases e; exact packBody_keeps hw
  case h_9 => cases e; exact engQueue_keeps hw
  case h_10 => cases e; exact erdBody_keeps hw
  case h_11 => cases e; exact ewaitBody_keeps hw
  case h_12 => cases e; exact edriftBody_keeps hw
  case h_13 => cases e; exact bmvBody_keeps hw
  case h_14 => cases e; exact bwaitBody_keeps hw
  case h_15 | h_16 | h_17 => cases e; exact storeBody_keeps hw
  case h_18 => split at e <;> cases e; exact tasBody_keeps hw
  case h_19 => split at e <;> cases e; exact scondBody_keeps hw
  case h_20 => split at e <;> cases e; exact callBody_keeps hw
  case h_21 | h_22 | h_23 => split at e <;> cases e; exact syncBody_keeps hw
  case h_24 => cases e

@[simp] theorem State.rerun_wf (p : Proc) (hw : s.mem.wf = true) : (s.rerun p).mem.wf = true := by
  unfold State.rerun
  split
  · exact hw
  split
  · exact hw
  split
  · exact hw
  · next e => exact State.settle_wf _ _ (waitBody_keeps e hw)

/-! ### Accesses at their homes -/

@[simp] theorem State.replied_mem (p : Proc) (fa : Nat) : (s.replied p fa).mem = s.mem := by
  unfold State.replied; split <;> simp

@[simp] theorem State.performMem_wf (r : MemReq) (ecc : EccReport) (hw : s.mem.wf = true) :
    (s.performMem r ecc).1.mem.wf = true := by
  unfold State.performMem; dsimp only; (repeat' split) <;> simp [hw]

/-- Granules are cleared one by one. -/
theorem Mem.wf_clearGranules {m : Mem} (gs : List Nat) (h : m.wf = true) : (gs.foldl Mem.clearGranule m).wf = true :=
  List.foldlRecOn (motive := fun m : Mem => m.wf = true) gs _ h fun _ ih g _ => Mem.wf_clearGranule g ih

@[simp] theorem State.endTake_wf (t : Take) (st : Status) (hw : s.mem.wf = true) : (s.endTake t st).mem.wf = true := by
  have hclear := Mem.wf_clearGranules (t.image ++ t.shadow) hw
  rw [List.foldl_append] at hclear
  unfold State.endTake
  dsimp only
  split
  · simp [hclear]
  · exact State.postFlask_wf _ _ _ _ _ (by simp [hclear])

@[simp] theorem State.streamOn_wf (hw : s.mem.wf = true) : s.streamOn.mem.wf = true := by
  unfold State.streamOn
  split
  · exact hw
  · exact foldl_wf (fun t _ ht => by dsimp only; exact Mem.mk_wf (m := t.mem) ht ..) _ hw

@[simp] theorem State.askCopies_wf (gs : List Nat) (hw : s.mem.wf = true) : (s.askCopies gs).mem.wf = true := by
  have hend : ((s.streamOn.spent gs).foldl (fun s t => s.endTake t 0x00D1) s.streamOn).mem.wf = true :=
    foldl_wf (fun _ _ hs => by simp [hs]) _ (by simp [hw])
  unfold State.askCopies
  exact Mem.mk_wf hend ..

@[simp] theorem State.moveWaits_wf (m : Move) (i n : Nat) (hw : s.mem.wf = true) : (s.moveWaits m i n).2.mem.wf = true := by
  unfold State.moveWaits; dsimp only; (repeat' split) <;> simp [hw]

@[simp] theorem State.moveGoes_wf (p : Proc) (slot : BitVec 2) (m : Move) (all : Bool) (hw : s.mem.wf = true) :
    (s.moveGoes p slot m all).mem.wf = true := by
  have hgo (l : List (Nat × Nat)) {t : State} (ht : t.mem.wf = true) : (l.foldl (fun s y =>
      if space y.1 = 5 ∨ space y.2 = 5 then s else s.travel (faDie y.1) (faDie y.2) 2 64) t).mem.wf = true :=
    foldl_wf (fun _ _ hs => by split <;> simp [hs]) _ ht
  unfold State.moveGoes
  refine ite_wf hw (ite_wf (State.moveWaits_wf _ _ _ hw) (ite_wf ?_ ?_))
  · exact State.runMove_wf _ _ _ (hgo _ (State.moveWaits_wf _ _ _ hw))
  · exact State.stepMove_wf _ _ _ (hgo _ (State.moveWaits_wf _ _ _ hw))

theorem State.accessHome_keeps {req : Nat} {ecc : EccReport} (hw : s.mem.wf = true) : Keeps (s.accessHome req ecc) := by
  unfold State.accessHome
  split
  · split <;> simp [hw]
  dsimp only
  split
  · simp [hw]
  split
  · simp [hw]
  split
  · simp [hw]
  split
  · split <;> simp [hw]
  · simp [hw]

/-! ### Replies, streams and timers -/

theorem memEnd_keeps {p : Proc} {w : Wait} {r : MemRep} (hw : s.mem.wf = true) : (memEnd p w r s).keeps := by
  unfold memEnd
  split
  · exact ldDone_keeps hw
  · exact ldcDone_keeps hw
  · exact ldsubDone_keeps hw
  · exact tasDone_keeps hw
  · simp [hw]
  · exact scondDone_keeps hw
  · split
    · exact callDone_keeps hw
    · exact hw
  · exact retLoads_keeps _ _ _ hw
  · exact hw

@[simp] theorem execMemoryResponse_keeps {p : Proc} (hw : s.mem.wf = true) : Keeps (execMemoryResponse p s) := by
  unfold execMemoryResponse
  split
  · simp [hw]
  dsimp only
  split
  · simp [hw]
  split
  · simp [hw]
  · exact Keeps.next.2 (State.settle_wf _ _ (memEnd_keeps (by simp [hw])))

@[simp] theorem execWriteAcknowledgement_keeps {p : Proc} (hw : s.mem.wf = true) : Keeps (execWriteAcknowledgement p s) := by
  unfold execWriteAcknowledgement; dsimp only; (repeat' split) <;> simp [hw]

@[simp] theorem State.boundaryTraps_wf (p : Proc) (hw : s.mem.wf = true) : (s.boundaryTraps p).mem.wf = true := by
  unfold State.boundaryTraps; dsimp only; (repeat' split) <;> simp [hw]

@[simp] theorem execPostedStoreError_keeps {p : Proc} (hw : s.mem.wf = true) : Keeps (execPostedStoreError p s) := by
  unfold execPostedStoreError; dsimp only; (repeat' split) <;> simp [hw]

@[simp] theorem State.arriveAt_wf (c : CoreId) (q : Port) (w : PortWord) (hw : s.mem.wf = true) :
    (s.arriveAt c q w).mem.wf = true := by
  simp [State.arriveAt, hw]

@[simp] theorem execStreamWordArrival_keeps {a : Arrival} (hw : s.mem.wf = true) : Keeps (execStreamWordArrival a s) := by
  unfold execStreamWordArrival; dsimp only; (repeat' split) <;> simp [hw]

@[simp] theorem State.creditBack_wf (x : CoreId × Port × Byte × Nat) (hw : s.mem.wf = true) : (s.creditBack x).mem.wf = true := by
  unfold State.creditBack; dsimp only; split <;> simp [hw]

@[simp] theorem execCreditReturn_keeps {src : CoreId} {port : Port} {n : BitVec 3} (hw : s.mem.wf = true) :
    Keeps (execCreditReturn src port n s) :=
  Keeps.next.2 (State.rerun_wf _ (foldl_wf (fun _ _ hs => State.creditBack_wf _ hs) _ hw))

@[simp] theorem execBlockMoveComplete_keeps {p : Proc} {slot : BitVec 2} (hw : s.mem.wf = true) :
    Keeps (execBlockMoveComplete p slot s) := by
  unfold execBlockMoveComplete; (repeat' split) <;> simp [hw]

@[simp] theorem execEngineOpComplete_keeps {c : CoreId} {e : BitVec 2} (hw : s.mem.wf = true) :
    Keeps (execEngineOpComplete c e s) := by
  unfold execEngineOpComplete; dsimp only; (repeat' split) <;> simp [hw]

@[simp] theorem execOperandTimeout_keeps {c : CoreId} {e : BitVec 2} (hw : s.mem.wf = true) :
    Keeps (execOperandTimeout c e s) := by
  unfold execOperandTimeout; dsimp only; (repeat' split) <;> simp [hw]

@[simp] theorem execCoreTimerExpiry_keeps {p : Proc} (hw : s.mem.wf = true) : Keeps (execCoreTimerExpiry p s) := by
  unfold execCoreTimerExpiry; dsimp only; split <;> simp [hw]

@[simp] theorem execWatchdogExpiry_keeps {p : Proc} (hw : s.mem.wf = true) : Keeps (execWatchdogExpiry p s) := by
  unfold execWatchdogExpiry; dsimp only; split <;> simp [hw]

@[simp] theorem execReservationTimeout_keeps {p : Proc} (hw : s.mem.wf = true) : Keeps (execReservationTimeout p s) := by
  simp [execReservationTimeout, hw]

@[simp] theorem execIslandClockAdjust_keeps {cl : ClusterId} {sharePct : BitVec 7} (hw : s.mem.wf = true) :
    Keeps (execIslandClockAdjust cl sharePct s) := by
  simp [execIslandClockAdjust, hw]

end Sys2Proof.Machine
end

section
/-!
Doorbells and the plain ladle commands keep the canonical form of the stores.
-/

namespace Sys2Proof.Machine

variable {s : State}

@[simp] theorem State.keysResume_wf (hw : s.mem.wf = true) : s.keysResume.mem.wf = true := by
  unfold State.keysResume
  exact foldl_wf (fun _ _ hs => foldl_wf (fun _ _ ht => by simp [ht]) _ hs) _ hw

theorem State.fpDoorbell_wf {e : Ep} {f : FlaskId} {n : BitVec 4} {ring : State → LadleRef → State} (hw : s.mem.wf = true)
    (hring : (ring s (.flask f n)).mem.wf = true) : (s.fpDoorbell e f n ring).mem.wf = true := by
  unfold State.fpDoorbell; (repeat' split) <;> simp [hw, hring]

@[simp] theorem execFpSqdb_keeps {e : Ep} {f : FlaskId} {n : BitVec 4} {tail : BitVec 16} (hw : s.mem.wf = true) :
    Keeps (execFpSqdb e f n tail s) :=
  Keeps.next.2 (State.fpDoorbell_wf hw (State.ringSq_wf _ _ hw))

@[simp] theorem execFpCqdb_keeps {e : Ep} {f : FlaskId} {n : BitVec 4} {head : BitVec 16} (hw : s.mem.wf = true) :
    Keeps (execFpCqdb e f n head s) :=
  Keeps.next.2 (State.fpDoorbell_wf hw (State.ringCq_wf _ _ hw))

theorem State.admDoorbell_wf {m : Master} {ring : State → State} (hw : s.mem.wf = true) (hring : (ring s).mem.wf = true) :
    (s.admDoorbell m ring).mem.wf = true := by
  unfold State.admDoorbell; (repeat' split) <;> simp [hw, hring]

@[simp] theorem execAdmSqdb_keeps {m : Master} {tail : BitVec 10} (hw : s.mem.wf = true) : Keeps (execAdmSqdb m tail s) :=
  Keeps.next.2 (State.admDoorbell_wf hw (State.ringSq_wf _ _ hw))

@[simp] theorem execAdmCqdb_keeps {m : Master} {head : BitVec 10} (hw : s.mem.wf = true) : Keeps (execAdmCqdb m head s) :=
  Keeps.next.2 (State.admDoorbell_wf hw (State.ringCq_wf _ _ hw))

@[simp] theorem execNop_keeps {h : CmdHdr} (hw : s.mem.wf = true) : Keeps (execNop h s) := by
  refine State.command_keeps _ _ hw fun t ht => ?_
  simp [ht]

@[simp] theorem execLadleConfig_keeps {h : CmdHdr} {p : LadleP} (hw : s.mem.wf = true) : Keeps (execLadleConfig h p s) :=
  State.command_keeps _ _ hw fun t ht => State.onFlask_wf h p.flask ht fun f => by
    dsimp only; (repeat' split) <;> simp [ht]

@[simp] theorem State.issueToken_mem (f : FlaskId) (b : BitVec 12) (c : CoreId) (port : Port) (w : Word) :
    (s.issueToken f b c port w).mem = s.mem := rfl

@[simp] theorem State.feedToken_mem (f : FlaskId) (r : FeedRec) (info : Nat) : (s.feedToken f r info).mem = s.mem := by
  unfold State.feedToken; split <;> simp

@[simp] theorem State.refuse_wf (f : FlaskId) (r : FeedRec) (msg : Nat) (hw : s.mem.wf = true) :
    (s.refuse f r msg).mem.wf = true := by
  simp [State.refuse, hw]

@[simp] theorem State.writeWaits_wf (dom : Domain) (a n : Nat) (hw : s.mem.wf = true) :
    (s.writeWaits dom a n).2.mem.wf = true := by
  unfold State.writeWaits; dsimp only; (repeat' split) <;> simp [hw]

@[simp] theorem State.addJob_mem (f : FlaskId) (feed : Option FeedRec) (b : BitVec 12) (src : BitVec 48) (len : Nat)
    (origin : JobFrom) : (s.addJob f feed b src len origin).mem = s.mem := rfl

@[simp] theorem State.ownerReturns_mem : s.ownerReturns.mem = s.mem := by
  unfold State.ownerReturns; split <;> simp

@[simp] theorem State.askHost_mem (who : OutWho) (dom : Domain) (a n : Nat) (data : Option (List Byte)) :
    (s.askHost who dom a n data).mem = s.mem := by simp [State.askHost]

end Sys2Proof.Machine
end

section
/-!
The network keeps the canonical form of the stores.
-/

namespace Sys2Proof.Machine

variable {s : State}

@[simp] theorem State.classDrop_wf (cls : Nat) (counter : Nat) (hw : s.mem.wf = true) :
    (s.classDrop cls counter).mem.wf = true := by
  unfold State.classDrop; dsimp only; split <;> simp [hw]

@[simp] theorem State.accept_wf (port : Port) (rule action cls : Nat) (frag : Bool) (bs : List Byte) (hw : s.mem.wf = true) :
    (s.accept port rule action cls frag bs).mem.wf = true := by
  unfold State.accept; (repeat' split) <;> simp [hw]

@[simp] theorem State.seeFrag_mem (e : FragEntry) (len : Nat) (total : Option Nat) : (s.seeFrag e len total).mem = s.mem := rfl

@[simp] theorem State.sort_wf (port : Port) (bs : List Byte) (hw : s.mem.wf = true) : (s.sort port bs).mem.wf = true := by
  unfold State.sort; dsimp only; (repeat' split) <;> simp [hw]

@[simp] theorem execFrameReceive_keeps {port : Port} {bytes : List Byte} {fcsOk : Bool} (hw : s.mem.wf = true) :
    Keeps (execFrameReceive port bytes fcsOk s) := by
  unfold execFrameReceive; dsimp only; (repeat' split) <;> simp [hw]

@[simp] theorem State.closeClass_wf (cls : Nat) (hw : s.mem.wf = true) : (s.closeClass cls).mem.wf = true := by
  unfold State.closeClass; (repeat' split) <;> simp [hw]

@[simp] theorem State.popFrame_mem (port : Port) : (s.popFrame port).mem = s.mem := rfl

@[simp] theorem State.modHead_mem (port : Port) (g : Frame → Frame) : (s.modHead port g).mem = s.mem := by
  unfold State.modHead; dsimp only; split <;> simp

@[simp] theorem State.dropFrame_wf (port : Port) (cls : Nat) (counter : Nat) (hw : s.mem.wf = true) :
    (s.dropFrame port cls counter).mem.wf = true := by
  simp [State.dropFrame, hw]

@[simp] theorem State.frameToken_wf (port : Port) (cls : Nat) (fl : FlaskId) (r : FeedRec) (n : Nat) (hw : s.mem.wf = true) :
    (s.frameToken port cls fl r n).mem.wf = true := by
  simp [State.frameToken, hw]

@[simp] theorem State.nextFrame_mem (cls : Nat) (c : NetClass) : (s.nextFrame cls c).mem = s.mem := rfl

@[simp] theorem State.placeFrame_wf (port : Port) (f : Frame) (fl : FlaskId) (r : FeedRec) (c : NetClass) (hw : s.mem.wf = true) :
    (s.placeFrame port f fl r c).mem.wf = true := by
  have hread := State.hubRead_wf (flaskDom fl) .hub (c.slot r).1 4 hw
  unfold State.placeFrame
  dsimp only
  generalize s.hubRead (flaskDom fl) .hub (c.slot r).1 4 = q at hread ⊢
  split
  · split <;> simp [hread]
  have hwrite := State.hubWrite_wf (flaskDom fl) .hub (c.slot r).1 (f.slotBytes port c.n (c.slot r).2)
    (s := q.2.1.land (.frame port) (flaskDom fl) (c.slot r).1 (f.slotBytes port c.n (c.slot r).2).length) hread
  split
  · split <;> simp [hwrite]
  · split <;> simp [hwrite]

@[simp] theorem State.hostFrame_wf (port : Port) (f : Frame) (fl : FlaskId) (r : FeedRec) (c : NetClass) (hw : s.mem.wf = true) :
    (s.hostFrame port f fl r c).mem.wf = true := by
  unfold State.hostFrame; (repeat' split) <;> simp [hw]

@[simp] theorem State.frameLeg_mem (port : Port) (leg : HostLeg) : (s.frameLeg port leg).mem = s.mem := by simp [State.frameLeg]

@[simp] theorem execFrameRelease_keeps {port : Port} (hw : s.mem.wf = true) : Keeps (execFrameRelease port s) := by
  unfold execFrameRelease
  split
  · simp [hw]
  split
  · simp [hw]
  split
  · simp [hw]
  split
  · simp [hw]
  split
  · simp [hw]
  · dsimp only; split <;> simp [hw]

@[simp] theorem execFragmentHoldExpiry_keeps {i : Nat} (hw : s.mem.wf = true) : Keeps (execFragmentHoldExpiry i s) := by
  unfold execFragmentHoldExpiry; dsimp only; (repeat' split) <;> simp [hw]

@[simp] theorem execFragmentEntryExpiry_keeps {i : Nat} (hw : s.mem.wf = true) : Keeps (execFragmentEntryExpiry i s) := by
  simp [execFragmentEntryExpiry, hw]

@[simp] theorem execNetRuleWrite_keeps {m : Master} {index : BitVec 13} (hw : s.mem.wf = true) :
    Keeps (execNetRuleWrite m index s) :=
  Keeps.next.2 (State.ownerWrite_wf m hw hw)

@[simp] theorem execNetRuleRead_keeps {m : Master} {index : BitVec 13} (hw : s.mem.wf = true) :
    Keeps (execNetRuleRead m index s) :=
  Keeps.next.2 (State.ownerWrite_wf m hw (foldl_wf (fun _ _ hs => by simp [hs]) _ hw))

@[simp] theorem execNetClassOpen_keeps {h : CmdHdr} {cls : BitVec 16} {slotLog2 : Byte} (hw : s.mem.wf = true) :
    Keeps (execNetClassOpen h cls slotLog2 s) := by
  refine State.command_keeps _ _ hw fun t ht => ?_
  (repeat' split) <;> simp [ht]

@[simp] theorem execNetClassClose_keeps {h : CmdHdr} {cls : BitVec 16} (hw : s.mem.wf = true) :
    Keeps (execNetClassClose h cls s) := by
  refine State.command_keeps _ _ hw fun t ht => ?_
  split <;> simp [ht]

@[simp] theorem State.failDown_wf (port : Port) (hw : s.mem.wf = true) : (s.failDown port).mem.wf = true := by
  unfold State.failDown
  split
  · exact hw
  · exact foldl_wf (fun _ _ hs => by simp [hs]) _ hw

@[simp] theorem execNetSend_keeps {h : CmdHdr} {p : NetSendP} (hw : s.mem.wf = true) : Keeps (execNetSend h p s) := by
  refine State.command_keeps _ _ hw fun t ht => ?_
  have hread := State.hubRead_wf (flaskDom (hdrFlask h)) .hub p.src.toNat p.length.toNat ht
  dsimp only
  (repeat' split) <;> simp [ht, hread]

@[simp] theorem execShaperSet_keeps {h : CmdHdr} {p : ShaperP} (hw : s.mem.wf = true) : Keeps (execShaperSet h p s) := by
  refine State.command_keeps _ _ hw fun t ht => ?_
  split <;> simp [ht]

@[simp] theorem execShaperRefill_keeps {index : BitVec 16} (hw : s.mem.wf = true) : Keeps (execShaperRefill index s) :=
  Keeps.next.2 (foldl_wf (fun _ _ hs => by simp [hs]) _ hw)

@[simp] theorem execPfcFrameReceive_keeps {port : Port} {paused : Byte} (hw : s.mem.wf = true) :
    Keeps (execPfcFrameReceive port paused s) := by
  unfold execPfcFrameReceive; split <;> simp [hw]

end Sys2Proof.Machine
end

section
/-!
Sending on the transport keeps the canonical form of the stores.
-/

namespace Sys2Proof.Machine

variable {s : State}

theorem wf_mid {α β : Type} {r : α × State × β} {t : State} {x : α} {y : β} (h : r.2.1.mem.wf = true) (e : r = (x, t, y)) :
    t.mem.wf = true := by
  rw [e] at h; exact h

theorem keeps_ite {c : Prop} [Decidable c] {a b : Answer} (ha : Keeps a) (hb : Keeps b) : Keeps (if c then a else b) := by
  split <;> assumption

@[simp] theorem State.modQp_mem (n : Nat) (f : Qp → Qp) : (s.modQp n f).mem = s.mem := rfl

@[simp] theorem State.disown_mem (n : Nat) : (s.disown n).mem = s.mem := rfl

@[simp] theorem State.queuePkt_mem (n : Nat) (port : Port) (e : Nat) (type : BitVec 4) (hdr : XpHdr) (body : List Byte) :
    (s.queuePkt n port e type hdr body).mem = s.mem := by
  unfold State.queuePkt; split <;> simp

@[simp] theorem State.queueOn_mem (n p : Nat) (type : BitVec 4) (hdr : XpHdr) (body : List Byte) :
    (s.queueOn n p type hdr body).mem = s.mem := by simp [State.queueOn]

@[simp] theorem State.unqueue_mem (f : XpOut → Bool) : (s.unqueue f).mem = s.mem := rfl

@[simp] theorem State.flushMsgs_wf (n : Nat) : ∀ (l : List XpMsg) {s : State}, s.mem.wf = true → (s.flushMsgs n l).mem.wf = true
  | [], s, hw => by
    unfold State.flushMsgs
    dsimp only
    (repeat' split) <;> simp [hw]
  | m :: rest, s, hw => by
    unfold State.flushMsgs
    split
    · simp [hw]
    · exact flushMsgs_wf n rest (by simp [hw])

@[simp] theorem State.endMsg_wf (n : Nat) (msn : Word) (st : Status) (hw : s.mem.wf = true) :
    (s.endMsg n msn st).mem.wf = true := by
  simp [State.endMsg, hw]

@[simp] theorem State.qpFail_wf (n : Nat) (cause : Status) (msn : Option Word) (hw : s.mem.wf = true) :
    (s.qpFail n cause msn).mem.wf = true := by
  unfold State.qpFail
  dsimp only
  refine ite_wf hw ?_
  refine State.postDom_wf _ _ _ _ _ ?_
  split
  · exact State.complete_wf _ _ _ _ _ (foldl_wf (fun t _ ht => by simp [ht]) _ (by simp [hw]))
  · exact foldl_wf (fun t _ ht => by simp [ht]) _ (by simp [hw])

theorem State.sendPkt_wf (n : Nat) (m : XpMsg) (psn offset : Nat) (data : List Byte) {r : State × Nat} (hw : s.mem.wf = true)
    (e : s.sendPkt n m psn offset data = some r) : r.1.mem.wf = true := by
  unfold State.sendPkt at e
  dsimp only at e
  split at e
  · exact absurd e (by simp)
  · obtain rfl := Option.some.inj e
    simp [hw]

@[simp] theorem State.msgBytes_wf (n : Nat) (m : XpMsg) (offset len : Nat) (hw : s.mem.wf = true) :
    (s.msgBytes n m offset len).2.1.mem.wf = true := by
  unfold State.msgBytes; split <;> simp [hw]

@[simp] theorem State.pump_wf (n : Nat) : ∀ (fuel : Nat) {s : State}, s.mem.wf = true → (s.pump n fuel).mem.wf = true
  | 0, s, hw => hw
  | fuel + 1, s, hw => by
    unfold State.pump
    dsimp only
    refine ite_wf hw ?_
    split
    · exact hw
    refine ite_wf hw ?_
    split
    · rename_i t e
      have ht := wf_mid (by simp [hw]) e
      split
      · exact ht
      rename_i u _ e1
      have hu := State.sendPkt_wf _ _ _ _ _ ht e1
      exact State.pump_wf _ _ (by simp [hu])
    rename_i t _ _ e
    have ht := wf_mid (by simp [hw]) e
    exact State.pump_wf _ _ (by simp [ht])

@[simp] theorem State.resendPkt_wf (n : Nat) (p : XpPkt) (hw : s.mem.wf = true) : (s.resendPkt n p).mem.wf = true := by
  unfold State.resendPkt
  dsimp only
  split
  · exact hw
  split
  · refine foldl_wf (fun t _ ht => ?_) _ hw
    split
    · exact ht
    · simp [ht]
  split
  · rename_i t e
    have ht := wf_mid (by simp [hw]) e
    split
    · exact ht
    rename_i u _ e1
    have hu := State.sendPkt_wf _ _ _ _ _ ht e1
    simp [hu]
  rename_i t _ _ e
  have ht := wf_mid (by simp [hw]) e
  simp [ht]

@[simp] theorem State.retry_wf (n : Nat) (p : XpPkt) (fast : Bool) (hw : s.mem.wf = true) : (s.retry n p fast).mem.wf = true := by
  simp [State.retry, hw]

theorem State.onQp_wf (h : CmdHdr) (qpn : Word) {body : Nat → State → State} (hw : s.mem.wf = true)
    (hbody : ∀ n t, t.mem.wf = true → (body n t).mem.wf = true) : (s.onQp h qpn body).mem.wf = true := by
  unfold State.onQp
  split
  · simp [hw]
  · exact hbody _ _ hw

@[simp] theorem execQpCreate_keeps {h : CmdHdr} {qpn : Word} (hw : s.mem.wf = true) : Keeps (execQpCreate h qpn s) := by
  refine State.command_keeps _ _ hw fun t ht => ?_
  dsimp only
  (repeat' split) <;> simp [ht]

@[simp] theorem execQpConnect_keeps {h : CmdHdr} {p : ConnectP} {resv : Nat} (hw : s.mem.wf = true) :
    Keeps (execQpConnect h p resv s) := by
  unfold execQpConnect
  refine State.command_keeps _ _ hw (fun t ht => ?_)
  refine State.onQp_wf _ _ ht (fun _ u hu => ?_)
  split
  · simp [hu]
  · split
    · simp [hu]
    · simp [hu]

@[simp] theorem execQpCcSet_keeps {h : CmdHdr} {qpn : Word} {p : CcP} (hw : s.mem.wf = true) : Keeps (execQpCcSet h qpn p s) := by
  unfold execQpCcSet
  exact State.command_keeps _ _ hw (fun t ht => State.onQp_wf _ _ ht (fun _ u hu => by simp [hu]))

@[simp] theorem execQpClose_keeps {h : CmdHdr} {qpn : Word} (hw : s.mem.wf = true) : Keeps (execQpClose h qpn s) := by
  unfold execQpClose
  exact State.command_keeps _ _ hw (fun t ht => State.onQp_wf _ _ ht (fun _ u hu => by simp [hu]))

@[simp] theorem execQpReset_keeps {h : CmdHdr} {qpn : Word} (hw : s.mem.wf = true) : Keeps (execQpReset h qpn s) := by
  unfold execQpReset
  exact State.command_keeps _ _ hw (fun t ht => State.onQp_wf _ _ ht (fun _ u hu => by simp [hu]))

@[simp] theorem State.dropQp_wf (n : Nat) (hw : s.mem.wf = true) : (s.dropQp n).mem.wf = true := by
  unfold State.dropQp
  dsimp only
  split
  · exact State.complete_wf _ _ _ _ _ (foldl_wf (fun t _ ht => by simp [ht]) _ (by simp [hw]))
  · exact foldl_wf (fun t _ ht => by simp [ht]) _ (by simp [hw])

@[simp] theorem execQpDestroy_keeps {h : CmdHdr} {qpn : Word} (hw : s.mem.wf = true) : Keeps (execQpDestroy h qpn s) := by
  unfold execQpDestroy
  exact State.command_keeps _ _ hw (fun t ht => State.onQp_wf _ _ ht (fun _ u hu => by simp [hu]))

theorem State.startMsg_keeps {h : CmdHdr} {i : Instr} {p : XpP} {kind : XpKind} (hw : s.mem.wf = true) :
    Keeps (s.startMsg h i p kind) := by
  unfold State.startMsg
  refine State.command_keeps _ _ hw (fun t ht => ?_)
  refine State.onQp_wf _ _ ht (fun _ u hu => ?_)
  dsimp only
  exact ite_wf (by simp [hu]) (ite_wf (by simp [hu]) (ite_wf (by simp [hu]) (by simp [hu])))

@[simp] theorem execXpSend_keeps {h : CmdHdr} {p : XpP} (hw : s.mem.wf = true) : Keeps (execXpSend h p s) := by
  unfold execXpSend
  exact State.startMsg_keeps hw

@[simp] theorem execXpWrite_keeps {h : CmdHdr} {p : XpP} (hw : s.mem.wf = true) : Keeps (execXpWrite h p s) := by
  unfold execXpWrite
  exact State.startMsg_keeps hw

@[simp] theorem execXpRead_keeps {h : CmdHdr} {p : XpP} (hw : s.mem.wf = true) : Keeps (execXpRead h p s) := by
  unfold execXpRead
  exact State.startMsg_keeps hw

theorem State.checkEpoch_wf (n : Nat) (epoch : Word) {t : State} (hw : s.mem.wf = true) (e : s.checkEpoch n epoch = some t) :
    t.mem.wf = true := by
  unfold State.checkEpoch at e
  dsimp only at e
  split at e
  · obtain rfl := Option.some.inj e
    exact hw
  split at e
  · obtain rfl := Option.some.inj e
    exact hw
  split at e
  · exact absurd e (by simp)
  · obtain rfl := Option.some.inj e
    simp [hw]

@[simp] theorem State.answer_mem (port : Option Port) (hdr : XpHdr) (nak : Option NakCode) :
    (s.answer port hdr nak).mem = s.mem := by
  unfold State.answer; dsimp only; (repeat' split) <;> simp

@[simp] theorem State.refuseEpoch_mem (port : Option Port) (hdr : XpHdr) :
    (s.refuseEpoch port hdr).mem = s.mem := by simp [State.refuseEpoch]

@[simp] theorem State.takeAck_wf (n : Nat) (hdr : XpHdr) (a : XpAck) (hw : s.mem.wf = true) :
    (s.takeAck n hdr a).1.mem.wf = true := by
  simp [State.takeAck, hw]

@[simp] theorem execXpRxAck_keeps {hdr : XpHdr} {ack : XpAck} {rttNs : Nat} {cutDue : Bool} (hw : s.mem.wf = true) :
    Keeps (execXpRxAck hdr ack rttNs cutDue s) := by
  unfold execXpRxAck
  dsimp only
  iterate 3 refine keeps_ite (by simp [hw]) ?_
  split
  · simp [hw]
  rename_i t e
  have ht := State.checkEpoch_wf _ _ hw e
  refine Keeps.next.2 ?_
  refine State.pump_wf _ _ ?_
  exact State.flushMsgs_wf _ _ (ite_wf (by simp [ht]) (foldl_wf (fun u _ hu => by simp [hu]) _ (by simp [ht])))

theorem nakEpoch_wf {code : NakCode} {n : Nat} {epoch : Word} {t : State} (hw : s.mem.wf = true)
    (e : (if code = .fenced then some s else s.checkEpoch n epoch) = some t) : t.mem.wf = true := by
  split at e
  · exact Option.some.inj e ▸ hw
  · exact State.checkEpoch_wf n epoch hw e
@[simp] theorem execXpRxNak_keeps {hdr : XpHdr} {ack : XpAck} {code : NakCode} (hw : s.mem.wf = true) :
    Keeps (execXpRxNak hdr ack code s) := by
  unfold execXpRxNak
  dsimp only
  refine keeps_ite (Keeps.next.2 hw) (keeps_ite (by simp [hw]) (keeps_ite (Keeps.next.2 hw) ?_))
  split
  · simp [hw]
  · rename_i t e
    have ht := nakEpoch_wf hw e
    split
    · exact Keeps.next.2 (State.pump_wf _ _ (foldl_wf (fun u _ hu => by simp [hu]) _ (by simp [ht])))
    · split
      · simp [ht]
      · exact keeps_ite (Keeps.next.2 (State.qpFail_wf _ _ _ (by simp [ht]))) (by simp [ht])
    · exact Keeps.next.2 (State.qpFail_wf _ _ _ (by simp [ht]))
    · exact Keeps.next.2 (State.pump_wf _ _ (State.endMsg_wf _ _ _ (by simp [ht])))
    · split
      · simp [ht]
      · exact keeps_ite (Keeps.next.2 (State.pump_wf _ _ (State.endMsg_wf _ _ _ (by simp [ht])))) (by simp [ht])
    · exact Keeps.next.2 (State.postDom_wf _ _ _ _ _ (State.qpFail_wf _ _ _ (by simp [ht])))
    · exact Keeps.next.2 (State.qpFail_wf _ _ _ (by simp [ht]))
    · exact Keeps.next.2 (State.pump_wf _ _ (State.endMsg_wf _ _ _ (by simp [ht])))

@[simp] theorem State.failPath_wf (n p : Nat) (hw : s.mem.wf = true) : (s.failPath n p).mem.wf = true := by
  simp [State.failPath, hw]

@[simp] theorem State.lostOn_wf (n p : Nat) (hw : s.mem.wf = true) : (s.lostOn n p).mem.wf = true := by
  simp [State.lostOn, hw]

@[simp] theorem execXpRetransmitTimeout_keeps {qpn : BitVec 18} {psn : BitVec 24} (hw : s.mem.wf = true) :
    Keeps (execXpRetransmitTimeout qpn psn s) := by
  unfold execXpRetransmitTimeout
  dsimp only
  split
  · simp [hw]
  · exact keeps_ite (by simp [hw]) (Keeps.next.2 (foldl_wf (fun t _ ht => by simp [ht]) _ (by simp [hw])))

@[simp] theorem execXpRnrResend_keeps {qpn : BitVec 18} {psn : BitVec 24} (hw : s.mem.wf = true) :
    Keeps (execXpRnrResend qpn psn s) := by
  unfold execXpRnrResend; (repeat' split) <;> simp [hw]

@[simp] theorem execXpFaultResend_keeps {qpn : BitVec 18} {psn : BitVec 24} (hw : s.mem.wf = true) :
    Keeps (execXpFaultResend qpn psn s) := by
  unfold execXpFaultResend; (repeat' split) <;> simp [hw]

@[simp] theorem State.probe_mem (n p : Nat) : (s.probe n p).mem = s.mem := by simp [State.probe]

@[simp] theorem execXpPathProbe_keeps {qpn : BitVec 18} {path : BitVec 16} (hw : s.mem.wf = true) :
    Keeps (execXpPathProbe qpn path s) := by
  unfold execXpPathProbe; dsimp only; split <;> simp [hw]

@[simp] theorem execXpGrantProbe_keeps {qpn : BitVec 18} (hw : s.mem.wf = true) : Keeps (execXpGrantProbe qpn s) := by
  unfold execXpGrantProbe; dsimp only; (repeat' split) <;> simp [hw]

@[simp] theorem execXpRxCnp_keeps {qpn : BitVec 18} {rttNs : Nat} (hw : s.mem.wf = true) : Keeps (execXpRxCnp qpn rttNs s) := by
  unfold execXpRxCnp; dsimp only; split <;> simp [hw]

@[simp] theorem State.pumpPort_wf (port : Port) (hw : s.mem.wf = true) : (s.pumpPort port).mem.wf = true := by
  unfold State.pumpPort; exact foldl_wf (fun _ _ hs => by simp [hs]) _ (by simp [hw])

@[simp] theorem State.leave_mem (x : XpOut) : (s.leave x).mem = s.mem := rfl

@[simp] theorem execFrameTransmitComplete_keeps {port : Port} (hw : s.mem.wf = true) :
    Keeps (execFrameTransmitComplete port s) := by
  unfold execFrameTransmitComplete; dsimp only; (repeat' split) <;> simp [hw]

@[simp] theorem State.repath_mem (x : XpOut) : (s.repath x).mem = s.mem := by
  unfold State.repath; dsimp only; (repeat' split) <;> simp

@[simp] theorem execPortLinkChange_keeps {port : Port} {up : Bool} {lanes : Byte} (hw : s.mem.wf = true) :
    Keeps (execPortLinkChange port up lanes s) := by
  unfold execPortLinkChange
  dsimp only
  split
  · simp [hw]
  · split
    · exact Keeps.next.2 (foldl_wf (fun t _ ht => by simp [ht]) _ (by simp [hw]))
    · refine Keeps.next.2 ?_
      refine foldl_wf (fun t _ ht => by simp [ht]) _ ?_
      refine foldl_wf (fun t _ ht => by simp [ht]) _ ?_
      rw [State.unqueue_mem]
      refine foldl_wf (fun t _ ht => foldl_wf (fun u _ hu => by simp [hu]) _ ht) _ (State.failDown_wf _ ?_)
      exact foldl_wf (fun t _ ht => by simp [ht]) _ (by simp [hw])

end Sys2Proof.Machine
end

section
/-!
Receiving on the transport keeps the canonical form of the stores.
-/

namespace Sys2Proof.Machine

variable {s : State}

@[simp] theorem State.finishRevoke_wf (i : Nat) (hw : s.mem.wf = true) : (s.finishRevoke i).mem.wf = true := by
  unfold State.finishRevoke
  dsimp only
  split
  · exact hw
  refine ite_wf hw ?_
  exact foldl_wf (fun t _ ht => by simp [ht]) _ (foldl_wf (fun t _ ht => by simp [ht]) _ (by simp [hw]))

@[simp] theorem State.finishClears_wf (i : Nat) (hw : s.mem.wf = true) : (s.finishClears i).mem.wf = true := by
  unfold State.finishClears
  dsimp only
  split
  · exact hw
  · exact foldl_wf (fun t _ ht => by simp [ht]) _ (by simp [hw])

@[simp] theorem execMrRegister_keeps {h : CmdHdr} {p : MrP} (hw : s.mem.wf = true) : Keeps (execMrRegister h p s) := by
  refine State.command_keeps _ _ hw fun t ht => ?_
  dsimp only
  (repeat' split) <;> simp [ht]

@[simp] theorem State.revokeMr_wf (i : Nat) (asked : List (LadleRef × Word)) (hw : s.mem.wf = true) :
    (s.revokeMr i asked).mem.wf = true := by
  unfold State.revokeMr
  dsimp only
  split
  · exact hw
  · exact State.finishRevoke_wf _ (foldl_wf (fun t _ ht => by simp [ht]) _ (by simp [hw]))

@[simp] theorem execMrRevoke_keeps {h : CmdHdr} {key : Word} (hw : s.mem.wf = true) : Keeps (execMrRevoke h key s) := by
  refine State.command_keeps _ _ hw fun t ht => ?_
  split <;> simp [ht]

@[simp] theorem State.endRx_mem (hdr : XpHdr) (isRead : Bool) : (s.endRx hdr isRead).mem = s.mem := rfl

@[simp] theorem State.pageNak_mem (port : Port) (hdr : XpHdr) (isRead : Bool) : (s.pageNak port hdr isRead).mem = s.mem := by
  unfold State.pageNak; dsimp only; (repeat' split) <;> simp

@[simp] theorem State.reportFaults_wf (n i : Nat) (pages : List Nat) (stall : Bool) (hw : s.mem.wf = true) :
    (s.reportFaults n i pages stall).mem.wf = true := by
  unfold State.reportFaults
  refine foldl_wf (fun t _ ht => ?_) _ hw
  split
  · exact ht
  · simp [ht]

@[simp] theorem State.pageFault_wf (p : Placement) (i : Nat) (m : Mr) (hw : s.mem.wf = true) :
    (s.pageFault p i m).mem.wf = true := by
  unfold State.pageFault; dsimp only; (repeat' split) <;> simp [hw]

@[simp] theorem State.place_mem (p : Placement) : (s.place p).mem = s.mem := by
  unfold State.place; dsimp only; split <;> simp

@[simp] theorem State.placeChecked_wf (p : Placement) (r : Option FeedRec) (slot : Option Nat) (hw : s.mem.wf = true) :
    (s.placeChecked p r slot).mem.wf = true := by
  unfold State.placeChecked; (repeat' split) <;> simp [hw]

@[simp] theorem State.checkRx_wf (port : Port) (hdr : XpHdr) (again : Bool) {body : State → State} (hw : s.mem.wf = true)
    (hbody : ∀ t, t.mem.wf = true → (body t).mem.wf = true) : (s.checkRx port hdr again body).mem.wf = true := by
  unfold State.checkRx
  dsimp only
  refine ite_wf hw ?_
  refine ite_wf (by simp [hw]) ?_
  refine ite_wf (by simp [hw]) ?_
  split
  · simp [hw]
  rename_i t e
  have ht := State.checkEpoch_wf _ _ hw e
  refine ite_wf (by simp [ht]) ?_
  exact ite_wf (by simp [ht]) (ite_wf (by simp [ht]) (ite_wf (by simp [ht]) (hbody _ ht)))

@[simp] theorem State.rxReadResp_wf (port : Port) (hdr : XpHdr) (payload : List Byte) (hw : s.mem.wf = true) :
    (s.rxReadResp port hdr payload).mem.wf = true := by
  unfold State.rxReadResp
  dsimp only
  refine ite_wf hw ?_
  refine ite_wf (by simp [hw]) ?_
  refine ite_wf hw ?_
  split
  · simp [hw]
  rename_i t e
  have ht := State.checkEpoch_wf _ _ hw e
  split
  · simp [ht]
  · simp [ht]

@[simp] theorem State.qpLost_wf (n : Nat) (hw : s.mem.wf = true) : (s.qpLost n).mem.wf = true := by
  simp [State.qpLost, hw]

@[simp] theorem State.arrival_wf (port : Port) (n : Nat) (env : RxEnv) (hw : s.mem.wf = true) :
    (s.arrival port n env).mem.wf = true := by
  unfold State.arrival; dsimp only; (repeat' split) <;> simp [hw]

@[simp] theorem execXpRxDataPacket_keeps {port : Port} {hdr : XpHdr} {kind : XpDataKind} {payload : List Byte} {env : RxEnv}
    (hw : s.mem.wf = true) : Keeps (execXpRxDataPacket port hdr kind payload env s) := by
  unfold execXpRxDataPacket
  dsimp only
  refine keeps_ite (by simp [hw]) ?_
  split
  · simp [hw]
  · refine Keeps.next.2 ?_
    refine State.checkRx_wf _ _ _ (by simp [hw]) (fun t ht => ?_)
    split
    · simp [ht]
    · simp [ht]
    · simp [ht]
  refine Keeps.next.2 ?_
  refine State.checkRx_wf _ _ _ (by simp [hw]) (fun t ht => ?_)
  split
  · simp [ht]
  · simp [ht]

@[simp] theorem execXpRxReadReq_keeps {port : Port} {hdr : XpHdr} {key : Word} {remote : BitVec 64} {length : Word} {env : RxEnv}
    (hw : s.mem.wf = true) : Keeps (execXpRxReadReq port hdr key remote length env s) := by
  unfold execXpRxReadReq
  dsimp only
  refine keeps_ite (by simp [hw]) ?_
  refine Keeps.next.2 ?_
  refine State.checkRx_wf _ _ _ (by simp [hw]) (fun t ht => ?_)
  split
  · simp [ht]
  · simp [ht]
  · simp [ht]

@[simp] theorem execXpRxProbe_keeps {port : Port} {hdr : XpHdr} (hw : s.mem.wf = true) : Keeps (execXpRxProbe port hdr s) := by
  unfold execXpRxProbe
  iterate 3 refine keeps_ite (by simp [hw]) ?_
  split
  · simp [hw]
  rename_i t e
  have ht := State.checkEpoch_wf _ _ hw e
  simp [ht]

@[simp] theorem State.finishRx_mem (n : Nat) (m : RxMsg) : (s.finishRx n m).mem = s.mem := by
  unfold State.finishRx; dsimp only; (repeat' split) <;> simp

@[simp] theorem State.releaseMsg_mem (n : Nat) (msn : Word) : (s.releaseMsg n msn).mem = s.mem := by
  unfold State.releaseMsg; dsimp only; split <;> simp

@[simp] theorem State.placed_mem (p : Placement) : (s.placed p).mem = s.mem := by
  unfold State.placed; dsimp only; (repeat' split) <;> simp

@[simp] theorem State.gotRead_wf (p : Placement) (ok : Bool) (hw : s.mem.wf = true) : (s.gotRead p ok).mem.wf = true := by
  unfold State.gotRead; dsimp only; (repeat' split) <;> simp [hw]

@[simp] theorem State.respond_wf (p : Placement) (data : List Byte) (hw : s.mem.wf = true) :
    (s.respond p data).mem.wf = true := by
  unfold State.respond; dsimp only; exact foldl_wf (fun _ _ hs => by split <;> simp [hs]) _ (by simp [hw])

@[simp] theorem State.settlePlace_wf (p : Placement) (r : HubRes) (data : List Byte) (hw : s.mem.wf = true) :
    (s.settlePlace p r data).mem.wf = true := by
  unfold State.settlePlace; (repeat' split) <;> simp [hw]

@[simp] theorem State.land_mem (key : LandKey) (dom : Domain) (a n : Nat) : (s.land key dom a n).mem = s.mem := rfl

/-- A placement whose turn it is settles. -/
theorem retired_wf (p : Placement) (a : Nat) (hw : s.mem.wf = true) :
    (if space a = 5 then s.settlePlace p (if p.bad then .uncorrectable else .ok) p.payload
          else match p.readLen with
            | some n =>
              let r := s.hubRead p.dom .hub a n
              r.2.1.settlePlace p r.2.2 r.1
            | none =>
              let open_ := (s.qp p.qpn).rx.any fun m => decide (m.msn = p.hdr.msn) && !m.ended
              let s := if p.live && p.heralded && open_ then s.land (.msg p.qpn p.hdr.msn) p.dom a p.payload.length else s
              let r := s.hubWrite p.dom .hub a p.payload
              r.1.settlePlace p r.2 []).mem.wf = true := by
  dsimp only
  refine ite_wf (by simp [hw]) ?_
  split
  · exact State.settlePlace_wf _ _ _ (State.hubRead_wf _ _ _ _ hw)
  · exact State.settlePlace_wf _ _ _ (State.hubWrite_wf _ _ _ _ (by split <;> simp [hw]))

@[simp] theorem execXpPlacementRetire_keeps {i : Nat} (hw : s.mem.wf = true) : Keeps (execXpPlacementRetire i s) := by
  unfold execXpPlacementRetire
  split
  · exact Keeps.next.2 hw
  rename_i p _
  have hwait : (if p.readLen.isSome then (s.readWaits p.dom (p.addr.getD 0).toNat, s)
      else s.writeWaits p.dom (p.addr.getD 0).toNat p.payload.length).2.mem.wf = true := by split <;> simp [hw]
  extract_lets a w _ u _ _ _ v
  refine keeps_ite (Keeps.next.2 hw) (keeps_ite (Keeps.next.2 hwait) ?_)
  have hu : u.mem.wf = true := hw
  have hv : v.mem.wf = true := retired_wf p a hu
  clear_value v
  split <;> simp [hv]

@[simp] theorem State.placeOutDone_mem (n psn : Nat) (bad : Bool) (data : List Byte) :
    (s.placeOutDone n psn bad data).mem = s.mem := rfl

@[simp] theorem State.unstall_wf (i : Nat) (m : Mr) (hw : s.mem.wf = true) : (s.unstall i m).mem.wf = true := by
  unfold State.unstall; exact foldl_wf (fun _ _ hs => by simp [hs]) _ (by simp [hw])

@[simp] theorem execMrPages_keeps {h : CmdHdr} {key first count : Word} {present : Byte} (hw : s.mem.wf = true) :
    Keeps (execMrPages h key first count present s) := by
  refine State.command_keeps _ _ hw fun t ht => ?_
  dsimp only
  (repeat' split) <;> simp [ht]

@[simp] theorem execXpStallLimit_keeps {i : Nat} (hw : s.mem.wf = true) : Keeps (execXpStallLimit i s) := by
  unfold execXpStallLimit; split <;> simp [hw]

end Sys2Proof.Machine
end

section
/-!
Storage keeps the canonical form of the stores.
-/

namespace Sys2Proof.Machine

variable {s : State}

@[simp] theorem State.issueDrv_mem (c : DrvCmd) : (s.issueDrv c).mem = s.mem := by
  unfold State.issueDrv; dsimp only; (repeat' split) <;> simp

@[simp] theorem State.newPart_mem (c : DrvCmd) : (s.newPart c).mem = s.mem := by
  unfold State.newPart; dsimp only; split <;> simp

@[simp] theorem State.newDrv_wf (c : DrvCmd) (hw : s.mem.wf = true) : (s.newDrv c).mem.wf = true := by
  unfold State.newDrv
  dsimp only
  exact ite_wf (by simp [hw]) (foldl_wf (fun t _ ht => by simp [ht]) _ hw)

@[simp] theorem State.stepPower_wf (p : Port) (hw : s.mem.wf = true) : (s.stepPower p).mem.wf = true := by
  unfold State.stepPower; dsimp only; (repeat' split) <;> simp [hw]

@[simp] theorem State.stepVol_wf (k : Nat) (hw : s.mem.wf = true) : (s.stepVol k).mem.wf = true := by
  unfold State.stepVol; (repeat' split) <;> simp [hw]

@[simp] theorem State.stepVols_wf (hw : s.mem.wf = true) : s.stepVols.mem.wf = true := by
  unfold State.stepVols; exact foldl_wf (fun _ _ hs => by simp [hs]) _ (by simp [hw])

@[simp] theorem State.stepFlush_wf (f : Flush) (hw : s.mem.wf = true) : (s.stepFlush f).mem.wf = true := by
  unfold State.stepFlush
  refine ite_wf hw ?_
  dsimp only
  iterate 4 refine ite_wf (by simp [hw]) ?_
  dsimp only
  exact foldl_wf (fun t _ ht => by simp [ht]) _ hw

@[simp] theorem State.setCmd_mem (c : DrvCmd) : (s.setCmd c).mem = s.mem := rfl

@[simp] theorem State.endDrvAll_wf (c : DrvCmd) (bytes : Nat) (st : Status) (detail : Word) (hw : s.mem.wf = true) :
    (s.endDrvAll c bytes st detail).mem.wf = true := by
  unfold State.endDrvAll; dsimp only; (repeat' split) <;> simp [hw]

@[simp] theorem State.endDrv_wf (c : DrvCmd) (st : Status) (detail : Word) (hw : s.mem.wf = true) :
    (s.endDrv c st detail).mem.wf = true := by
  unfold State.endDrv
  dsimp only
  exact State.stepPower_wf _ (State.stepVols_wf (foldl_wf (fun t _ ht => by simp [ht]) _ (by simp [hw])))

@[simp] theorem State.driveOutDone_wf (id : Nat) (bad : Option Status) (data : List Byte) (hw : s.mem.wf = true) :
    (s.driveOutDone id bad data).mem.wf = true := by
  unfold State.driveOutDone; (repeat' split) <;> simp [hw]

@[simp] theorem execVolCreate_keeps {h : CmdHdr} {flask : BitVec 16} {volume port : Byte} {start blocks : BitVec 64}
    (hw : s.mem.wf = true) : Keeps (execVolCreate h flask volume port start blocks s) := by
  unfold execVolCreate
  refine State.command_keeps _ _ hw (fun t ht => ?_)
  refine State.onFlask_wf _ _ ht (fun _ => ?_)
  dsimp only
  refine ite_wf (by simp [ht]) ?_
  exact ite_wf (by simp [ht]) (ite_wf (by simp [ht]) (ite_wf (by simp [ht]) (by simp [ht])))

@[simp] theorem execVolDestroy_keeps {h : CmdHdr} {flask : BitVec 16} {volume : Byte} (hw : s.mem.wf = true) :
    Keeps (execVolDestroy h flask volume s) := by
  unfold execVolDestroy
  refine State.command_keeps _ _ hw (fun t ht => ?_)
  refine State.onFlask_wf _ _ ht (fun _ => ?_)
  dsimp only
  refine ite_wf (by simp [ht]) ?_
  split <;> simp [ht]

@[simp] theorem execDrivePower_keeps {h : CmdHdr} {port ps : Byte} (hw : s.mem.wf = true) :
    Keeps (execDrivePower h port ps s) := by
  refine State.command_keeps _ _ hw fun t ht => ?_
  dsimp only
  (repeat' split) <;> simp [ht]

theorem State.onBlocks_wf (h : CmdHdr) (p : StorP) (legal isLocal : Bool) {body : Volume → State → State} (hw : s.mem.wf = true)
    (hbody : ∀ v t, t.mem.wf = true → (body v t).mem.wf = true) : (s.onBlocks h p legal isLocal body).mem.wf = true := by
  unfold State.onBlocks
  dsimp only
  split
  · simp [hw]
  refine ite_wf (by simp [hw]) ?_
  exact ite_wf (by simp [hw]) (ite_wf (by simp [hw]) (ite_wf (by simp [hw]) (hbody _ _ hw)))

@[simp] theorem execStorRead_keeps {h : CmdHdr} {p : StorP} (hw : s.mem.wf = true) : Keeps (execStorRead h p s) := by
  unfold execStorRead
  exact State.command_keeps _ _ hw (fun t ht => State.onBlocks_wf _ _ _ _ ht (fun _ u hu => by simp [hu]))

@[simp] theorem execStorWrite_keeps {h : CmdHdr} {p : StorP} (hw : s.mem.wf = true) : Keeps (execStorWrite h p s) := by
  unfold execStorWrite
  refine State.command_keeps _ _ hw (fun t ht => ?_)
  refine State.onBlocks_wf _ _ _ _ ht (fun _ u hu => ?_)
  dsimp only
  refine ite_wf (by simp [hu]) ?_
  split <;> simp [hu]

@[simp] theorem execStorTrim_keeps {h : CmdHdr} {p : StorP} (hw : s.mem.wf = true) : Keeps (execStorTrim h p s) := by
  unfold execStorTrim
  exact State.command_keeps _ _ hw (fun t ht => State.onBlocks_wf _ _ _ _ ht (fun _ u hu => by simp [hu]))

@[simp] theorem execStorFlush_keeps {h : CmdHdr} {volume : Byte} (hw : s.mem.wf = true) : Keeps (execStorFlush h volume s) := by
  refine State.command_keeps _ _ hw fun t ht => ?_
  dsimp only
  split <;> simp [ht]

@[simp] theorem State.driveWrite_wf (c : DrvCmd) (a : Nat) (bs : List Byte) (hw : s.mem.wf = true) :
    (s.driveWrite c a bs).1.mem.wf = true := by
  unfold State.driveWrite; dsimp only; (repeat' split) <;> simp [hw]

@[simp] theorem execDriveCompletion_keeps {port : Port} {id : Nat} {r : DriveResult} (hw : s.mem.wf = true) :
    Keeps (execDriveCompletion port id r s) := by
  unfold execDriveCompletion; dsimp only; (repeat' split) <;> simp [hw]

@[simp] theorem execDriveMemoryRequest_keeps {port : Port} {f : FlaskId} {addr : BitVec 48} {len : BitVec 13}
    {write : Option (List Byte)} (hw : s.mem.wf = true) : Keeps (execDriveMemoryRequest port f addr len write s) := by
  unfold execDriveMemoryRequest; dsimp only; (repeat' split) <;> simp [hw]

@[simp] theorem execDriveAsyncEvent_keeps {port : Port} {logData : BitVec 128} (hw : s.mem.wf = true) :
    Keeps (execDriveAsyncEvent port logData s) := by
  unfold execDriveAsyncEvent
  dsimp only
  exact Keeps.next.2 (foldl_wf (fun t _ ht => by simp [ht]) _ (by simp [hw]))

@[simp] theorem execDrivePresenceDetect_keeps {port : Port} (hw : s.mem.wf = true) : Keeps (execDrivePresenceDetect port s) := by
  unfold execDrivePresenceDetect; split <;> simp [hw]

@[simp] theorem State.dropDrive_wf (port : Port) (hw : s.mem.wf = true) : (s.dropDrive port).mem.wf = true := by
  unfold State.dropDrive
  dsimp only
  rw [State.setDrive_mem, State.setCmds_mem]
  refine foldl_wf (fun t _ ht => ?_) _ ?_
  · split <;> simp [ht]
  · split <;> simp [hw]

@[simp] theorem execStorPowerEn_keeps {m : Master} {port : Port} {on : Bool} (hw : s.mem.wf = true) :
    Keeps (execStorPowerEn m port on s) := by
  unfold execStorPowerEn
  exact Keeps.next.2 (State.ownerWrite_wf _ hw (by simp [hw]))

@[simp] theorem execSlotPowerGood_keeps {port : Port} {good : Bool} (hw : s.mem.wf = true) :
    Keeps (execSlotPowerGood port good s) := by
  unfold execSlotPowerGood; (repeat' split) <;> simp [hw]

@[simp] theorem execDriveReady_keeps {port : Port} {ident : DriveIdent} (hw : s.mem.wf = true) :
    Keeps (execDriveReady port ident s) := by
  unfold execDriveReady
  dsimp only
  refine keeps_ite (by simp [hw]) ?_
  refine keeps_ite (by simp [hw]) ?_
  refine Keeps.next.2 ?_
  refine State.postOwner_wf _ _ _ _ ?_
  refine foldl_wf (fun t _ ht => ?_) _ (by simp [hw])
  split <;> simp [ht]

@[simp] theorem execSlotAttentionPress_keeps {port : Port} {sinceLastMs : Nat} (hw : s.mem.wf = true) :
    Keeps (execSlotAttentionPress port sinceLastMs s) := by
  unfold execSlotAttentionPress; split <;> simp [hw]

@[simp] theorem execDriveSurpriseRemoval_keeps {port : Port} (hw : s.mem.wf = true) :
    Keeps (execDriveSurpriseRemoval port s) := by
  unfold execDriveSurpriseRemoval
  refine keeps_ite (by simp [hw]) ?_
  dsimp only
  refine Keeps.next.2 ?_
  refine foldl_wf (fun t _ ht => by simp [ht]) _ ?_
  refine State.postOwner_wf _ _ _ _ ?_
  refine foldl_wf (fun t _ ht => ?_) _ (by simp [hw])
  split <;> simp [ht]

@[simp] theorem execIngest_keeps {h : CmdHdr} {binding : BitVec 16} {src : BitVec 64} {length : Word} (hw : s.mem.wf = true) :
    Keeps (execIngest h binding src length s) := by
  refine State.command_keeps _ _ hw fun t ht => ?_
  dsimp only
  (repeat' split) <;> simp [ht]

@[simp] theorem State.setJob_mem (j j' : Job) : (s.setJob j j').mem = s.mem := rfl

@[simp] theorem execIngestJobStart_keeps {f : FlaskId} {binding : BitVec 12} (hw : s.mem.wf = true) :
    Keeps (execIngestJobStart f binding s) := by
  unfold execIngestJobStart; dsimp only; (repeat' split) <;> simp [hw]

@[simp] theorem State.endJob_wf (j : Job) (st : Status) (hw : s.mem.wf = true) : (s.endJob j st).mem.wf = true := by
  unfold State.endJob
  dsimp only
  split
  · simp [hw]
  · simp [hw]
  · exact State.stepVols_wf (State.complete_wf _ _ _ _ _ (by simp [hw]))

@[simp] theorem State.tileToken_wf (j : Job) (r : FeedRec) (k : Nat) (hw : s.mem.wf = true) :
    (s.tileToken j r k).mem.wf = true := by
  unfold State.tileToken; split <;> simp [hw]

@[simp] theorem State.putParts_wf (j : Job) : ∀ (l : List (Nat × List Byte × Option Nat)) {s : State}, s.mem.wf = true →
    (s.putParts j l).1.mem.wf = true
  | [], s, hw => hw
  | x :: xs, s, hw => by
    unfold State.putParts
    dsimp only
    split
    · dsimp only
      exact State.putParts_wf _ _ (by simp [hw])
    split
    · simp [hw]
    · exact State.putParts_wf _ _ (by simp [hw])

@[simp] theorem State.putTiles_wf (j : Job) (r : FeedRec) : ∀ (l : List (Nat × List Byte × Option Nat)) {s : State},
    s.mem.wf = true → (s.putTiles j r l).1.mem.wf = true
  | [], s, hw => hw
  | x :: xs, s, hw => by
    unfold State.putTiles
    split
    · simp [hw]
    dsimp only
    split
    · simp [hw]
    split
    · exact State.putTiles_wf _ _ _ (by simp [hw])
    · simp [hw]

@[simp] theorem State.finishJobOut_wf (j : Job) (r : FeedRec) (code : Status) (hw : s.mem.wf = true) :
    (s.finishJobOut j r code).mem.wf = true := by
  simp [State.finishJobOut, hw]

@[simp] theorem State.placeJob_wf (j : Job) (r : FeedRec) (o : JobOut) (first : Bool) (hw : s.mem.wf = true) :
    (s.placeJob j r o first).mem.wf = true := by
  unfold State.placeJob
  extract_lets +onlyGivenNames refused
  refine ite_wf ?_ (ite_wf ?_ ?_)
  · extract_lets +onlyGivenNames t w
    have ht : t.mem.wf = true := by
      unfold t
      split
      · exact hw
      · simp [hw]
    have hput : w.1.mem.wf = true := State.putTiles_wf _ _ _ ht
    exact ite_wf (by simp [refused, hput]) (ite_wf (by simp [hput]) (by simp [hput]))
  · split <;> simp [hw]
  · extract_lets +onlyGivenNames w
    have hput : w.1.mem.wf = true := by simp [w, hw]
    exact ite_wf (by simp [refused, hput]) (ite_wf (by simp [hput]) (by simp [hput]))

@[simp] theorem State.jobLeg_mem (f : FlaskId) (b : BitVec 12) (leg : HostLeg) : (s.jobLeg f b leg).mem = s.mem := rfl

@[simp] theorem execIngestJobEnd_keeps {f : FlaskId} {binding : BitVec 12} (hw : s.mem.wf = true) :
    Keeps (execIngestJobEnd f binding s) := by
  unfold execIngestJobEnd
  dsimp only
  split
  · simp [hw]
  split
  · simp [hw]
  · simp [hw]
  refine keeps_ite (by simp [hw]) ?_
  refine keeps_ite ?_ ?_
  · split <;> simp [hw]
  refine keeps_ite (by simp [hw]) ?_
  split <;> simp [hw]

end Sys2Proof.Machine
end

section
/-!
The endpoints keep the canonical form of the stores.
-/

namespace Sys2Proof.Machine

variable {s : State}

@[simp] theorem State.modEp_mem (e : Ep) (f : Endpoint → Endpoint) : (s.modEp e f).mem = s.mem := by simp [State.modEp]

@[simp] theorem State.postBound_wf (e : Ep) (code : BitVec 16) (data : List Byte) (hw : s.mem.wf = true) :
    (s.postBound e code data).mem.wf = true := by
  unfold State.postBound
  exact foldl_wf (fun t _ ht => by simp [ht]) _ (by simp [hw])

@[simp] theorem State.flushNotes_wf (e : Ep) (hw : s.mem.wf = true) : (s.flushNotes e).mem.wf = true := by
  simp [State.flushNotes, hw]

@[simp] theorem State.answerProc_mem (p : Proc) (gen : Byte) (fa : BitVec 48) (seg : BitVec 3) (off : Word) (posted : Bool)
    (r : Reply) : (s.answerProc p gen fa seg off posted r).mem = s.mem := rfl

@[simp] theorem State.moveFail_wf (p : Proc) (gen : Byte) (slot : BitVec 2) (hw : s.mem.wf = true) :
    (s.moveFail p gen slot).mem.wf = true := by
  simp [State.moveFail, hw]

@[simp] theorem State.outFailed_wf (r : OutReq) (st : Status) (hw : s.mem.wf = true) : (s.outFailed r st).mem.wf = true := by
  unfold State.outFailed; (repeat' split) <;> simp [hw]

@[simp] theorem State.outWritten_wf (r : OutReq) (hw : s.mem.wf = true) : (s.outWritten r).mem.wf = true := by
  unfold State.outWritten; (repeat' split) <;> simp [hw]

@[simp] theorem State.outData_wf (r : OutReq) (bytes : List Byte) (hw : s.mem.wf = true) : (s.outData r bytes).mem.wf = true := by
  unfold State.outData; (repeat' split) <;> simp [hw]

@[simp] theorem State.outGo_wf (e : Ep) (r : OutReq) (posted : Bool) (act : OutAct) (hw : s.mem.wf = true) :
    (s.outGo e r posted act).mem.wf = true := by
  unfold State.outGo
  dsimp only
  split
  · exact hw
  · refine State.flushNotes_wf _ ?_
    split <;> simp [hw]
  · refine State.flushNotes_wf _ ?_
    split <;> simp [hw]
  · simp [hw]
  · refine State.flushNotes_wf _ ?_
    split <;> simp [hw]
  · simp [hw]

@[simp] theorem execOutboundRequest_keeps {req : Nat} (hw : s.mem.wf = true) : Keeps (execOutboundRequest req s) := by
  unfold execOutboundRequest
  dsimp only
  split
  · exact keeps_ite (by simp [hw]) (keeps_ite (by simp [hw]) (keeps_ite (by simp [hw]) (by simp [hw])))
  split
  · simp [hw]
  · exact keeps_ite (by simp [hw]) (by simp [hw])

@[simp] theorem execOutboundReadCompletion_keeps {ep : Ep} {req : Nat} {cpl : HostCpl} (hw : s.mem.wf = true) :
    Keeps (execOutboundReadCompletion ep req cpl s) := by
  unfold execOutboundReadCompletion; dsimp only; (repeat' split) <;> simp [hw]

@[simp] theorem execCompletionTimeout_keeps {ep : Ep} {req : Nat} (hw : s.mem.wf = true) :
    Keeps (execCompletionTimeout ep req s) := by
  unfold execCompletionTimeout; (repeat' split) <;> simp [hw]

@[simp] theorem State.abandonReads_wf (e : Ep) (hw : s.mem.wf = true) : (s.abandonReads e).mem.wf = true := by
  unfold State.abandonReads
  exact foldl_wf (fun t _ ht => by simp [ht]) _ (by simp [hw])

@[simp] theorem State.squashOut_wf (e : Ep) (dom : Domain → Bool) (hw : s.mem.wf = true) : (s.squashOut e dom).mem.wf = true := by
  unfold State.squashOut
  dsimp only
  refine State.flushNotes_wf _ ?_
  exact foldl_wf (fun t _ ht => by simp [ht]) _ (foldl_wf (fun t _ ht => by simp [ht]) _ (by simp [hw]))

@[simp] theorem State.dropCpls_mem (e : Ep) : (s.dropCpls e).mem = s.mem := by simp [State.dropCpls]

@[simp] theorem State.startFlr_wf (e : Ep) (hw : s.mem.wf = true) : (s.startFlr e).mem.wf = true := by
  unfold State.startFlr; (repeat' split) <;> simp [hw]

@[simp] theorem execInitiateFlr_keeps {ep : Ep} (hw : s.mem.wf = true) : Keeps (execInitiateFlr ep s) := by
  simp [execInitiateFlr, hw]

@[simp] theorem execFlrReady_keeps {ep : Ep} (hw : s.mem.wf = true) : Keeps (execFlrReady ep s) := by
  unfold execFlrReady; (repeat' split) <;> simp [hw]

@[simp] theorem State.loseLink_wf (e : Ep) (hw : s.mem.wf = true) : (s.loseLink e).mem.wf = true := by
  unfold State.loseLink
  refine ite_wf hw ?_
  dsimp only
  exact State.postBound_wf _ _ _ (by simp [hw])

@[simp] theorem execLinkDown_keeps {ep : Ep} (hw : s.mem.wf = true) : Keeps (execLinkDown ep s) := by
  simp [execLinkDown, hw]

@[simp] theorem execHostPerst_keeps {ep : Ep} (hw : s.mem.wf = true) : Keeps (execHostPerst ep s) := by
  simp [execHostPerst, hw]

@[simp] theorem execEndpointLinkUp_keeps {ep : Ep} {speed : BitVec 3} {width : BitVec 5} {flit : Bool} (hw : s.mem.wf = true) :
    Keeps (execEndpointLinkUp ep speed width flit s) := by
  unfold execEndpointLinkUp; dsimp only; (repeat' split) <;> simp [hw]

@[simp] theorem State.setBme_wf (e : Ep) (on : Bool) (hw : s.mem.wf = true) : (s.setBme e on).mem.wf = true := by
  simp [State.setBme, hw]

@[simp] theorem execBusMasterEnableChange_keeps {ep : Ep} {on : Bool} (hw : s.mem.wf = true) :
    Keeps (execBusMasterEnableChange ep on s) := by
  unfold execBusMasterEnableChange; (repeat' split) <;> simp [hw]

@[simp] theorem State.setD3_wf (e : Ep) (d3 : Bool) (hw : s.mem.wf = true) : (s.setD3 e d3).mem.wf = true := by
  simp [State.setD3, hw]

@[simp] theorem execPowerStateChange_keeps {ep : Ep} {d3 : Bool} (hw : s.mem.wf = true) :
    Keeps (execPowerStateChange ep d3 s) := by
  unfold execPowerStateChange; (repeat' split) <;> simp [hw]

@[simp] theorem State.cfgRead_mem (e : Ep) (off : Nat) : (s.cfgRead e off).2.mem = s.mem := by
  unfold State.cfgRead; dsimp only; (repeat' split) <;> simp

@[simp] theorem State.cfgWrite_wf (e : Ep) (off : Nat) (w : Word) (hw : s.mem.wf = true) :
    (s.cfgWrite e off w).mem.wf = true := by
  unfold State.cfgWrite; dsimp only; (repeat' split) <;> simp [hw]

@[simp] theorem execConfigRequest_keeps {ep : Ep} {offset : BitVec 12} {write : Option Word} (hw : s.mem.wf = true) :
    Keeps (execConfigRequest ep offset write s) := by
  unfold execConfigRequest; dsimp only; (repeat' split) <;> simp [hw]

@[simp] theorem State.inWaits_wf (h : InHeld) (hw : s.mem.wf = true) : (s.inWaits h).2.mem.wf = true := by
  unfold State.inWaits; (repeat' split) <;> simp [hw]

@[simp] theorem State.inPerform_wf (ep : Ep) (h : InHeld) (hw : s.mem.wf = true) : (s.inPerform ep h).mem.wf = true := by
  unfold State.inPerform; dsimp only; (repeat' split) <;> simp [hw]

@[simp] theorem State.inArrive_wf (ep : Ep) (h : InHeld) (free : Bool) (hw : s.mem.wf = true) :
    (s.inArrive ep h free).mem.wf = true := by
  unfold State.inArrive; dsimp only; (repeat' split) <;> simp [hw]

@[simp] theorem State.inDrain_wf (ep : Ep) : ∀ (n : Nat) {s : State}, s.mem.wf = true → (s.inDrain ep n).mem.wf = true
  | 0, s, hw => hw
  | n + 1, s, hw => by
    unfold State.inDrain
    dsimp only
    split
    · exact hw
    · exact ite_wf (by simp [hw]) (State.inDrain_wf _ _ (by simp [hw]))

@[simp] theorem State.inResume_wf (hw : s.mem.wf = true) : s.inResume.mem.wf = true := by
  simp [State.inResume, hw]

@[simp] theorem execCowCopyComplete_keeps {granule : BitVec 32} (hw : s.mem.wf = true) : Keeps (execCowCopyComplete granule s) :=
  Keeps.next.2 (State.inResume_wf (Mem.wf_copyGranule _ (ite_wf (by simp [hw]) hw)))

@[simp] theorem execInboundWriteTlp_keeps {ep : Ep} {offset : BitVec 36} {bytes : List Byte} {ro : Bool} (hw : s.mem.wf = true) :
    Keeps (execInboundWriteTlp ep offset bytes ro s) := by
  unfold execInboundWriteTlp; dsimp only; (repeat' split) <;> simp [hw]

@[simp] theorem execInboundReadTlp_keeps {ep : Ep} {offset : BitVec 36} {len : BitVec 13} {ro : Bool} (hw : s.mem.wf = true) :
    Keeps (execInboundReadTlp ep offset len ro s) := by
  unfold execInboundReadTlp; dsimp only; (repeat' split) <;> simp [hw]

@[simp] theorem execInboundAtomicop_keeps {ep : Ep} {_offset : BitVec 36} {ro : Bool} (hw : s.mem.wf = true) :
    Keeps (execInboundAtomicop ep _offset ro s) := by
  unfold execInboundAtomicop; (repeat' split) <;> simp [hw]

@[simp] theorem State.commit_mem (e : Ep) (i o : Bool) : (s.commit e i o).mem = s.mem := by simp [State.commit]

@[simp] theorem execWinCommitIn_keeps {m : Master} {ep : Ep} (hw : s.mem.wf = true) : Keeps (execWinCommitIn m ep s) := by
  unfold execWinCommitIn
  exact Keeps.next.2 (State.ownerWrite_wf _ hw (by simp [hw]))

@[simp] theorem execWinCommitOut_keeps {m : Master} {ep : Ep} (hw : s.mem.wf = true) : Keeps (execWinCommitOut m ep s) := by
  unfold execWinCommitOut
  exact Keeps.next.2 (State.ownerWrite_wf _ hw (by simp [hw]))

@[simp] theorem execCommitPoint_keeps {ep : Ep} (hw : s.mem.wf = true) : Keeps (execCommitPoint ep s) := by
  unfold execCommitPoint; dsimp only; (repeat' split) <;> simp [hw]

@[simp] theorem State.winWrite_mem (e : Ep) (outbound : Bool) (i w : Nat) (value : Word) :
    (s.winWrite e outbound i w value).mem = s.mem := by simp [State.winWrite]

@[simp] theorem execWinShadowWrite_keeps {m : Master} {ep : Ep} {outbound : Bool} {entry : BitVec 11} {word : BitVec 3}
    {value : Word} (hw : s.mem.wf = true) : Keeps (execWinShadowWrite m ep outbound entry word value s) := by
  unfold execWinShadowWrite
  exact Keeps.next.2 (State.ownerWrite_wf _ hw (by simp [hw]))

@[simp] theorem State.disableWin_mem (e : Ep) (outbound : Bool) (i : Nat) :
    (s.disableWin e outbound i).mem = s.mem := by simp [State.disableWin]

@[simp] theorem execMsixVectorControlWrite_keeps {ep : Ep} {entry : BitVec 11} {word : BitVec 2} {value : Word}
    (hw : s.mem.wf = true) : Keeps (execMsixVectorControlWrite ep entry word value s) := by
  unfold execMsixVectorControlWrite; dsimp only; (repeat' split) <;> simp [hw]

@[simp] theorem State.rearm_wf (e : Ep) (hw : s.mem.wf = true) : (s.rearm e).mem.wf = true := by
  simp [State.rearm, hw]

@[simp] theorem execOnoteAck_keeps {m : Master} {ep : Ep} (hw : s.mem.wf = true) : Keeps (execOnoteAck m ep s) := by
  unfold execOnoteAck; (repeat' split) <;> simp [hw]

@[simp] theorem execHostBeat_keeps {m : Master} {n : Ep} (hw : s.mem.wf = true) : Keeps (execHostBeat m n s) := by
  unfold execHostBeat
  dsimp only
  refine keeps_ite (by simp [hw]) ?_
  refine Keeps.next.2 ?_
  rw [State.ownerReturns_mem]
  exact State.postBound_wf _ _ _ (State.flushNotes_wf _ (foldl_wf (fun t _ ht => by simp [ht]) _ (by simp [hw])))

@[simp] theorem execHostLivenessLapse_keeps {ep : Ep} (hw : s.mem.wf = true) : Keeps (execHostLivenessLapse ep s) := by
  unfold execHostLivenessLapse
  dsimp only
  refine keeps_ite (by simp [hw]) ?_
  exact Keeps.next.2 (State.postBound_wf _ _ _ (foldl_wf (fun t _ ht => by simp [ht]) _ (by simp [hw])))

@[simp] theorem execHostHoldExpiry_keeps {ep : Ep} (hw : s.mem.wf = true) : Keeps (execHostHoldExpiry ep s) := by
  unfold execHostHoldExpiry
  dsimp only
  refine keeps_ite (by simp [hw]) ?_
  refine Keeps.next.2 ?_
  exact foldl_wf (fun t _ ht => by simp [ht]) _ (foldl_wf (fun t _ ht => by simp [ht]) _ (by simp [hw]))

@[simp] theorem execAttentionButtonPress_keeps {sinceLastMs : Nat} (hw : s.mem.wf = true) :
    Keeps (execAttentionButtonPress sinceLastMs s) := by
  unfold execAttentionButtonPress; dsimp only; (repeat' split) <;> simp [hw]

end Sys2Proof.Machine
end

section
/-!
The scorer, the mirror, security and ownership keep the canonical form of the stores.
-/

namespace Sys2Proof.Machine

variable {s : State}

@[simp] theorem State.fill_wf (f : FlaskId) (r : ScorRec) (h b : Nat) (hw : s.mem.wf = true) :
    (s.fill f r h b).1.mem.wf = true := by
  unfold State.fill
  dsimp only
  split
  · simp [hw]
  dsimp only
  refine ite_wf ?_ (State.hubWrite_wf _ _ _ _ (by simp [hw]))
  exact State.postFlask_wf _ _ _ _ _ (State.hubWrite_wf _ _ _ _ (by simp [hw]))

@[simp] theorem execSummaryFill_keeps {f : FlaskId} {region : BitVec 16} {head : BitVec 6} {block : BitVec 16}
    (hw : s.mem.wf = true) : Keeps (execSummaryFill f region head block s) := by
  unfold execSummaryFill; dsimp only; (repeat' split) <;> simp [hw]

@[simp] theorem State.readQuery_wf (dom : Domain) (q : ScoreRec) (r : ScorRec) (hw : s.mem.wf = true) :
    (s.readQuery dom q r).1.mem.wf = true := by
  unfold State.readQuery; dsimp only; (repeat' split) <;> simp [hw]

@[simp] theorem State.checkScore_wf (a : ScoreAsk) (hw : s.mem.wf = true) : (s.checkScore a).mem.wf = true := by
  unfold State.checkScore; dsimp only; (repeat' split) <;> simp [hw]

theorem State.submit_keeps {f : FlaskId} {region : BitVec 16} {slot : BitVec 6} {ops : Nat → Bool} (hw : s.mem.wf = true) :
    Keeps (s.submit f region slot ops) := by
  unfold State.submit; (repeat' split) <;> simp [hw]

@[simp] theorem execScorerScore_keeps {f : FlaskId} {region : BitVec 16} {slot : BitVec 6} (hw : s.mem.wf = true) :
    Keeps (execScorerScore f region slot s) := by
  unfold execScorerScore
  exact State.submit_keeps hw

@[simp] theorem execScorerReset_keeps {f : FlaskId} {region : BitVec 16} {slot : BitVec 6} (hw : s.mem.wf = true) :
    Keeps (execScorerReset f region slot s) := by
  unfold execScorerReset
  exact State.submit_keeps hw

@[simp] theorem execScorerRebuild_keeps {f : FlaskId} {region : BitVec 16} {slot : BitVec 6} (hw : s.mem.wf = true) :
    Keeps (execScorerRebuild f region slot s) := by
  unfold execScorerRebuild
  exact State.submit_keeps hw

@[simp] theorem State.scanRec_wf (q : ScoreReq) (c : ScoreRec) (x : ScanRes) (b : Nat) (hw : s.mem.wf = true) :
    (s.scanRec q c x b).1.mem.wf = true := by
  unfold State.scanRec; dsimp only; (repeat' split) <;> simp [hw]

@[simp] theorem State.scan_wf (q : ScoreReq) (ch : Nat) (hw : s.mem.wf = true) : (s.scan q ch).1.mem.wf = true := by
  unfold State.scan
  dsimp only
  split
  · exact foldl_wf_fst (fun _ _ hr => by simp [hr]) _ (by simp [hw])
  · split <;> exact foldl_wf_fst (fun _ _ hr => by simp [hr]) _ (by simp [hw])

@[simp] theorem State.hubTagged_wf (dom : Domain) : ∀ (a : Nat) (ws : List TWord) {s : State}, s.mem.wf = true →
    (s.hubTagged dom a ws).mem.wf = true
  | _, [], _, hw => hw
  | a, w :: ws, s, hw => by
    unfold State.hubTagged
    dsimp only
    refine hubTagged_wf dom _ ws ?_
    split
    · exact hw
    · exact ite_wf hw (by simp [hw])

@[simp] theorem execScorerScanComplete_keeps {f : FlaskId} {region : BitVec 16} {slot : BitVec 6} {channel : BitVec 4}
    (hw : s.mem.wf = true) : Keeps (execScorerScanComplete f region slot channel s) := by
  unfold execScorerScanComplete
  extract_lets ch
  split
  · exact Keeps.next.2 hw
  refine keeps_ite (Keeps.next.2 hw) ?_
  extract_lets c x st t _ u info
  have hx : x.1.mem.wf = true := by
    unfold x
    split <;> simp [hw]
  have hu : u.mem.wf = true := ite_wf (a := x.1.hubTagged ..) (by simp [hx]) hx
  clear_value u
  split
  · simp [hu]
  · exact Keeps.next.2 (ite_wf (by simp [hu]) hu)

@[simp] theorem State.twinSend_wf (b : TwinBody) (hw : s.mem.wf = true) : (s.twinSend b).mem.wf = true := by
  simp [State.twinSend, hw]

@[simp] theorem State.twinStream_wf (bs : List TwinBody) (hw : s.mem.wf = true) : (s.twinStream bs).mem.wf = true := by
  simp [State.twinStream, hw]

@[simp] theorem State.mirrorNow_wf (x : MirrorSel) (hw : s.mem.wf = true) : (s.mirrorNow x).mem.wf = true := by
  simp [State.mirrorNow, hw]

@[simp] theorem State.mirrorSlot_wf (i : Nat) (hw : s.mem.wf = true) : (s.mirrorSlot i).mem.wf = true := by
  unfold State.mirrorSlot
  exact foldl_wf (fun t _ ht => by simp [ht]) _ hw

@[simp] theorem State.forgetMirroredKeys_mem : s.forgetMirroredKeys.mem = s.mem := rfl

@[simp] theorem State.setSlot_wf (i : Nat) (k : KeySlot) (hw : s.mem.wf = true) : (s.setSlot i k).mem.wf = true := by
  simp [State.setSlot, hw]

@[simp] theorem State.clearSlot_wf (i : Nat) (hw : s.mem.wf = true) : (s.clearSlot i).mem.wf = true := by
  simp [State.clearSlot, hw]

@[simp] theorem State.loseSlot_wf (i : Nat) (hw : s.mem.wf = true) : (s.loseSlot i).mem.wf = true := by
  simp [State.loseSlot, hw]

@[simp] theorem State.unwrapEnd_wf (h : CmdHdr) (p : UnwrapP) (plain : Option KeyAttrs) (hw : s.mem.wf = true) :
    (s.unwrapEnd h p plain).mem.wf = true := by
  unfold State.unwrapEnd
  dsimp only
  split
  · simp [hw]
  split
  · simp [hw]
  · exact State.done_wf _ _ (by simp [hw])

@[simp] theorem execKeyUnwrap_keeps {h : CmdHdr} {p : UnwrapP} (hw : s.mem.wf = true) : Keeps (execKeyUnwrap h p s) := by
  unfold execKeyUnwrap
  refine State.command_keeps _ _ hw (fun t ht => ?_)
  dsimp only
  split
  · simp [ht]
  refine ite_wf (by simp [ht]) ?_
  split
  · exact State.done_wf _ _ (by simp [ht])
  · exact State.done_wf _ _ (by simp [ht])
  · exact State.unwrapEnd_wf _ _ _ (by simp [ht])

@[simp] theorem execKeyClear_keeps {h : CmdHdr} {slot : BitVec 16} (hw : s.mem.wf = true) : Keeps (execKeyClear h slot s) := by
  unfold execKeyClear
  refine State.command_keeps _ _ hw (fun t ht => ?_)
  exact ite_wf (by simp [ht]) (ite_wf (by simp [ht]) (State.done_wf _ _ (by simp [ht])))

@[simp] theorem execKeyAssign_keeps {h : CmdHdr} {flask first count : BitVec 16} (hw : s.mem.wf = true) :
    Keeps (execKeyAssign h flask first count s) := by
  unfold execKeyAssign
  refine State.command_keeps _ _ hw (fun t ht => ?_)
  dsimp only
  refine ite_wf (by simp [ht]) ?_
  refine ite_wf (by simp [ht]) ?_
  exact ite_wf (by simp [ht]) (State.done_wf _ _ (foldl_wf (fun u _ hu => by simp [hu]) _ ht))

@[simp] theorem State.unstart_mem (h : CmdHdr) : (s.unstart h).mem = s.mem := by simp [State.unstart]

@[simp] theorem execCvCompute_keeps {h : CmdHdr} {p : CvP} (hw : s.mem.wf = true) : Keeps (execCvCompute h p s) := by
  refine State.command_keeps _ _ hw fun t ht => ?_
  dsimp only
  (repeat' split) <;> simp [ht]

@[simp] theorem execCvRequestStart_keeps {engine : BitVec 4} (hw : s.mem.wf = true) : Keeps (execCvRequestStart engine s) := by
  unfold execCvRequestStart; dsimp only; (repeat' split) <;> simp [hw]

@[simp] theorem execCvRequestComplete_keeps {engine : BitVec 4} (hw : s.mem.wf = true) :
    Keeps (execCvRequestComplete engine s) := by
  unfold execCvRequestComplete
  dsimp only
  split
  · simp [hw]
  refine keeps_ite (by simp [hw]) ?_
  refine keeps_ite (by simp [hw]) ?_
  refine keeps_ite ?_ ?_
  · refine keeps_ite ?_ ?_
    · exact Keeps.next.2 (State.complete_wf _ _ _ _ _ (by simp [hw]))
    refine keeps_ite ?_ ?_
    · exact Keeps.next.2 (State.complete_wf _ _ _ _ _ (by simp [hw]))
    · exact Keeps.next.2 (State.complete_wf _ _ _ _ _ (by simp [hw]))
  · exact keeps_ite (by simp [hw]) (Keeps.next.2 (State.complete_wf _ _ _ _ _ (by simp [hw])))

@[simp] theorem execAttest_keeps {h : CmdHdr} {nonce : BitVec 256} {dest : BitVec 64} {flask : BitVec 16} (hw : s.mem.wf = true) :
    Keeps (execAttest h nonce dest flask s) := by
  unfold execAttest
  refine State.command_keeps _ _ hw (fun t ht => ?_)
  dsimp only
  refine ite_wf (by simp [ht]) ?_
  refine ite_wf (by simp [ht]) ?_
  exact ite_wf (by simp [ht]) (ite_wf (by simp [ht]) (ite_wf (by simp [ht]) (State.done_wf _ _ (by simp [ht]))))

@[simp] theorem State.putKey_mem (base : Nat) (k : BitVec 256) : (s.putKey base k).mem = s.mem := by
  unfold State.putKey; exact foldl_keeps (view := State.mem) (fun _ _ => by simp) _ _

theorem setKey_wf (base off : Nat) (k : BitVec 256) (v : Word) (h : CmdHdr) (st : Status) (hw : s.mem.wf = true) :
    (((s.putKey base k).setReg off v).done h st).mem.wf = true :=
  State.done_wf _ _ (by rw [State.setReg_mem, State.putKey_mem]; exact hw)

@[simp] theorem execMouldKeySet_keeps {h : CmdHdr} {keyId clear : Byte} {pubkey : BitVec 256} (hw : s.mem.wf = true) :
    Keeps (execMouldKeySet h keyId clear pubkey s) := by
  unfold execMouldKeySet
  refine State.command_keeps _ _ hw fun _ ht => ?_
  generalize 0x600100 = keys
  generalize 0x600300 = used
  exact ite_wf (State.done_wf _ _ ht) (ite_wf (setKey_wf _ _ _ _ _ _ ht) (setKey_wf _ _ _ _ _ _ ht))

@[simp] theorem execDebugKeySet_keeps {h : CmdHdr} {clear : Byte} {pubkey : BitVec 256} (hw : s.mem.wf = true) :
    Keeps (execDebugKeySet h clear pubkey s) :=
  State.command_keeps _ _ hw fun _ ht => ite_wf (State.done_wf _ _ ht)
    (ite_wf (setKey_wf _ _ _ _ _ _ ht) (setKey_wf _ _ _ _ _ _ ht))

@[simp] theorem State.provision_wf (h : CmdHdr) (sigOk : Bool) (duk : Option (BitVec 256)) (hw : s.mem.wf = true) :
    (s.provision h sigOk duk).mem.wf = true := by
  unfold State.provision; (repeat' split) <;> simp [hw]

@[simp] theorem execDukProvision_keeps {h : CmdHdr} {offset : Word} (hw : s.mem.wf = true) :
    Keeps (execDukProvision h offset s) := by
  refine State.command_keeps _ _ hw fun t ht => ?_
  dsimp only
  (repeat' split) <;> simp [ht]

@[simp] theorem execDukRotate_keeps {h : CmdHdr} {offset : Word} (hw : s.mem.wf = true) : Keeps (execDukRotate h offset s) := by
  refine State.command_keeps _ _ hw fun t ht => ?_
  dsimp only
  (repeat' split) <;> simp [ht]

@[simp] theorem State.eraseTenants_wf (hw : s.mem.wf = true) : s.eraseTenants.mem.wf = true := by
  unfold State.eraseTenants
  dsimp only
  refine State.inResume_wf ?_
  refine foldl_wf (fun t _ ht => by simp [ht]) _ ?_
  refine foldl_wf (fun t _ ht => by simp [ht]) _ ?_
  rw [State.forgetMirroredKeys_mem]
  exact foldl_wf (fun t _ ht => by simp [ht]) _ hw

@[simp] theorem State.eraseAll_wf (hw : s.mem.wf = true) : s.eraseAll.mem.wf = true := by
  unfold State.eraseAll
  dsimp only
  exact foldl_wf (fun t _ ht => by simp [ht]) _ hw

@[simp] theorem State.endActivation_wf (st : Status) (hw : s.mem.wf = true) : (s.endActivation st).mem.wf = true := by
  unfold State.endActivation; (repeat' split) <;> simp [hw]

@[simp] theorem State.raiseBreakout_wf (trigger level : Nat) (hw : s.mem.wf = true) :
    (s.raiseBreakout trigger level).mem.wf = true := by
  unfold State.raiseBreakout
  dsimp only
  refine ite_wf (by simp [hw]) ?_
  refine foldl_wf (fun t _ ht => by simp [ht]) _ ?_
  refine State.postOwner_wf _ _ _ _ ?_
  exact ite_wf (State.eraseAll_wf (ite_wf (by simp [hw]) (by simp [hw]))) (ite_wf (by simp [hw]) (by simp [hw]))

@[simp] theorem execBreakoutRaise_keeps {h : CmdHdr} {level : Byte} (hw : s.mem.wf = true) :
    Keeps (execBreakoutRaise h level s) := by
  refine State.command_keeps _ _ hw fun t ht => ?_
  (repeat' split) <;> simp [ht]

@[simp] theorem execBreakoutClear_keeps {h : CmdHdr} (hw : s.mem.wf = true) : Keeps (execBreakoutClear h s) := by
  unfold execBreakoutClear
  refine State.command_keeps _ _ hw (fun t ht => ?_)
  dsimp only
  iterate 3 refine ite_wf (by simp [ht]) ?_
  exact foldl_wf (fun u _ hu => by simp [hu]) _ (State.postOwner_wf _ _ _ _ (State.done_wf _ _ (by simp [ht])))

@[simp] theorem execBreakoutTrigger_keeps {trigger : BitVec 3} {asserts : Bool} (hw : s.mem.wf = true) :
    Keeps (execBreakoutTrigger trigger asserts s) := by
  unfold execBreakoutTrigger; dsimp only; (repeat' split) <;> simp [hw]

@[simp] theorem execOlChal_keeps {scope : Byte} (hw : s.mem.wf = true) : Keeps (execOlChal scope s) := by
  unfold execOlChal; dsimp only; (repeat' split) <;> simp [hw]

@[simp] theorem State.unlockDebug_wf (keyIndex scope : Byte) (hw : s.mem.wf = true) :
    (s.unlockDebug keyIndex scope).mem.wf = true := by
  simp [State.unlockDebug, hw]

@[simp] theorem State.unlockFailed_mem : s.unlockFailed.mem = s.mem := rfl

@[simp] theorem execOlResp_keeps {keyIndex scope : Byte} {sig : BitVec 512} {ageMs : Nat} (hw : s.mem.wf = true) :
    Keeps (execOlResp keyIndex scope sig ageMs s) := by
  unfold execOlResp; (repeat' split) <;> simp [hw]

@[simp] theorem execDebugLockoutExpiry_keeps (hw : s.mem.wf = true) : Keeps (execDebugLockoutExpiry s) := by
  simp [execDebugLockoutExpiry, hw]

@[simp] theorem State.loseAdmin_wf (hw : s.mem.wf = true) : s.loseAdmin.mem.wf = true := by
  unfold State.loseAdmin
  dsimp only
  refine foldl_wf (fun t _ ht => ?_) _ (foldl_wf (fun t _ ht => by simp [ht]) _ hw)
  exact State.putCompletion_wf _ _ (by simp [ht])

@[simp] theorem State.transition_wf (m : Master) (nonce : BitVec 16) (hw : s.mem.wf = true) :
    (s.transition m nonce).mem.wf = true := by
  unfold State.transition
  dsimp only
  exact State.tryTransition_wf (by simp [hw])

@[simp] theorem State.openWindow_mem : s.openWindow.mem = s.mem := by
  unfold State.openWindow; split <;> simp

@[simp] theorem execElectionWindowClose_keeps (hw : s.mem.wf = true) : Keeps (execElectionWindowClose s) := by
  unfold execElectionWindowClose; (repeat' split) <;> simp [hw]

@[simp] theorem State.takeAsk_wf (a : OwnAsk) (hw : s.mem.wf = true) : (s.takeAsk a).mem.wf = true := by
  cases a with
  | claim m priority nonce => unfold State.takeAsk
                              simp [hw]
  | handover m target nonce => unfold State.takeAsk
                               simp [hw]
  | accept m nonce => unfold State.takeAsk
                      simp [hw]

@[simp] theorem State.askOwn_wf (m : Master) (a : OwnAsk) (hw : s.mem.wf = true) : (s.askOwn m a).mem.wf = true := by
  unfold State.askOwn; (repeat' split) <;> simp [hw]

@[simp] theorem execOwnClaim_keeps {m : Master} {priority : Byte} {nonce : BitVec 16} {epoch : Word} (hw : s.mem.wf = true) :
    Keeps (execOwnClaim m priority nonce epoch s) := by
  unfold execOwnClaim; (repeat' split) <;> simp [hw]

@[simp] theorem execOwnHandover_keeps {m : Master} {target : BitVec 2} {nonce : BitVec 16} (hw : s.mem.wf = true) :
    Keeps (execOwnHandover m target nonce s) := by
  simp [execOwnHandover, hw]

@[simp] theorem execOwnAccept_keeps {m : Master} {nonce : BitVec 16} (hw : s.mem.wf = true) :
    Keeps (execOwnAccept m nonce s) := by
  simp [execOwnAccept, hw]

@[simp] theorem execHandoverExpiry_keeps (hw : s.mem.wf = true) : Keeps (execHandoverExpiry s) := by
  unfold execHandoverExpiry; (repeat' split) <;> simp [hw]

@[simp] theorem execOwnerLost_keeps (hw : s.mem.wf = true) : Keeps (execOwnerLost s) := by
  unfold execOwnerLost; dsimp only; (repeat' split) <;> simp [hw]

@[simp] theorem execOwnerHoldExpiry_keeps (hw : s.mem.wf = true) : Keeps (execOwnerHoldExpiry s) := by
  unfold execOwnerHoldExpiry; (repeat' split) <;> simp [hw]

@[simp] theorem execMctpHeartbeat_keeps (hw : s.mem.wf = true) : Keeps (execMctpHeartbeat s) := by
  simp [execMctpHeartbeat, hw]

@[simp] theorem execMgmtLivenessLapse_keeps (hw : s.mem.wf = true) : Keeps (execMgmtLivenessLapse s) := by
  simp [execMgmtLivenessLapse, hw]

end Sys2Proof.Machine
end

section
/-!
Images, background work and casts keep the canonical form of the stores.
-/

namespace Sys2Proof.Machine

variable {s : State}

@[simp] theorem State.loadProc_wf (fp : FwProc) (hw : s.mem.wf = true) : (s.loadProc fp).mem.wf = true := by
  simp [State.loadProc, hw]

theorem State.loadFirmware_wf {t : State} (hw : s.mem.wf = true) (e : s.loadFirmware = some t) : t.mem.wf = true := by
  unfold State.loadFirmware at e
  dsimp only at e
  split at e
  · exact Option.some.inj e ▸ hw
  split at e
  · exact absurd e (by simp)
  · exact Option.some.inj e ▸ foldl_wf (fun _ _ ht => by simp [ht]) _ hw

@[simp] theorem State.forget_mem (l : LadleRef) (tag : Word) : (s.forget l tag).mem = s.mem := rfl

@[simp] theorem State.endWork_wf (l : LadleRef) (tag : Word) (hw : s.mem.wf = true) : (s.endWork l tag).mem.wf = true := by
  unfold State.endWork
  dsimp only
  refine State.stepVols_wf ?_
  iterate 5 refine foldl_wf (fun t _ ht => by simp [ht]) _ ?_
  split <;> simp [hw]

@[simp] theorem State.loadCore_wf (f : FlaskId) (m : Mould) (i : Nat) (hw : s.mem.wf = true) :
    (s.loadCore f m i).mem.wf = true := by
  unfold State.loadCore; dsimp only; (repeat' split) <;> simp [hw]

@[simp] theorem State.wire_mem (f : FlaskId) (r : RouteRec) (waiting : Nat) : (s.wire f r waiting).mem = s.mem := by
  unfold State.wire; dsimp only; split <;> simp

@[simp] theorem State.putObject_wf (cls : List ClusterId) (r : SyncRec) (hw : s.mem.wf = true) :
    (s.putObject cls r).mem.wf = true := by
  unfold State.putObject; dsimp only; (repeat' split) <;> simp [hw]

@[simp] theorem State.giveCluster_wf (d : Domain) (cl : ClusterId) (hw : s.mem.wf = true) :
    (s.giveCluster d cl).mem.wf = true := by
  unfold State.giveCluster; dsimp only; (repeat' split) <;> simp [hw]

@[simp] theorem State.giveGranule_wf (d : Domain) (g : Nat) (hw : s.mem.wf = true) : (s.giveGranule d g).mem.wf = true := by
  simp [State.giveGranule, hw]

@[simp] theorem State.dropWaiters_wf (p : Proc) (hw : s.mem.wf = true) : (s.dropWaiters p).mem.wf = true := by
  unfold State.dropWaiters
  dsimp only
  exact foldl_wf (fun t _ ht => by simp [ht]) _ (by simp [hw])

@[simp] theorem State.dropWords_mem (c : CoreId) : (s.dropWords c).mem = s.mem := rfl

@[simp] theorem State.creditWords_mem (c : CoreId) (gen : Byte) : (s.creditWords c gen).mem = s.mem := rfl

@[simp] theorem State.dropFabric_mem (p : Proc) : (s.dropFabric p).mem = s.mem := rfl

@[simp] theorem State.strip_wf (c : CoreId) (hw : s.mem.wf = true) : (s.strip c).mem.wf = true := by
  simp [State.strip, hw]

@[simp] theorem State.stopEngines_wf (c : CoreId) (hw : s.mem.wf = true) : (s.stopEngines c).mem.wf = true := by
  unfold State.stopEngines
  dsimp only
  refine State.modCore_wf _ _ ?_
  refine foldl_wf (fun t _ ht => ?_) _ hw
  split <;> simp [ht]

@[simp] theorem State.loadAll_wf (f : FlaskId) (m : Mould) (hw : s.mem.wf = true) : (s.loadAll f m).mem.wf = true := by
  unfold State.loadAll
  dsimp only
  refine foldl_wf (fun t _ ht => by simp [ht]) _ ?_
  exact foldl_wf (fun t _ ht => by simp [ht]) _ (foldl_wf (fun t _ ht => by simp [ht]) _ hw)

@[simp] theorem State.castFull_wf (f : FlaskId) (c : Container) (r : Nat) (hw : s.mem.wf = true) :
    (s.castFull f c r).mem.wf = true := by
  unfold State.castFull
  dsimp only
  refine State.loadAll_wf _ _ ?_
  refine State.writeTrip_wf _ ?_
  rw [State.setFlask_mem]
  refine foldl_wf (fun t _ ht => by simp [ht]) _ ?_
  exact foldl_wf (fun t _ ht => by simp [ht]) _ (foldl_wf (fun t _ ht => by simp [ht]) _ hw)

@[simp] theorem State.revokeLeaving_wf (c : Container) (f : FlaskId) (hw : s.mem.wf = true) :
    (s.revokeLeaving c f).mem.wf = true := by
  unfold State.revokeLeaving
  exact foldl_wf (fun t _ ht => by simp [ht]) _ hw

@[simp] theorem State.leaveGranules_wf (c : Container) (f : FlaskId) (hw : s.mem.wf = true) :
    (s.leaveGranules c f).mem.wf = true := by
  unfold State.leaveGranules
  dsimp only
  refine foldl_wf (fun t _ ht => ?_) _ ?_
  · exact foldl_wf (fun u _ hu => by simp [hu]) _ ht
  refine foldl_wf (fun t _ ht => by simp [ht]) _ ?_
  dsimp only
  exact foldl_wf (fun t _ ht => by simp [ht]) _ (by simp [hw])

@[simp] theorem State.dropTokens_wf (f : FlaskId) (gone : List ClusterId) (hw : s.mem.wf = true) :
    (s.dropTokens f gone).mem.wf = true := by
  unfold State.dropTokens
  dsimp only
  exact foldl_wf (fun t _ ht => by simp [ht]) _ (by simp [hw])

@[simp] theorem State.leaveCluster_wf (cl : ClusterId) (hw : s.mem.wf = true) : (s.leaveCluster cl).mem.wf = true := by
  unfold State.leaveCluster
  dsimp only
  refine State.giveCluster_wf _ _ ?_
  refine foldl_wf (fun t _ ht => by simp [ht]) _ ?_
  refine foldl_wf (fun t _ ht => ?_) _ (by simp [hw])
  split
  · simp [ht]
  · simp [ht]
  · simp [ht]
  · exact ht

@[simp] theorem State.castPartial_wf (f : FlaskId) (c : Container) (r : Nat) (hw : s.mem.wf = true) :
    (s.castPartial f c r).mem.wf = true := by
  unfold State.castPartial
  dsimp only
  refine foldl_wf (fun t _ ht => ?_) _ ?_
  · split
    · simp [ht]
    · exact ht
  iterate 3 refine foldl_wf (fun t _ ht => by simp [ht]) _ ?_
  refine State.writeTrip_wf _ ?_
  rw [State.setFlask_mem]
  iterate 4 refine foldl_wf (fun t _ ht => by simp [ht]) _ ?_
  refine State.dropTokens_wf _ _ ?_
  refine foldl_wf (fun t _ ht => ?_) _ ?_
  · split <;> simp [ht]
  · exact foldl_wf (fun t _ ht => by simp [ht]) _ (by simp [hw])

@[simp] theorem State.undoPartial_wf (f : FlaskId) (c : Container) (hw : s.mem.wf = true) :
    (s.undoPartial f c).mem.wf = true := by
  unfold State.undoPartial
  dsimp only
  split
  · exact hw
  refine foldl_wf (fun t _ ht => ?_) _ ?_
  · split
    · exact ht
    · simp [ht]
  · exact foldl_wf (fun t _ ht => by simp [ht]) _ (by simp [hw])

@[simp] theorem State.castSteps_mem (n : Nat) : (s.castSteps n).mem = s.mem := by
  unfold State.castSteps; exact foldl_keeps (view := State.mem) (fun _ _ => by simp) _ _

@[simp] theorem State.castDone_wf (tag : Word) (f : Option FlaskId) (st : Status) (detail : Word) (hw : s.mem.wf = true) :
    (s.castDone tag f st detail).mem.wf = true := by
  unfold State.castDone
  dsimp only
  refine State.complete_wf _ _ _ _ _ ?_
  refine State.castEvent_wf _ _ _ ?_
  split <;> simp [hw]

@[simp] theorem State.verifyMould_wf (tag : Word) (signed : Container → BitVec 256 → Bool) (hw : s.mem.wf = true) :
    (s.verifyMould tag signed).1.mem.wf = true := by
  unfold State.verifyMould; dsimp only; (repeat' split) <;> simp [hw]

@[simp] theorem State.takeMould_wf (tag : Word) (signed : Container → BitVec 256 → Bool) (hw : s.mem.wf = true) :
    (s.takeMould tag signed).1.mem.wf = true := by
  unfold State.takeMould; (repeat' split) <;> simp [hw]

@[simp] theorem State.goCast_wf (tag : Word) (f : FlaskId) (c : Container) (r : Nat) (env : CastEnv) (hw : s.mem.wf = true) :
    (s.goCast tag f c r env).1.mem.wf = true := by
  unfold State.goCast
  dsimp only
  split
  · dsimp only
    exact State.castDone_wf _ _ _ _ (by simp [hw])
  · split
    · simp [hw]
    dsimp only
    exact State.castDone_wf _ _ _ _ (by simp [hw])
  split
  · simp [hw]
  split
  · simp [hw]
  split
  · dsimp only
    exact State.castDone_wf _ _ _ _ (by simp [hw])
  split
  · simp [hw]
  dsimp only
  exact State.castDone_wf _ _ _ _ (by simp [hw])

@[simp] theorem State.performCastAs_wf (tag : Word) (flask : BitVec 16) (env : CastEnv) (signed : Container → BitVec 256 → Bool)
    (hw : s.mem.wf = true) : (s.performCastAs tag flask env signed).1.mem.wf = true := by
  unfold State.performCastAs
  dsimp only
  split
  · simp [hw]
  split
  · simp [hw]
  split
  · simp [hw]
  split
  · simp [hw]
  split
  · rename_i t _ e
    have ht := wf_fst (by simp [hw]) e
    simp [ht]
  rename_i t _ e
  have ht := wf_fst (by simp [hw]) e
  split
  · simp [ht]
  · split <;> simp [ht]

@[simp] theorem State.performCast_wf (tag : Word) (flask : BitVec 16) (env : CastEnv) (hw : s.mem.wf = true) :
    (s.performCast tag flask env).1.mem.wf = true := by
  simp [State.performCast, hw]

@[simp] theorem State.queueCast_mem (tag : Word) : (s.queueCast tag).mem = s.mem := rfl

@[simp] theorem execCast_keeps {h : CmdHdr} {flask : BitVec 16} {env : CastEnv} (hw : s.mem.wf = true) :
    Keeps (execCast h flask env s) := by
  refine State.command_keeps _ _ hw fun t ht => ?_
  dsimp only
  (repeat' split) <;> simp [ht]

@[simp] theorem State.loseCore_wf (c : CoreId) (hw : s.mem.wf = true) : (s.loseCore c).mem.wf = true := by
  simp [State.loseCore, hw]

@[simp] theorem State.substitute_wf (c : CoreId) (hw : s.mem.wf = true) : (s.substitute c).mem.wf = true := by
  unfold State.substitute
  extract_lets cl k x t outs u m v f fresh
  have hu : u.mem.wf = true := by simp [u, t, hw]
  have hv : v.mem.wf = true := Mem.wf_congr rfl rfl rfl rfl rfl rfl (m := m) (Mem.wf_clearLines (coreBase c / 64) (coreBase c / 64 + 128) hu)
  clear_value v
  split
  · simp [hv]
  · simp [hv]

@[simp] theorem State.fenceCore_wf (c : CoreId) (hw : s.mem.wf = true) : (s.fenceCore c).mem.wf = true := by
  unfold State.fenceCore; dsimp only; (repeat' split) <;> simp [hw]

@[simp] theorem execCoreFailureDeclare_keeps {c : CoreId} {cause : FailCause} (hw : s.mem.wf = true) :
    Keeps (execCoreFailureDeclare c cause s) := by
  unfold execCoreFailureDeclare; dsimp only; (repeat' split) <;> simp [hw]

end Sys2Proof.Machine
end

section
/-!
Flasks, launches and ingots keep the canonical form of the stores.
-/

namespace Sys2Proof.Machine

variable {s : State}

@[simp] theorem State.newFlask_mem (f : FlaskId) (p : CreateP) : (s.newFlask f p).mem = s.mem := by
  unfold State.newFlask; exact foldl_keeps (view := State.mem) (fun _ _ => by simp) _ _

@[simp] theorem execCreate_keeps {h : CmdHdr} {p : CreateP} (hw : s.mem.wf = true) : Keeps (execCreate h p s) := by
  unfold execCreate
  refine State.command_keeps _ _ hw (fun t ht => ?_)
  refine ite_wf (by simp [ht]) ?_
  dsimp only
  split
  · simp [ht]
  refine ite_wf (by simp [ht]) ?_
  refine ite_wf (by simp [ht]) ?_
  exact ite_wf (by simp [ht]) (ite_wf (by simp [ht]) (State.complete_wf _ _ _ _ _ (by simp [ht])))

@[simp] theorem State.loseUnstarted_wf (f : FlaskId) (n : BitVec 4) (hw : s.mem.wf = true) :
    (s.loseUnstarted f n).mem.wf = true := by
  unfold State.loseUnstarted
  dsimp only
  refine ite_wf (foldl_wf (fun t _ ht => by simp [ht]) _ hw) ?_
  exact foldl_wf (fun t _ ht => by simp [ht]) _ (foldl_wf (fun t _ ht => by simp [ht]) _ hw)

@[simp] theorem State.haltCores_wf (f : FlaskId) (hw : s.mem.wf = true) : (s.haltCores f).mem.wf = true := by
  unfold State.haltCores
  exact foldl_wf (fun t _ ht => by simp [ht]) _ hw

@[simp] theorem State.squashTakes_wf (f : FlaskId) (hw : s.mem.wf = true) : (s.squashTakes f).mem.wf = true := by
  unfold State.squashTakes
  dsimp only
  refine foldl_wf (fun t _ ht => by simp [ht]) _ ?_
  dsimp only
  exact foldl_wf (fun t _ ht => by simp [ht]) _ hw

@[simp] theorem State.undoCast_wf (f : FlaskId) (hw : s.mem.wf = true) : (s.undoCast f).mem.wf = true := by
  unfold State.undoCast; (repeat' split) <;> simp [hw]

@[simp] theorem State.beginStop_wf (f : FlaskId) (hw : s.mem.wf = true) : (s.beginStop f).mem.wf = true := by
  unfold State.beginStop
  dsimp only
  refine State.haltCores_wf _ ?_
  dsimp only
  rw [State.setFlask_mem]
  exact State.squashTakes_wf _ (State.undoCast_wf _ (foldl_wf (fun t _ ht => by simp [ht]) _ hw))

@[simp] theorem State.squashHost_wf (f : FlaskId) (e : Ep) (hw : s.mem.wf = true) : (s.squashHost f e).mem.wf = true := by
  unfold State.squashHost
  dsimp only
  exact State.squashOut_wf _ _ (foldl_wf (fun t _ ht => by simp [ht]) _ (by simp [hw]))

@[simp] theorem State.squashWork_wf (f : FlaskId) (hw : s.mem.wf = true) : (s.squashWork f).mem.wf = true := by
  unfold State.squashWork
  dsimp only
  rw [State.setFlask_mem]
  iterate 4 refine foldl_wf (fun t _ ht => by simp [ht]) _ ?_
  dsimp only
  exact foldl_wf (fun t _ ht => by simp [ht]) _ hw

@[simp] theorem State.clearFlask_wf (f : FlaskId) (hw : s.mem.wf = true) : (s.clearFlask f).mem.wf = true := by
  unfold State.clearFlask
  extract_lets fl t u _ v w
  have ht : t.mem.wf = true := foldl_wf (fun _ _ h => by simp [h]) _ hw
  have hu : u.mem.wf = true := foldl_wf (fun _ _ h => Mem.wf_clearCluster _ h) _ ht
  have hv : v.mem.wf = true := Mem.wf_clearGranules _ hu
  have hx : w.mem.wf = true := foldl_wf (fun _ _ h => by simp [h]) _ hv
  exact foldl_wf (fun _ _ h => by simp [h]) _ hx

@[simp] theorem State.resetEvent_wf (f : FlaskId) (squashed : Bool) (hw : s.mem.wf = true) :
    (s.resetEvent f squashed).mem.wf = true := by
  simp [State.resetEvent, hw]

@[simp] theorem State.closeWindows_wf (f : FlaskId) (hw : s.mem.wf = true) : (s.closeWindows f).mem.wf = true := by
  unfold State.closeWindows
  refine foldl_wf (fun t _ ht => ?_) _ hw
  dsimp only
  rw [State.modEp_mem]
  exact foldl_wf (fun u _ hu => by simp [hu]) _ (foldl_wf (fun u _ hu => by simp [hu]) _ ht)

@[simp] theorem State.freeAll_wf (f : FlaskId) (hw : s.mem.wf = true) : (s.freeAll f).mem.wf = true := by
  unfold State.freeAll
  dsimp only
  rw [State.setFlask_mem, apply_ite State.mem, State.modEp_mem, ite_self]
  iterate 5 refine foldl_wf (fun t _ ht => by simp [ht]) _ ?_
  dsimp only
  exact foldl_wf (fun t _ ht => by simp [ht]) _ (foldl_wf (fun t _ ht => by simp [ht]) _ (by simp [hw]))

@[simp] theorem State.startDestroy_wf (f : FlaskId) (asked : List Word) (hw : s.mem.wf = true) :
    (s.startDestroy f asked).mem.wf = true := by
  simp [State.startDestroy, hw]

@[simp] theorem State.finishJob_wf (f : FlaskId) (hw : s.mem.wf = true) : (s.finishJob f).mem.wf = true := by
  unfold State.finishJob
  split
  · exact hw
  extract_lets +onlyGivenNames squashed t flask u v fl m w
  have hu : u.mem.wf = true := by simp [u, t, hw]
  have hclear : w.mem.wf = true := State.clearFlask_wf _ (State.readTrip_wf _ hu)
  clear_value m u w
  refine ite_wf hu (ite_wf ?_ ?_)
  · exact foldl_wf (fun t _ ht => by simp [ht]) _ (by simp [hclear])
  extract_lets +onlyGivenNames x flask y z r
  have hload : x.mem.wf = true := by
    unfold x
    split <;> simp [hclear]
  have hr : r.mem.wf = true := State.resetEvent_wf _ _ (foldl_wf (fun t _ ht => by simp [ht]) _ (by simp [y, hload]))
  exact ite_wf hr (State.startDestroy_wf _ _ hr)

@[simp] theorem State.resetFor_wf (f : FlaskId) (mode : Byte) (tenant : Bool) (tags : List Word) (hw : s.mem.wf = true) :
    (s.resetFor f mode tenant tags).mem.wf = true := by
  unfold State.resetFor
  dsimp only
  split
  · simp [hw]
  refine ite_wf ?_ (ite_wf (by simp [hw]) (by simp [hw]))
  exact State.resetEvent_wf _ _ (foldl_wf (fun t _ ht => by simp [ht]) _ (by simp [hw]))

@[simp] theorem State.askReset_wf (f : FlaskId) (mode : Byte) (tag : Option Word) (hw : s.mem.wf = true) :
    (s.askReset f mode tag).mem.wf = true := by
  simp [State.askReset, hw]

@[simp] theorem execReset_keeps {h : CmdHdr} {flask : BitVec 16} {mode : Byte} {resv : Nat} (hw : s.mem.wf = true) :
    Keeps (execReset h flask mode resv s) := by
  unfold execReset
  refine State.command_keeps _ _ hw (fun t ht => ?_)
  refine State.onFlask_wf _ _ ht (fun _ => ?_)
  dsimp only
  exact ite_wf (by simp [ht]) (by simp [ht])

@[simp] theorem execFpCtlReset_keeps {ep : Ep} {f : FlaskId} (hw : s.mem.wf = true) : Keeps (execFpCtlReset ep f s) := by
  unfold execFpCtlReset; (repeat' split) <;> simp [hw]

@[simp] theorem execDestroy_keeps {h : CmdHdr} {flask : BitVec 16} (hw : s.mem.wf = true) : Keeps (execDestroy h flask s) := by
  refine State.command_keeps _ _ hw fun t ht => ?_
  dsimp only
  (repeat' split) <;> simp [ht]

@[simp] theorem execFlaskDrainComplete_keeps {f : FlaskId} (hw : s.mem.wf = true) : Keeps (execFlaskDrainComplete f s) := by
  unfold execFlaskDrainComplete; (repeat' split) <;> simp [hw]

@[simp] theorem execFlaskDrainTimeout_keeps {f : FlaskId} (hw : s.mem.wf = true) : Keeps (execFlaskDrainTimeout f s) := by
  unfold execFlaskDrainTimeout; (repeat' split) <;> simp [hw]

@[simp] theorem State.unask_wf (tag : Word) (hw : s.mem.wf = true) : (s.unask tag).mem.wf = true := by
  unfold State.unask
  refine foldl_wf (fun t _ ht => ?_) _ hw
  dsimp only
  split
  · simp [ht]
  · exact ht

theorem State.arbitrate_wf (l : LadleRef) (tag : Word) (status : Status) {t : State} (hw : s.mem.wf = true)
    (e : (s.arbitrate l tag status) = some t) : t.mem.wf = true := by
  unfold State.arbitrate at e
  dsimp only at e
  split at e
  · split at e
    · exact nomatch e
    split at e
    · obtain rfl := Option.some.inj e
      simp [hw]
    obtain rfl := Option.some.inj e
    exact ite_wf (State.endWork_wf _ _ (ite_wf (by simp [hw]) (by simp [hw]))) (by simp [hw])
  split at e
  · exact nomatch e
  split at e
  · exact nomatch e
  obtain rfl := Option.some.inj e
  simp [hw]

@[simp] theorem execAbort_keeps {h : CmdHdr} {tag : Word} {flask : BitVec 16} {ladle : Byte} (hw : s.mem.wf = true) :
    Keeps (execAbort h tag flask ladle s) := by
  unfold execAbort
  refine State.command_keeps _ _ hw (fun t ht => ?_)
  dsimp only
  split
  · simp [ht]
  refine ite_wf (by simp [ht]) ?_
  split
  · simp [ht]
  rename_i u e
  have hu := State.arbitrate_wf _ _ _ ht e
  simp [hu]

@[simp] theorem execCommandTimeout_keeps {l : LadleRef} {tag : Word} (hw : s.mem.wf = true) :
    Keeps (execCommandTimeout l tag s) := by
  unfold execCommandTimeout
  refine keeps_ite (by simp [hw]) ?_
  split
  · simp [hw]
  rename_i t e
  have ht := State.arbitrate_wf _ _ _ hw e
  simp [ht]

@[simp] theorem State.setTally_wf (fa n : Nat) (hw : s.mem.wf = true) : (s.setTally fa n).mem.wf = true := by
  simp [State.setTally, hw]

@[simp] theorem wordOk_wf (fa : Nat) (lock : Bool) (hw : s.mem.wf = true) : (wordOk s fa lock).2.mem.wf = true :=
  wordsOk_wf fa lock 1 hw

@[simp] theorem execDispatch_keeps {h : CmdHdr} {p : DispatchP} (hw : s.mem.wf = true) : Keeps (execDispatch h p s) := by
  unfold execDispatch
  refine State.command_keeps _ _ hw (fun t ht => ?_)
  generalize h.ladle = l
  cases l with
  | admin => exact State.done_wf _ _ ht
  | flask f n =>
    dsimp only
    refine ite_wf (by simp [ht]) ?_
    split
    · refine ite_wf (State.done_wf _ _ (by simp [ht])) ?_
      refine ite_wf ?_ ?_
      · exact State.done_wf _ _ (State.hubTagged_wf _ _ _ (State.setTally_wf _ _ (by simp [ht])))
      rw [State.setFlask_mem]
      refine State.tap_wf _ _ ?_
      exact State.setTally_wf _ _ (State.hubTagged_wf _ _ _ (State.setTally_wf _ _ (by simp [ht])))
    · simp [ht]

@[simp] theorem execDispatchDone_keeps {f : FlaskId} {n : BitVec 4} {tag : Word} (hw : s.mem.wf = true) :
    Keeps (execDispatchDone f n tag s) := by
  unfold execDispatchDone; dsimp only; (repeat' split) <;> simp [hw]

@[simp] theorem execIngotArea_keeps {h : CmdHdr} {p : AreaP} (hw : s.mem.wf = true) : Keeps (execIngotArea h p s) := by
  refine State.command_keeps _ _ hw fun t ht => ?_
  dsimp only
  (repeat' split) <;> simp [ht]

@[simp] theorem State.dropRefs_mem (i : Nat) (refs : List Nat) : (s.dropRefs i refs).mem = s.mem := by
  unfold State.dropRefs; split <;> simp

@[simp] theorem State.clearIngot_mem (x : IngotSlot) : (s.clearIngot x).mem = s.mem := by simp [State.clearIngot]

@[simp] theorem State.freeIngot_wf (x : IngotSlot) (hw : s.mem.wf = true) : (s.freeIngot x).mem.wf = true := by
  simp [State.freeIngot, hw]

theorem State.giveSlots_wf (i n : Nat) (device : Word) (f : FlaskId) : ∀ (ks : List Nat) {s t : State}, s.mem.wf = true →
    s.giveSlots i n device f ks = some t → t.mem.wf = true
  | [], s, t, hw, e => by
    unfold State.giveSlots at e
    obtain rfl := Option.some.inj e
    exact hw
  | k :: ks, s, t, hw, e => by
    unfold State.giveSlots at e
    split at e
    · exact nomatch e
    split at e
    · exact nomatch e
    · exact giveSlots_wf i n device f ks (by exact hw) e

theorem State.setUp_wf (f : FlaskId) (p : IngotSetupP) {t : State} (hw : s.mem.wf = true) (e : (s.setUp f p) = some t) :
    t.mem.wf = true := by
  unfold State.setUp at e
  dsimp only at e
  obtain ⟨u, e1, rfl⟩ := Option.map_eq_some_iff.1 e
  have hu := State.giveSlots_wf _ _ _ _ _ (ite_wf hw (foldl_wf (fun t _ ht => by simp [ht]) _ hw)) e1
  simp [hu]

theorem State.trySetup_wf (f : FlaskId) (p : IngotSetupP) {t : State} (hw : s.mem.wf = true) (e : (s.trySetup f p) = .ok t) :
    t.mem.wf = true := by
  unfold State.trySetup at e
  split at e
  · exact nomatch e
  split at e
  · exact nomatch e
  split at e
  · exact nomatch e
  rename_i u e1
  have hu := State.setUp_wf _ _ hw e1
  split at e
  · exact nomatch e
  split at e
  · exact nomatch e
  split at e
  · exact nomatch e
  obtain rfl := Except.ok.inj e
  simp [hu]

@[simp] theorem execIngotSetup_keeps {h : CmdHdr} {p : IngotSetupP} (hw : s.mem.wf = true) : Keeps (execIngotSetup h p s) := by
  unfold execIngotSetup
  refine State.command_keeps _ _ hw (fun t ht => ?_)
  refine State.onFlask_wf _ _ ht (fun _ => ?_)
  dsimp only
  refine ite_wf (by simp [ht]) ?_
  refine ite_wf (by simp [ht]) ?_
  split
  · simp [ht]
  rename_i u e
  have hu := State.trySetup_wf _ _ ht e
  simp [hu]

@[simp] theorem State.beginTake_wf (f : FlaskId) (l : LadleRef) (tag : Word) (hw : s.mem.wf = true) :
    (s.beginTake f l tag).mem.wf = true := by
  unfold State.beginTake; dsimp only; (repeat' split) <;> simp [hw]

@[simp] theorem State.nextTake_wf (f : FlaskId) (hw : s.mem.wf = true) : (s.nextTake f).mem.wf = true := by
  unfold State.nextTake; (repeat' split) <;> simp [hw]

@[simp] theorem execIngotTake_keeps {h : CmdHdr} {flask : BitVec 16} (hw : s.mem.wf = true) :
    Keeps (execIngotTake h flask s) := by
  unfold execIngotTake
  refine State.command_keeps _ _ hw (fun t ht => ?_)
  dsimp only
  split
  · exact State.onFlask_wf _ _ ht (fun _ => ite_wf (by simp [ht]) (ite_wf (by simp [ht]) (by simp [ht])))
  · exact ite_wf (by simp [ht]) (ite_wf (by simp [ht]) (by simp [ht]))

@[simp] theorem State.freeze_wf (t : Take) (m : Mould) (hw : s.mem.wf = true) : (s.freeze t m).mem.wf = true := by
  unfold State.freeze
  extract_lets f u fl gs d bad n g area x v frozen t' _ _ w
  have hu : u.mem.wf = true := foldl_wf (fun _ _ h => by simp [h]) _ hw
  have hv : v.mem.wf = true := hu
  have hx : w.mem.wf = true := Mem.mk_wf hv ..
  clear_value x w
  cases x with
  | none => exact hx
  | some y => simp [hx]

@[simp] theorem execIngotStepBoundary_keeps {f : FlaskId} (hw : s.mem.wf = true) : Keeps (execIngotStepBoundary f s) := by
  unfold execIngotStepBoundary; dsimp only; (repeat' split) <;> simp [hw]

@[simp] theorem execIngotQuietTimeout_keeps {f : FlaskId} (hw : s.mem.wf = true) : Keeps (execIngotQuietTimeout f s) := by
  unfold execIngotQuietTimeout; (repeat' split) <;> simp [hw]

theorem State.ownCopy_wf (x : IngotSlot) (g : IngotHdr) (d : IngotData) (keys : BitVec 512) {t : State} (hw : s.mem.wf = true)
    (e : (s.ownCopy x g d keys) = some t) : t.mem.wf = true := by
  unfold State.ownCopy at e
  split at e
  · exact nomatch e
  dsimp only at e
  split at e
  · obtain rfl := Option.some.inj e
    simp [hw]
  split at e
  · exact nomatch e
  obtain ⟨u, e1, rfl⟩ := Option.map_eq_some_iff.1 e
  simp [hw]

@[simp] theorem execIngotStreamComplete_keeps {f : FlaskId} {ownCopy peerCopy : CopyEnd} (hw : s.mem.wf = true) :
    Keeps (execIngotStreamComplete f ownCopy peerCopy s) := by
  unfold execIngotStreamComplete
  split
  · exact Keeps.next.2 hw
  split
  · exact Keeps.next.2 hw
  extract_lets +onlyGivenNames fl
  refine keeps_ite (Keeps.next.2 hw) (keeps_ite (by simp [hw]) (keeps_ite ?_ ?_))
  · exact Keeps.next.2 (State.nextTake_wf _ (State.endTake_wf _ _ (foldl_wf (fun t _ ht => by simp [ht]) _ hw)))
  extract_lets +onlyGivenNames peerArea both link peer single x done own t refs u v w st
  have ht : t.mem.wf = true := by
    unfold t done
    clear_value x
    split
    · exact hw
    split
    · exact hw
    split
    · exact hw
    · next e => exact State.ownCopy_wf _ _ _ _ hw e
  have hu : u.mem.wf = true := ite_wf (State.twinStream_wf _ ht) ht
  have hv : v.mem.wf = true := ite_wf hu (State.postOwner_wf _ _ _ _ hu)
  have hlast : w.mem.wf = true := ite_wf (State.postOwner_wf _ _ _ _ hv) hv
  exact Keeps.next.2 (State.nextTake_wf _ (State.endTake_wf _ _ hlast))

theorem Mem.foldl_setWord_wf {β : Type} (at' : β → Nat) (w : β → TWord) (l : List β) {m : Mem} (h : m.wf = true) :
    (l.foldl (fun m x => m.setWord (at' x) (w x)) m).wf = true :=
  List.foldlRecOn (motive := fun m : Mem => m.wf = true) l _ h fun _ ih _ _ => Mem.wf_setWord _ _ ih

@[simp] theorem State.loadCluster_wf (f : FlaskId) (cl : ClusterId) (r : ClusterImage) (hw : s.mem.wf = true) :
    (s.loadCluster f cl r).mem.wf = true := by
  unfold State.loadCluster
  dsimp only
  rw [State.setCluster_mem]
  refine foldl_wf (fun _ _ h => by simp [h]) _ ?_
  exact Mem.foldl_setWord_wf _ _ _ (Mem.foldl_setWord_wf _ _ _ (Mem.wf_clearCluster _ hw))

@[simp] theorem State.loadUnit_wf (f : FlaskId) (x : Nat × List Byte) (hw : s.mem.wf = true) :
    (s.loadUnit f x).mem.wf = true := by
  simp [State.loadUnit, hw]

@[simp] theorem State.settleStores_wf (f : FlaskId) (hw : s.mem.wf = true) : (s.settleStores f).mem.wf = true := by
  unfold State.settleStores
  dsimp only
  refine foldl_wf (fun t _ ht => ?_) _ hw
  split
  · simp [ht]
  · simp [ht]
  · exact ht

@[simp] theorem State.putIngot_wf (f : FlaskId) (m : Option Mould) (d : IngotData) (hw : s.mem.wf = true) :
    (s.putIngot f m d).mem.wf = true := by
  unfold State.putIngot
  dsimp only
  split
  · exact foldl_wf (fun t _ ht => by simp [ht]) _ (foldl_wf (fun t _ ht => by simp [ht]) _ hw)
  refine foldl_wf (fun t _ ht => by simp [ht]) _ ?_
  exact foldl_wf (fun t _ ht => by simp [ht]) _ (foldl_wf (fun t _ ht => by simp [ht]) _ hw)

@[simp] theorem State.restore_wf (f : FlaskId) (h : Option CmdHdr) (data : Option IngotData) (hw : s.mem.wf = true) :
    (s.restore f h data).mem.wf = true := by
  unfold State.restore
  extract_lets +onlyGivenNames held t
  clear_value held
  have ht : t.mem.wf = true := by
    unfold t
    split <;> simp [hw]
  clear_value t
  extract_lets +onlyGivenNames u fl m v
  have hv : v.mem.wf = true := State.clearFlask_wf _ (State.squashWork_wf _ (by simp [ht]))
  clear_value m v
  extract_lets +onlyGivenNames w
  have hload : w.mem.wf = true := by
    unfold w
    split <;> simp [hv]
  clear_value w
  extract_lets +onlyGivenNames x flask y
  have hx : x.mem.wf = true := by
    unfold x
    split <;> simp [hload]
  split <;> simp [y, hx]

@[simp] theorem State.restoreFrom_wf (f : FlaskId) (fromPeer : Bool) (pf : FlaskId) (number : Nat) (h : Option CmdHdr)
    (data : Option IngotData) (hw : s.mem.wf = true) : (s.restoreFrom f fromPeer pf number h data).2.mem.wf = true := by
  unfold State.restoreFrom
  dsimp only
  split
  · dsimp only
    exact foldl_wf (fun t _ ht => by simp [ht]) _ hw
  split
  · dsimp only
    exact foldl_wf (fun t _ ht => by simp [ht]) _ hw
  split
  · dsimp only
    exact foldl_wf (fun t _ ht => by simp [ht]) _ hw
  dsimp only
  exact State.restore_wf _ _ _ (foldl_wf (fun t _ ht => by simp [ht]) _ hw)

@[simp] theorem execIngotRestore_keeps {h : CmdHdr} {flask : BitVec 16} {fromPeer resv : Byte} {peerFlask : BitVec 16}
    {number : BitVec 64} {data : Option IngotData} (hw : s.mem.wf = true) :
    Keeps (execIngotRestore h flask fromPeer resv peerFlask number data s) := by
  unfold execIngotRestore
  refine State.command_keeps _ _ hw (fun t ht => ?_)
  dsimp only
  split
  · exact State.onFlask_wf _ _ ht (fun _ => ite_wf (by simp [ht]) (by simp [ht]))
  · exact ite_wf (by simp [ht]) (by simp [ht])

end Sys2Proof.Machine
end

section
/-!
Resets and the background's passes keep the canonical form of the stores.
-/

namespace Sys2Proof.Machine

variable {s : State}

@[simp] theorem execOptionWordsWrite_keeps (hw : s.mem.wf = true) : Keeps (execOptionWordsWrite s) := by
  unfold execOptionWordsWrite; dsimp only; (repeat' split) <;> simp [hw]

@[simp] theorem State.cleared_wf (deep unlock : Bool) : (s.cleared deep unlock).mem.wf = true := Mem.mk_wf Mem.reset_wf ..

@[simp] theorem State.resetBy_wf (src : Source) : (s.resetBy src).mem.wf = true := by
  unfold State.resetBy
  simp

@[simp] theorem State.coldShut_mem (reason : Nat) (detail : BitVec 16) : (s.coldShut reason detail).mem = s.mem := rfl

@[simp] theorem State.loadRom_wf (hw : s.mem.wf = true) : s.loadRom.mem.wf = true := by
  unfold State.loadRom; (repeat' split) <;> simp [hw]

@[simp] theorem State.bistStatus_mem (st : Status) (done : Bool) : (s.bistStatus st done).mem = s.mem := by
  rw [State.bistStatus, State.setReg_mem]

@[simp] theorem State.bistMeasured_mem (b : BistReport) : (s.bistMeasured b).mem = s.mem := by
  rw [State.bistMeasured, State.setReg_mem, State.setReg_mem]

@[simp] theorem State.enterService_mem (recovery : Bool) : (s.enterService recovery).mem = s.mem := rfl

@[simp] theorem State.releaseFirmware_wf (recovery : Bool) (hw : s.mem.wf = true) :
    (s.releaseFirmware recovery).mem.wf = true := by
  unfold State.releaseFirmware
  split
  · rename_i t e
    have ht := State.loadFirmware_wf hw e
    simp [ht]
  · simp [hw]

@[simp] theorem State.repairAll_wf (rs : List Repair) (hw : s.mem.wf = true) : (s.repairAll rs).mem.wf = true := by
  unfold State.repairAll
  exact foldl_wf (fun t _ ht => by simp [ht]) _ hw

@[simp] theorem State.bistRan_wf (env : StartupEnv) (recovery : Bool) (hw : s.mem.wf = true) :
    (s.bistRan env recovery).mem.wf = true := by
  unfold State.bistRan
  extract_lets +onlyGivenNames b checkers fatal lanes ok t
  have ht : t.mem.wf = true := by simp [t, hw]
  clear_value t
  extract_lets +onlyGivenNames u
  have hu : u.mem.wf = true := foldl_wf (fun v _ hv => by simp [hv]) _ ht
  clear_value u
  extract_lets +onlyGivenNames v
  have hv : v.mem.wf = true := by simp [v, hu]
  clear_value v
  extract_lets +onlyGivenNames _ w
  have hw' : w.mem.wf = true := by
    unfold w
    dsimp only
    exact Mem.mk_wf hv ..
  clear_value w
  extract_lets +onlyGivenNames s1
  have hs1 : s1.mem.wf = true := foldl_wf (fun s2 _ hs2 => by simp [hs2]) _ hw'
  clear_value s1
  exact ite_wf (by simp [hs1]) (by simp [hs1])

@[simp] theorem State.startDomains_wf (env : StartupEnv) (recovery : Bool) (hw : s.mem.wf = true) :
    (s.startDomains env recovery).mem.wf = true := by
  unfold State.startDomains; dsimp only; (repeat' split) <;> simp [hw]

@[simp] theorem State.loadOptions_wf (env : StartupEnv) (hw : s.mem.wf = true) : (s.loadOptions env).mem.wf = true := by
  unfold State.loadOptions
  dsimp only
  rw [State.setOpt_mem]
  exact foldl_wf (fun t _ ht => by simp [ht]) _ hw

@[simp] theorem State.startUp_wf (env : StartupEnv) (hw : s.mem.wf = true) : (s.startUp env).mem.wf = true := by
  unfold State.startUp
  refine ite_wf (by simp [hw]) ?_
  dsimp only
  refine ite_wf (by simp [hw]) ?_
  refine ite_wf ?_ ?_
  · exact State.startDomains_wf _ _ (State.loadOptions_wf _ (State.loadRom_wf (by simp [hw])))
  refine ite_wf ?_ (by simp [hw])
  exact State.startDomains_wf _ _ (State.loadOptions_wf _ (State.loadRom_wf (by simp [hw])))

@[simp] theorem State.moduleReset_wf (src : Source) (env : StartupEnv) : (s.moduleReset src env).mem.wf = true := by
  simp [State.moduleReset]

theorem State.resetIf_keeps {cond : Bool} {src : Source} {env : StartupEnv} (hw : s.mem.wf = true) :
    Keeps (s.resetIf cond src env) := by
  unfold State.resetIf; (repeat' split) <;> simp [hw]

@[simp] theorem execPowerOnReset_keeps {env : StartupEnv} (hw : s.mem.wf = true) : Keeps (execPowerOnReset env s) := by
  unfold execPowerOnReset; dsimp only; (repeat' split) <;> simp [hw]

@[simp] theorem State.powerDown_wf : s.powerDown.mem.wf = true := by
  simp [State.powerDown]

@[simp] theorem execBrownOut_keeps (hw : s.mem.wf = true) : Keeps (execBrownOut s) := by
  unfold execBrownOut; (repeat' split) <;> simp [hw]

@[simp] theorem execInputFuseOpen_keeps (hw : s.mem.wf = true) : Keeps (execInputFuseOpen s) := by
  unfold execInputFuseOpen; dsimp only; (repeat' split) <;> simp [hw]

@[simp] theorem execMateLChange_keeps {mated : Bool} (hw : s.mem.wf = true) : Keeps (execMateLChange mated s) := by
  unfold execMateLChange; dsimp only; (repeat' split) <;> simp [hw]

@[simp] theorem execResetPin_keeps {lowNs : Nat} {taken : Bool} (hw : s.mem.wf = true) : Keeps (execResetPin lowNs taken s) := by
  unfold execResetPin; dsimp only; (repeat' split) <;> simp [hw]

@[simp] theorem execModRstLRelease_keeps {env : StartupEnv} (hw : s.mem.wf = true) : Keeps (execModRstLRelease env s) := by
  unfold execModRstLRelease; dsimp only; (repeat' split) <;> simp [hw]

@[simp] theorem execModuleWatchdogExpiry_keeps {env : StartupEnv} (hw : s.mem.wf = true) :
    Keeps (execModuleWatchdogExpiry env s) := by
  unfold execModuleWatchdogExpiry
  exact State.resetIf_keeps hw

@[simp] theorem execLockUpReset_keeps {env : StartupEnv} (hw : s.mem.wf = true) : Keeps (execLockUpReset env s) := by
  unfold execLockUpReset
  exact State.resetIf_keeps hw

@[simp] theorem execRstSwreset_keeps {m : Master} {value : Word} {env : StartupEnv} (hw : s.mem.wf = true) :
    Keeps (execRstSwreset m value env s) := by
  unfold execRstSwreset
  dsimp only
  refine keeps_ite (Keeps.next.2 hw) ?_
  refine keeps_ite (Keeps.next.2 (ite_wf hw (by simp))) ?_
  refine keeps_ite ?_ ?_
  · exact Keeps.next.2 (State.ownerWrite_wf _ hw (ite_wf hw (by simp)))
  · exact keeps_ite (Keeps.next.2 (ite_wf hw (by simp))) (by simp [hw])

@[simp] theorem execBistPreconditionCheck_keeps {env : StartupEnv} (hw : s.mem.wf = true) :
    Keeps (execBistPreconditionCheck env s) := by
  unfold execBistPreconditionCheck; dsimp only; (repeat' split) <;> simp [hw]

@[simp] theorem State.dropFlight_mem (cls : ClusterId → Bool) (die : Option Die) : (s.dropFlight cls die).mem = s.mem := rfl

@[simp] theorem State.clusterDown_wf (cl : ClusterId) (hw : s.mem.wf = true) : (s.clusterDown cl).mem.wf = true := by
  simp [State.clusterDown, hw]

@[simp] theorem State.postDomain_wf (d : ClockDomain) (src : Source) (fs : List FlaskId) (hw : s.mem.wf = true) :
    (s.postDomain d src fs).mem.wf = true := by
  unfold State.postDomain
  dsimp only
  exact foldl_wf (fun t _ ht => by simp [ht]) _ (by simp [hw])

@[simp] theorem State.resetFlasks_wf (fs : List FlaskId) (hw : s.mem.wf = true) : (s.resetFlasks fs).mem.wf = true := by
  unfold State.resetFlasks
  exact foldl_wf (fun t _ ht => by simp [ht]) _ hw

@[simp] theorem State.dieReset_wf (d : Die) (at' : ClockDomain) (src : Source) (hw : s.mem.wf = true) :
    (s.dieReset d at' src).mem.wf = true := by
  unfold State.dieReset
  extract_lets +onlyGivenNames fs inDie kept ds _ t
  have ht : t.mem.wf = true := by simp [t, hw]
  clear_value t
  extract_lets +onlyGivenNames u
  have hu : u.mem.wf = true := foldl_wf (fun v _ hv => by simp [hv]) _ (by simp [ht])
  clear_value u
  extract_lets +onlyGivenNames _ v
  have hv : v.mem.wf = true := by
    unfold v
    dsimp only
    exact Mem.wf_filterUnits _ hu
  clear_value v
  simp [hv]

@[simp] theorem State.clusterReset_wf (cl : ClusterId) (src : Source) (hw : s.mem.wf = true) :
    (s.clusterReset cl src).mem.wf = true := by
  unfold State.clusterReset
  dsimp only
  exact State.postDomain_wf _ _ _ (State.resetFlasks_wf _ (by simp [hw]))

@[simp] theorem State.domainReset_wf (d : ClockDomain) (src : Source) (env : StartupEnv) (hw : s.mem.wf = true) :
    (s.domainReset d src env).mem.wf = true := by
  unfold State.domainReset; (repeat' split) <;> simp [hw]

@[simp] theorem execClockFailure_keeps {domain : ClockDomain} {env : StartupEnv} (hw : s.mem.wf = true) :
    Keeps (execClockFailure domain env s) := by
  unfold execClockFailure; (repeat' split) <;> simp [hw]

@[simp] theorem execDebugReset_keeps {domain : Option ClockDomain} {env : StartupEnv} (hw : s.mem.wf = true) :
    Keeps (execDebugReset domain env s) := by
  unfold execDebugReset; (repeat' split) <;> simp [hw]

@[simp] theorem execDomainClockStable_keeps {domain : ClockDomain} (hw : s.mem.wf = true) :
    Keeps (execDomainClockStable domain s) := by
  unfold execDomainClockStable; dsimp only; (repeat' split) <;> simp [hw]

@[simp] theorem execDomainStableTimeout_keeps {domain : ClockDomain} {env : StartupEnv} (hw : s.mem.wf = true) :
    Keeps (execDomainStableTimeout domain env s) := by
  unfold execDomainStableTimeout; dsimp only; (repeat' split) <;> simp [hw]

@[simp] theorem execOlDbgRelease_keeps {domain : ClockDomain} (hw : s.mem.wf = true) : Keeps (execOlDbgRelease domain s) := by
  unfold execOlDbgRelease; (repeat' split) <;> simp [hw]

@[simp] theorem execRstModeReqTest_keeps {m : Master} (hw : s.mem.wf = true) : Keeps (execRstModeReqTest m s) := by
  unfold execRstModeReqTest
  exact Keeps.next.2 (State.ownerWrite_wf _ hw (by simp [hw]))

@[simp] theorem execRstModeReqService_keeps {m : Master} (hw : s.mem.wf = true) : Keeps (execRstModeReqService m s) := by
  unfold execRstModeReqService
  exact Keeps.next.2 (State.ownerWrite_wf _ hw (by simp [hw]))

@[simp] theorem execBistCtlStart_keeps {m : Master} (hw : s.mem.wf = true) : Keeps (execBistCtlStart m s) := by
  unfold execBistCtlStart
  refine Keeps.next.2 ?_
  refine State.ownerWrite_wf _ hw ?_
  dsimp only
  exact ite_wf hw (ite_wf (by simp [hw]) (ite_wf (by simp [hw]) (ite_wf (by simp [hw]) (by simp [hw]))))

@[simp] theorem execRunTimeBistDone_keeps {pass : Bool} {repairs : List Repair} (hw : s.mem.wf = true) :
    Keeps (execRunTimeBistDone pass repairs s) := by
  unfold execRunTimeBistDone; dsimp only; (repeat' split) <;> simp [hw]

@[simp] theorem execBistCtlFuse_keeps {m : Master} (hw : s.mem.wf = true) : Keeps (execBistCtlFuse m s) := by
  unfold execBistCtlFuse
  exact Keeps.next.2 (State.ownerWrite_wf _ hw (by simp [hw]))

@[simp] theorem State.refuseFlip_mem : s.refuseFlip.mem = s.mem := by
  rw [State.refuseFlip, State.setReg_mem]

@[simp] theorem State.armFlip_wf (hw : s.mem.wf = true) : s.armFlip.mem.wf = true := by
  simp [State.armFlip, hw]

@[simp] theorem execMemFlipArm_keeps {m : Master} (hw : s.mem.wf = true) : Keeps (execMemFlipArm m s) := by
  unfold execMemFlipArm
  exact Keeps.next.2 (State.ownerWrite_wf _ hw (by simp [hw]))

@[simp] theorem State.fettled_wf (fa : Nat) (corrected : Bool) (hw : s.mem.wf = true) :
    (s.fettled fa corrected).mem.wf = true := by
  unfold State.fettled; dsimp only; (repeat' split) <;> simp [hw]

@[simp] theorem State.fettledColumn_wf (fa pass : Nat) (hw : s.mem.wf = true) : (s.fettledColumn fa pass).mem.wf = true := by
  unfold State.fettledColumn; dsimp only; (repeat' split) <;> simp [hw]

@[simp] theorem execFettleSramLine_keeps {cl : ClusterId} {ecc : EccReport} {word : BitVec 4} (hw : s.mem.wf = true) :
    Keeps (execFettleSramLine cl ecc word s) := by
  unfold execFettleSramLine
  refine keeps_ite (by simp [hw]) ?_
  dsimp only
  refine keeps_ite (by simp [hw]) ?_
  refine Keeps.next.2 ?_
  refine ite_wf ?_ ?_
  · refine State.fettledColumn_wf _ _ ?_
    refine State.fettled_wf _ _ ?_
    rw [State.clCount_mem]
    exact foldl_wf (fun t _ ht => by simp [ht]) _ (by simp [hw])
  refine State.fettled_wf _ _ ?_
  rw [State.clCount_mem]
  exact foldl_wf (fun t _ ht => by simp [ht]) _ (by simp [hw])

@[simp] theorem execFettleLpddrUnit_keeps {channel : BitVec 7} {ecc : EccReport} {codeword : BitVec 7} (hw : s.mem.wf = true) :
    Keeps (execFettleLpddrUnit channel ecc codeword s) := by
  unfold execFettleLpddrUnit
  dsimp only
  refine keeps_ite (by simp [hw]) ?_
  split
  · simp [hw]
  refine Keeps.next.2 ?_
  refine foldl_wf (fun t _ ht => ?_) _ (by simp [hw])
  refine State.fettled_wf _ _ ?_
  exact foldl_wf (fun u _ hu => ite_wf (by simp [hu]) (ite_wf (by simp [hu]) (by simp [hu]))) _ ht

@[simp] theorem State.retrain_mem (c : Nat) (ok : Bool) : (s.retrain c ok).mem = s.mem := by
  unfold State.retrain; dsimp only; (repeat' split) <;> simp

@[simp] theorem execLpddrCalibration_keeps {channel : BitVec 7} {driftPct : BitVec 7} {stepOk : Bool} (hw : s.mem.wf = true) :
    Keeps (execLpddrCalibration channel driftPct stepOk s) := by
  unfold execLpddrCalibration; (repeat' split) <;> simp [hw]

@[simp] theorem execCalibrationRetry_keeps {channel : BitVec 7} {stepOk : Bool} (hw : s.mem.wf = true) :
    Keeps (execCalibrationRetry channel stepOk s) := by
  unfold execCalibrationRetry; (repeat' split) <;> simp [hw]

@[simp] theorem execCalibrationSave_keeps (hw : s.mem.wf = true) : Keeps (execCalibrationSave s) := by
  unfold execCalibrationSave; dsimp only; (repeat' split) <;> simp [hw]

@[simp] theorem execDriveWearCheck_keeps {port : Port} {percentUsed : Byte} (hw : s.mem.wf = true) :
    Keeps (execDriveWearCheck port percentUsed s) := by
  unfold execDriveWearCheck
  dsimp only
  refine keeps_ite (by simp [hw]) ?_
  refine keeps_ite ?_ ?_
  · exact Keeps.next.2 (ite_wf (foldl_wf (fun t _ ht => by simp [ht]) _ (by simp [hw])) (by simp [hw]))
  split
  · exact Keeps.next.2 (ite_wf (foldl_wf (fun t _ ht => by simp [ht]) _ (by simp [hw])) (by simp [hw]))
  refine Keeps.next.2 ?_
  dsimp only
  rw [State.emit_mem]
  exact ite_wf (foldl_wf (fun t _ ht => by simp [ht]) _ (by simp [hw])) (by simp [hw])

@[simp] theorem State.setCeil_mem (cl : ClusterId) (f : Cluster → Cluster) : (s.setCeil cl f).mem = s.mem := rfl

@[simp] theorem execCeilingSet_keeps {h : CmdHdr} {flask mhz : BitVec 16} (hw : s.mem.wf = true) :
    Keeps (execCeilingSet h flask mhz s) := by
  unfold execCeilingSet
  refine State.command_keeps _ _ hw (fun t ht => ?_)
  refine State.onFlask_wf _ _ ht (fun _ => ?_)
  dsimp only
  refine ite_wf (by simp [ht]) ?_
  exact ite_wf (by simp [ht]) (State.done_wf _ _ (foldl_wf (fun u _ hu => by simp [hu]) _ (by simp [ht])))

@[simp] theorem State.platformEvent_mem (id : Nat) (value : BitVec 16) : (s.platformEvent id value).mem = s.mem := by
  unfold State.platformEvent; split <;> simp

@[simp] theorem State.powerCeilings_wf (id : Nat) (ceilings : List (ClusterId × Byte)) (hw : s.mem.wf = true) :
    (s.powerCeilings id ceilings).mem.wf = true := by
  unfold State.powerCeilings
  dsimp only
  refine ite_wf ?_ (foldl_wf (fun t _ ht => by simp [ht]) _ hw)
  exact foldl_wf (fun t _ ht => by simp [ht]) _ (foldl_wf (fun t _ ht => by simp [ht]) _ hw)

@[simp] theorem execTelemetrySample_keeps {id : Byte} {value : BitVec 16} {ceilings : List (ClusterId × Byte)}
    (hw : s.mem.wf = true) : Keeps (execTelemetrySample id value ceilings s) := by
  unfold execTelemetrySample
  refine keeps_ite (by simp [hw]) ?_
  dsimp only
  refine keeps_ite (by simp [hw]) ?_
  refine keeps_ite (by simp [hw]) ?_
  exact keeps_ite (Keeps.next.2 (foldl_wf (fun t _ ht => by simp [ht]) _ (by simp [hw]))) (by simp [hw])

@[simp] theorem execThermalTrip_keeps {die : Die} (hw : s.mem.wf = true) : Keeps (execThermalTrip die s) := by
  unfold execThermalTrip
  refine keeps_ite (by simp [hw]) ?_
  dsimp only
  exact Keeps.next.2 (State.postOwner_wf _ _ _ _ (foldl_wf (fun t _ ht => by simp [ht]) _ (by simp [hw])))

@[simp] theorem execThermalTripRelease_keeps {die : Die} (hw : s.mem.wf = true) : Keeps (execThermalTripRelease die s) := by
  simp [execThermalTripRelease, hw]

@[simp] theorem execPmonConfig_keeps {h : CmdHdr} {p : PmonP} (hw : s.mem.wf = true) : Keeps (execPmonConfig h p s) := by
  unfold execPmonConfig
  refine State.command_keeps _ _ hw (fun t ht => ?_)
  dsimp only
  iterate 3 refine ite_wf (by simp [ht]) ?_
  refine State.done_wf _ _ ?_
  exact ite_wf (foldl_wf (fun u _ hu => by simp [hu]) _ ht) (foldl_wf (fun u _ hu => by simp [hu]) _ ht)

@[simp] theorem State.pmCoreBytes_wf (c : CoreId) (hw : s.mem.wf = true) : (s.pmCoreBytes c).2.mem.wf = true := by
  unfold State.pmCoreBytes
  dsimp only
  rw [State.tick_mem]
  exact foldl_wf_snd (fun _ _ hr => by simp [hr]) _ (by simp [hw])

@[simp] theorem State.pmClusterBytes_wf (cl : ClusterId) (hw : s.mem.wf = true) : (s.pmClusterBytes cl).2.mem.wf = true := by
  unfold State.pmClusterBytes
  dsimp only
  rw [State.tick_mem]
  refine foldl_wf_snd (fun _ _ hr => ?_) _ (by simp [hw])
  split <;> simp [hr]

@[simp] theorem execPmonRead_keeps {h : CmdHdr} {kind : Byte} {first last : Word} {dest : BitVec 64} (hw : s.mem.wf = true) :
    Keeps (execPmonRead h kind first last dest s) := by
  unfold execPmonRead
  refine State.command_keeps _ _ hw (fun t ht => ?_)
  dsimp only
  refine ite_wf (by simp [ht]) ?_
  refine ite_wf (by simp [ht]) ?_
  refine State.done_wf _ _ ?_
  refine State.hubWrite_wf _ _ _ _ ?_
  split <;> exact foldl_wf_snd (fun _ _ hr => by simp [hr]) _ (by simp [ht])

@[simp] theorem execPmonSample_keeps {c : CoreId} {counter : BitVec 2} {pc : BitVec 11} (hw : s.mem.wf = true) :
    Keeps (execPmonSample c counter pc s) := by
  unfold execPmonSample
  dsimp only
  exact keeps_ite (by simp [hw]) (keeps_ite (keeps_ite (by simp [hw]) (by simp [hw])) (by simp [hw]))

@[simp] theorem State.hubLo_mem (i : Nat) : (s.hubLo i).2.mem = s.mem := by
  unfold State.hubLo; dsimp only; split <;> simp

@[simp] theorem execPmonHubLoRead_keeps {i : BitVec 6} (hw : s.mem.wf = true) : Keeps (execPmonHubLoRead i s) := by
  simp [execPmonHubLoRead, hw]

end Sys2Proof.Machine
end

section
/-!
The twin, firmware and votes keep the canonical form of the stores.
-/

namespace Sys2Proof.Machine

variable {s : State}

@[simp] theorem State.hello_wf (hw : s.mem.wf = true) : s.hello.mem.wf = true := by
  simp [State.hello, hw]

@[simp] theorem State.dropWindow_mem : s.dropWindow.mem = s.mem := rfl

@[simp] theorem State.beginPair_wf (tag : Word) (roleB : Bool) (peer : List Byte) (kp : BitVec 256) (hw : s.mem.wf = true) :
    (s.beginPair tag roleB peer kp).mem.wf = true := by
  unfold State.beginPair
  dsimp only
  refine State.hello_wf ?_
  rw [State.setTwin_mem]
  exact foldl_wf (fun t _ ht => by simp [ht]) _ hw

@[simp] theorem State.pairEnd_wf (h : CmdHdr) (roleB : Bool) (peer : List Byte) (sigOk : Bool) (kp : Option (BitVec 256))
    (linkTrains : Bool) (hw : s.mem.wf = true) : (s.pairEnd h roleB peer sigOk kp linkTrains).mem.wf = true := by
  unfold State.pairEnd; (repeat' split) <;> simp [hw]

@[simp] theorem execTwinPair_keeps {h : CmdHdr} {offset : Word} {linkTrains : Bool} (hw : s.mem.wf = true) :
    Keeps (execTwinPair h offset linkTrains s) := by
  refine State.command_keeps _ _ hw fun t ht => ?_
  dsimp only
  (repeat' split) <;> simp [ht]

@[simp] theorem State.unpair_mem : s.unpair.mem = s.mem := rfl

@[simp] theorem State.failPair_wf (st : Status) (hw : s.mem.wf = true) : (s.failPair st).mem.wf = true := by
  unfold State.failPair; (repeat' split) <;> simp [hw]

@[simp] theorem execTwinUnpair_keeps {h : CmdHdr} (hw : s.mem.wf = true) : Keeps (execTwinUnpair h s) := by
  unfold execTwinUnpair
  refine State.command_keeps _ _ hw (fun t ht => ite_wf (by simp [ht]) ?_)
  dsimp only
  exact State.done_wf _ _ (foldl_wf (fun u _ hu => by simp [hu]) _ (by simp [ht]))

@[simp] theorem execTwinPolicy_keeps {h : CmdHdr} {p : TwinPolicyP} (hw : s.mem.wf = true) : Keeps (execTwinPolicy h p s) := by
  unfold execTwinPolicy
  refine State.command_keeps _ _ hw (fun t ht => ite_wf (by simp [ht]) (State.onFlask_wf _ _ ht ?_))
  intro _
  dsimp only
  exact ite_wf (by simp [ht]) (ite_wf (by simp [ht]) (by simp [ht]))

@[simp] theorem execTwinReadmit_keeps {h : CmdHdr} (hw : s.mem.wf = true) : Keeps (execTwinReadmit h s) := by
  refine State.command_keeps _ _ hw fun t ht => ?_
  (repeat' split) <;> simp [ht]

@[simp] theorem State.enterFenced_wf (hw : s.mem.wf = true) : s.enterFenced.mem.wf = true := by
  unfold State.enterFenced
  extract_lets +onlyGivenNames t
  have ht : t.mem.wf = true := by simp [t, hw]
  clear_value t
  extract_lets +onlyGivenNames pair _ u
  have hu : u.mem.wf = true := by simp [u, ht]
  clear_value u
  extract_lets +onlyGivenNames v
  have hv : v.mem.wf = true := foldl_wf (fun w _ hr => by simp [hr]) _ hu
  clear_value v
  extract_lets +onlyGivenNames w
  have hw' : w.mem.wf = true := foldl_wf (fun s1 _ hs1 => by simp [hs1]) _ hv
  clear_value w
  extract_lets +onlyGivenNames s1
  have hs1 : s1.mem.wf = true := foldl_wf (fun s2 _ hs2 => by simp [hs2]) _ hw'
  clear_value s1
  simp [hs1]

@[simp] theorem State.putRules_mem (base : Nat) (rs : List (List Word)) : (s.putRules base rs).mem = s.mem := rfl

@[simp] theorem State.takeOver_wf (hw : s.mem.wf = true) : s.takeOver.mem.wf = true := by
  unfold State.takeOver
  dsimp only
  refine State.postOwner_wf _ _ _ _ ?_
  refine foldl_wf (fun t _ ht => ?_) _ ?_
  · exact foldl_wf (fun u _ hu => by simp [hu]) _ ht
  rw [State.putRules_mem]
  exact foldl_wf (fun t _ ht => by simp [ht]) _ hw

@[simp] theorem State.takeQps_wf (hw : s.mem.wf = true) : s.takeQps.mem.wf = true := by
  unfold State.takeQps
  dsimp only
  refine foldl_wf ?_ _ hw
  intro t _ ht
  split
  · simp [ht]
  · exact ht

@[simp] theorem State.declare_wf (hw : s.mem.wf = true) : s.declare.mem.wf = true := by
  unfold State.declare
  extract_lets +onlyGivenNames t
  have ht : t.mem.wf = true := by simp [t, hw]
  clear_value t
  extract_lets +onlyGivenNames _ u
  have hu : u.mem.wf = true := by simp [u, ht]
  clear_value u
  extract_lets +onlyGivenNames v
  have hv : v.mem.wf = true := by simp [v, hu]
  clear_value v
  extract_lets +onlyGivenNames w
  have hw' : w.mem.wf = true := by simp [w, hv]
  clear_value w
  simp [hw']

@[simp] theorem execTwinConfirm_keeps {m : Master} {id : Word} (hw : s.mem.wf = true) : Keeps (execTwinConfirm m id s) := by
  unfold execTwinConfirm; (repeat' split) <;> simp [hw]

@[simp] theorem execTwinMgmtAnswer_keeps {a : MgmtAnswer} (hw : s.mem.wf = true) : Keeps (execTwinMgmtAnswer a s) := by
  unfold execTwinMgmtAnswer; (repeat' split) <;> simp [hw]

@[simp] theorem execTwinMgmtQuery_keeps (hw : s.mem.wf = true) : Keeps (execTwinMgmtQuery s) := by
  unfold execTwinMgmtQuery; (repeat' split) <;> simp [hw]

@[simp] theorem execPeerManagementQuery_keeps (hw : s.mem.wf = true) : Keeps (execPeerManagementQuery s) := by
  unfold execPeerManagementQuery; (repeat' split) <;> simp [hw]

@[simp] theorem execTwinPulseLapse_keeps (hw : s.mem.wf = true) : Keeps (execTwinPulseLapse s) := by
  unfold execTwinPulseLapse; (repeat' split) <;> simp [hw]

@[simp] theorem execTwinUnconfirmedTick_keeps (hw : s.mem.wf = true) : Keeps (execTwinUnconfirmedTick s) := by
  simp [execTwinUnconfirmedTick, hw]

@[simp] theorem execTwinHeartbeatSend_keeps (hw : s.mem.wf = true) : Keeps (execTwinHeartbeatSend s) := by
  simp [execTwinHeartbeatSend, hw]

@[simp] theorem execMirrorSend_keeps {item : MirrorSel} (hw : s.mem.wf = true) : Keeps (execMirrorSend item s) := by
  simp [execMirrorSend, hw]

@[simp] theorem State.twinDown_wf (hw : s.mem.wf = true) : s.twinDown.mem.wf = true := by
  simp [State.twinDown, hw]

@[simp] theorem execTwinLinkChange_keeps {up : Bool} (hw : s.mem.wf = true) : Keeps (execTwinLinkChange up s) := by
  unfold execTwinLinkChange; (repeat' split) <;> simp [hw]

@[simp] theorem execTwinCablePresence_keeps {present : Bool} (hw : s.mem.wf = true) :
    Keeps (execTwinCablePresence present s) := by
  simp [execTwinCablePresence, hw]

theorem State.recast_wf (f : FlaskId) (r : Nat) : ∀ (l : List (List Byte)) {s t : State}, s.mem.wf = true →
    s.recast f r l = .ok t → t.mem.wf = true
  | [], s, t, hw, e => by
    unfold State.recast at e
    obtain rfl := Except.ok.inj e
    exact hw
  | raw :: rest, s, t, hw, e => by
    unfold State.recast at e
    dsimp only at e
    split at e
    · exact nomatch e
    split at e
    · exact nomatch e
    · exact recast_wf f r rest (ite_wf (by simp [hw]) (by simp [hw])) e

@[simp] theorem State.restartIngot_wf (f old : FlaskId) (m : Mirrored) (data : Option IngotData) (hw : s.mem.wf = true) :
    (s.restartIngot f old m data).mem.wf = true := by
  unfold State.restartIngot
  dsimp only
  split
  · split
    · simp [hw]
    rename_i t e
    have ht := State.trySetup_wf _ _ (by simp [hw]) e
    simp [ht]
  · exact hw

@[simp] theorem State.newKeyed_mem (f old : FlaskId) (p : CreateP) : (s.newKeyed f old p).mem = s.mem := by simp [State.newKeyed]

theorem State.restart_wf (old : FlaskId) (m : Mirrored) (data : Option IngotData) {x : FlaskId × State} (hw : s.mem.wf = true)
    (e : s.restart old m data = .ok x) : x.2.mem.wf = true := by
  unfold State.restart at e
  split at e
  · exact nomatch e
  extract_lets host p at e
  split at e
  · exact nomatch e
  split at e
  · exact nomatch e
  rename_i t et
  have ht := State.recast_wf _ _ _ (by simp [hw]) et
  split at e
  · exact nomatch e
  · obtain rfl := Except.ok.inj e
    dsimp only
    refine State.restartIngot_wf _ _ _ _ (foldl_wf ?_ _ (foldl_wf (fun u _ hu => by simp [hu]) _ ht))
    intro u _ hu
    split
    · simp [hu]
    · exact hu

@[simp] theorem execTwinFlaskRestart_keeps {data : Option IngotData} (hw : s.mem.wf = true) :
    Keeps (execTwinFlaskRestart data s) := by
  unfold execTwinFlaskRestart
  dsimp only
  split
  · exact Keeps.next.2 hw
  refine keeps_ite (Keeps.next.2 hw) ?_
  split
  · simp [hw]
  split
  · simp [hw]
  · rename_i x e
    have hx := State.restart_wf _ _ _ (by simp [hw]) e
    simp [hx]

theorem State.sysOp_wf (p : Proc) (f : SysF) {body : State → Body} (hw : s.mem.wf = true)
    (hbody : ∀ t, t.mem.wf = true → (body t).keeps) : (s.sysOp p f body).mem.wf = true :=
  State.issue_wf _ _ _ _ hw fun t ht => by
    split
    · exact ht
    · exact hbody t ht

theorem sysPostEventBody_keeps {p : Proc} {f : SysF} (hw : s.mem.wf = true) : (sysPostEventBody p f s).keeps := by
  unfold sysPostEventBody
  refine withInt_keeps hw ?_
  intro _
  dsimp only
  split
  · split
    · simp [hw]
    split
    · simp [hw]
    · split <;> simp [hw]
  · simp [hw]

@[simp] theorem execSysPostEvent_keeps {p : Proc} {f : SysF} (hw : s.mem.wf = true) : Keeps (execSysPostEvent p f s) := by
  unfold execSysPostEvent
  exact Keeps.next.2 (State.sysOp_wf _ _ hw (fun t ht => sysPostEventBody_keeps ht))

theorem sysWriteDescriptorBody_keeps {p : Proc} {f : SysF} (hw : s.mem.wf = true) : (sysWriteDescriptorBody p f s).keeps := by
  unfold sysWriteDescriptorBody
  refine withInt_keeps hw ?_
  intro _
  dsimp only
  split
  · split
    · simp [hw]
    · split <;> simp [hw]
  · simp [hw]

@[simp] theorem execSysWriteDescriptor_keeps {p : Proc} {f : SysF} (hw : s.mem.wf = true) :
    Keeps (execSysWriteDescriptor p f s) := by
  unfold execSysWriteDescriptor
  exact Keeps.next.2 (State.sysOp_wf _ _ hw (fun t ht => sysWriteDescriptorBody_keeps ht))

@[simp] theorem State.control_wf (c : CoreId) (action : Nat) (hw : s.mem.wf = true) : (s.control c action).mem.wf = true := by
  unfold State.control; dsimp only; (repeat' split) <;> simp [hw]

theorem sysCoreControlBody_keeps {p : Proc} {f : SysF} (hw : s.mem.wf = true) : (sysCoreControlBody p f s).keeps := by
  unfold sysCoreControlBody
  refine withInt_keeps hw ?_
  intro _
  dsimp only
  exact giveInt_keeps (by simp [hw])

@[simp] theorem execSysCoreControl_keeps {p : Proc} {f : SysF} (hw : s.mem.wf = true) : Keeps (execSysCoreControl p f s) := by
  unfold execSysCoreControl
  exact Keeps.next.2 (State.sysOp_wf _ _ hw (fun t ht => sysCoreControlBody_keeps ht))

@[simp] theorem execSysHeartbeat_keeps {p : Proc} {f : SysF} (hw : s.mem.wf = true) : Keeps (execSysHeartbeat p f s) := by
  unfold execSysHeartbeat
  exact Keeps.next.2 (State.sysOp_wf _ _ hw (fun t ht => by simp [ht]))

@[simp] theorem execSysTapRecord_keeps {p : Proc} {f : SysF} (hw : s.mem.wf = true) : Keeps (execSysTapRecord p f s) := by
  unfold execSysTapRecord
  exact Keeps.next.2 (State.sysOp_wf _ _ hw (fun t ht => withInt_keeps ht (fun _ => by simp [ht])))

@[simp] theorem execSysWait_keeps {p : Proc} {f : SysF} (hw : s.mem.wf = true) : Keeps (execSysWait p f s) := by
  unfold execSysWait
  refine Keeps.next.2 (State.sysOp_wf _ _ hw ?_)
  intro t ht
  split <;> simp [ht]

@[simp] theorem State.performStageAs_wf (tag : Word) (offset length : Word) (signed : List Byte → Bool) (hw : s.mem.wf = true) :
    (s.performStageAs tag offset length signed).mem.wf = true := by
  unfold State.performStageAs; dsimp only; (repeat' split) <;> simp [hw]

@[simp] theorem State.performStage_wf (tag : Word) (offset length : Word) (hw : s.mem.wf = true) :
    (s.performStage tag offset length).mem.wf = true := by
  simp [State.performStage, hw]

@[simp] theorem execFwStage_keeps {h : CmdHdr} {offset length : Word} (hw : s.mem.wf = true) :
    Keeps (execFwStage h offset length s) := by
  refine State.command_keeps _ _ hw fun t ht => ?_
  simp [ht]

@[simp] theorem execQueuedCastStart_keeps (hw : s.mem.wf = true) : Keeps (execQueuedCastStart s) := by
  unfold execQueuedCastStart
  dsimp only
  split
  · simp [hw]
  refine keeps_ite (by simp [hw]) ?_
  split
  · exact keeps_ite (by simp [hw]) (by simp [hw])
  · exact keeps_ite (by simp [hw]) (by simp [hw])
  · simp [hw]

@[simp] theorem execFwActivate_keeps {h : CmdHdr} {drainMs flags : Word} (hw : s.mem.wf = true) :
    Keeps (execFwActivate h drainMs flags s) := by
  refine State.command_keeps _ _ hw fun t ht => ?_
  dsimp only
  (repeat' split) <;> simp [ht]

@[simp] theorem State.countRestart_mem (fp : FwProc) : (s.countRestart fp).mem = s.mem := by
  unfold State.countRestart; split <;> simp

@[simp] theorem State.restartProc_wf (fp : FwProc) (hw : s.mem.wf = true) : (s.restartProc fp).mem.wf = true := by
  unfold State.restartProc
  extract_lets +onlyGivenNames _ t
  have ht : t.mem.wf = true := by simp [t, hw]
  clear_value t
  extract_lets +onlyGivenNames u
  have hu : u.mem.wf = true := by simp [u, ht]
  clear_value u
  extract_lets +onlyGivenNames ev v
  have hv : v.mem.wf = true := by simp [v, hu]
  clear_value v
  dsimp only
  split
  · exact foldl_wf (fun w _ hr => by simp [hr]) _ (by simp [hv])
  · exact foldl_wf (fun w _ hr => by simp [hr]) _ hv
  · exact foldl_wf (fun w _ hr => by simp [hr]) _ (by simp [hv])
  · exact hv

@[simp] theorem State.procLost_wf (fp : FwProc) (hw : s.mem.wf = true) : (s.procLost fp).mem.wf = true := by
  cases fp with
  | security => unfold State.procLost
                simp [hw]
  | power => unfold State.procLost
             simp [hw]
  | _ => exact hw

@[simp] theorem execFirmwareHeartbeatLapse_keeps {fp : FwProc} (hw : s.mem.wf = true) :
    Keeps (execFirmwareHeartbeatLapse fp s) := by
  unfold execFirmwareHeartbeatLapse; dsimp only; (repeat' split) <;> simp [hw]

@[simp] theorem State.journalCast_wf (hw : s.mem.wf = true) : s.journalCast.mem.wf = true := by
  unfold State.journalCast; (repeat' split) <;> simp [hw]

@[simp] theorem execFirmwareProcessorRestarted_keeps {fp : FwProc} (hw : s.mem.wf = true) :
    Keeps (execFirmwareProcessorRestarted fp s) := by
  unfold execFirmwareProcessorRestarted; dsimp only; (repeat' split) <;> simp [hw]

@[simp] theorem State.restartHub_wf (hw : s.mem.wf = true) : s.restartHub.mem.wf = true := by
  unfold State.restartHub
  exact foldl_wf (fun t _ ht => by simp [ht]) _ hw

@[simp] theorem State.activate_wf (a : Activation) (i : ImageHdr) (hw : s.mem.wf = true) : (s.activate a i).mem.wf = true := by
  rw [State.activate]
  generalize (List.range 4096).map (fun n => FwProc.cluster (BitVec.ofNat 12 n)) = procs
  refine State.complete_wf _ _ _ _ _ (foldl_wf (fun _ _ h => by simp [h]) _ (State.postOwner_wf _ _ _ _ ?_))
  rw [State.setOpt_mem]
  exact foldl_wf (fun _ _ h => State.restartProc_wf _ h) _ (State.restartHub_wf hw)

@[simp] theorem execActivationDrainEnd_keeps {expired accepted : Bool} (hw : s.mem.wf = true) :
    Keeps (execActivationDrainEnd expired accepted s) := by
  unfold execActivationDrainEnd; (repeat' split) <;> simp [hw]

@[simp] theorem State.failFlask_wf (f : FlaskId) (hw : s.mem.wf = true) : (s.failFlask f).mem.wf = true := by
  unfold State.failFlask
  extract_lets +onlyGivenNames job t
  have ht : t.mem.wf = true := by simp [t, hw]
  clear_value t
  extract_lets +onlyGivenNames u
  have hu : u.mem.wf = true := by simp [u, ht]
  clear_value u
  extract_lets +onlyGivenNames _ v
  have hv : v.mem.wf = true := by simp [v, hu]
  clear_value v
  extract_lets +onlyGivenNames w
  have hw' : w.mem.wf = true := by simp [w, hv]
  clear_value w
  dsimp only
  clear_value job
  split
  · exact hw'
  refine ite_wf ?_ ?_
  · exact ite_wf hw' (foldl_wf (fun s1 _ hs1 => by simp [hs1]) _ hw')
  · exact State.startDestroy_wf _ _ (ite_wf hw' (foldl_wf (fun s1 _ hs1 => by simp [hs1]) _ hw'))

@[simp] theorem State.loseWord_wf (w : TripWord) (hw : s.mem.wf = true) : (s.loseWord w).mem.wf = true := by
  cases w with
  | fuseShadow => unfold State.loseWord
                  simp [hw]
  | mouldRoot f => unfold State.loseWord
                   simp [hw]
  | keySlot i => unfold State.loseWord
                 simp [hw]
  | ownerRecord => unfold State.loseWord
                   simp [hw]
  | pairEpoch => unfold State.loseWord
                 simp [hw]

@[simp] theorem State.voted_wf (w : TripWord) (majority : Bool) (hw : s.mem.wf = true) : (s.voted w majority).mem.wf = true := by
  unfold State.voted; (repeat' split) <;> simp [hw]

end Sys2Proof.Machine
end

section
/-!
Registers and links keep the canonical form of the stores.
-/

namespace Sys2Proof.Machine

variable {s : State}

@[simp] theorem State.busRead_wf (m : Master) (off : Nat) (hw : s.mem.wf = true) : (s.busRead m off).2.mem.wf = true := by
  unfold State.busRead; dsimp only; (repeat' split) <;> simp [hw]

@[simp] theorem State.plainWrite_mem (off : Nat) (v : Word) : (s.plainWrite off v).mem = s.mem := by
  unfold State.plainWrite; dsimp only; (repeat' split) <;> simp

@[simp] theorem State.onoteWrite_wf (e : Ep) (off : Nat) (v : Word) (hw : s.mem.wf = true) :
    (s.onoteWrite e off v).mem.wf = true := by
  unfold State.onoteWrite; dsimp only; (repeat' split) <;> simp [hw]

theorem State.epWrite_keeps (m : Master) (off : Nat) (v : Word) {a : Answer} (hw : s.mem.wf = true)
    (e : s.epWrite m off v = some a) : Keeps a := by
  unfold State.epWrite at e
  extract_lets +onlyGivenNames t _ at' at e
  have ht : t.mem.wf = true := by simp [t, hw]
  clear_value t
  have hat : ∀ (ep : Ep) (a : Answer), at' ep = some a → Keeps a := by
    intro ep a e
    unfold at' at e
    split at e
    · obtain rfl := Option.some.inj e
      simp [ht]
    split at e
    · obtain rfl := Option.some.inj e
      refine keeps_ite (by simp [hw]) (keeps_ite (execWinCommitIn_keeps hw) ?_)
      exact keeps_ite (execWinCommitOut_keeps hw) (by simp [hw])
    split at e
    · obtain rfl := Option.some.inj e
      simp [hw]
    split at e
    · obtain rfl := Option.some.inj e
      simp [hw]
    · exact nomatch e
  clear_value at'
  split at e
  · obtain rfl := Option.some.inj e
    exact keeps_ite (execWinShadowWrite_keeps hw) (keeps_ite (execWinShadowWrite_keeps hw) (by simp [hw]))
  split at e
  · rename_i a' ea
    exact Option.some.inj e ▸ hat _ _ ea
  · exact hat _ _ e

theorem State.testWrite_keeps (m : Master) (off : Nat) (v : Word) {a : Answer} (hw : s.mem.wf = true)
    (e : s.testWrite m off v = some a) : Keeps a := by
  unfold State.testWrite at e
  extract_lets +onlyGivenNames seq at e
  have hseq : ∀ (a : Answer) (go : Bool) (f : State → Answer), Keeps a → (∀ t, t.mem.wf = true → Keeps (f t)) →
      Keeps (seq a go f) := by
    intro a go f ha hf
    unfold seq
    split
    · have ht := Keeps.next.1 ha
      exact keeps_ite (hf _ ht) (Keeps.next.2 ht)
    · exact ha
  clear_value seq
  split at e
  · exact Option.some.inj e ▸ Keeps.next.2 hw
  split at e
  · exact Option.some.inj e ▸ Keeps.next.2 hw
  split at e
  · exact Option.some.inj e ▸ hseq _ _ _ (hseq _ _ _ (Keeps.next.2 hw) fun _ ht => execRstModeReqTest_keeps ht)
      fun _ ht => execRstModeReqService_keeps ht
  split at e
  · exact Option.some.inj e ▸ Keeps.next.2 hw
  split at e
  · exact Option.some.inj e ▸ hseq _ _ _ (hseq _ _ _ (by simp [hw]) fun _ ht => execBistCtlStart_keeps ht)
      fun _ ht => execBistCtlFuse_keeps ht
  split at e
  · obtain rfl := Option.some.inj e
    simp [hw]
  split at e
  · obtain rfl := Option.some.inj e
    exact Keeps.next.2 (ite_wf (by simp [hw]) (by simp [hw]))
  split at e
  · obtain rfl := Option.some.inj e
    simp [hw]
  · exact nomatch e

theorem State.regEffect_keeps {m : Master} {off : Nat} {v : Word} (hw : s.mem.wf = true) : Keeps (s.regEffect m off v) := by
  unfold State.regEffect
  split
  · rename_i e
    exact State.epWrite_keeps _ _ _ hw e
  split
  · rename_i e
    exact State.testWrite_keeps _ _ _ hw e
  dsimp only
  refine keeps_ite (by simp [hw]) (keeps_ite (by simp [hw]) (keeps_ite (by simp [hw]) ?_))
  refine keeps_ite (execNetRuleWrite_keeps hw) (keeps_ite (execNetRuleRead_keeps hw) ?_)
  refine keeps_ite ?_ ?_
  · exact keeps_ite (by simp [hw]) (execStorPowerEn_keeps (by simp [hw]))
  refine keeps_ite (by simp [hw]) ?_
  refine keeps_ite (execOwnHandover_keeps hw) (keeps_ite (by simp [hw]) (keeps_ite (by simp [hw]) ?_))
  split <;> simp [hw]

theorem State.pageWrite_keeps {e : Ep} {f : FlaskId} {off : Nat} {v : Word} (hw : s.mem.wf = true) :
    Keeps (s.pageWrite e f off v) := by
  unfold State.pageWrite
  split
  · exact execFpSqdb_keeps hw
  · exact execFpCqdb_keeps hw
  · exact keeps_ite (execFpCtlReset_keeps hw) (keeps_ite (by simp [hw]) (keeps_ite (by simp [hw]) (by simp [hw])))

theorem State.busWrite_keeps {m : Master} {off : Nat} {v : Word} {epoch : Word} (hw : s.mem.wf = true) :
    Keeps (s.busWrite m off v epoch) := by
  unfold State.busWrite
  refine keeps_ite (by simp [hw]) ?_
  refine keeps_ite ?_ ?_
  · split
    · exact State.pageWrite_keeps hw
    · simp [hw]
  refine keeps_ite (execOwnClaim_keeps hw) ?_
  refine keeps_ite (execOwnAccept_keeps hw) (keeps_ite (execHostBeat_keeps hw) ?_)
  refine keeps_ite (execHostBeat_keeps hw) (keeps_ite (execTwinConfirm_keeps hw) (keeps_ite (by simp [hw]) ?_))
  refine keeps_ite ?_ ?_
  · exact keeps_ite (by simp [hw]) (keeps_ite (execMsixVectorControlWrite_keeps hw) (by simp [hw]))
  · exact keeps_ite (State.regEffect_keeps hw) (by simp [hw])

theorem State.anyWrite_keeps {m : Master} {off : Nat} {v epoch : Word} (hw : s.mem.wf = true) :
    Keeps (s.anyWrite m off v epoch) := by
  unfold State.anyWrite
  exact keeps_ite (State.busWrite_keeps hw) (keeps_ite (State.busWrite_keeps (by simp [hw])) (by simp [hw]))

@[simp] theorem State.anyRead_wf (m : Master) (off : Nat) (hw : s.mem.wf = true) : (s.anyRead m off).2.mem.wf = true := by
  unfold State.anyRead; (repeat' split) <;> simp [hw]

@[simp] theorem execRegisterWrite_keeps {m : Master} {offset : BitVec 27} {value : Word} (hw : s.mem.wf = true) :
    Keeps (execRegisterWrite m offset value s) := by
  unfold execRegisterWrite
  exact State.anyWrite_keeps hw

@[simp] theorem execRegisterReadClear_keeps {m : Master} {offset : BitVec 27} (hw : s.mem.wf = true) :
    Keeps (execRegisterReadClear m offset s) := by
  unfold execRegisterReadClear; dsimp only; (repeat' split) <;> simp [hw]

@[simp] theorem execMctpRead_keeps {offset : BitVec 26} (hw : s.mem.wf = true) : Keeps (execMctpRead offset s) := by
  unfold execMctpRead; dsimp only; (repeat' split) <;> simp [hw]

@[simp] theorem execMctpWrite_keeps {offset : BitVec 26} {value : Word} (hw : s.mem.wf = true) :
    Keeps (execMctpWrite offset value s) := by
  unfold execMctpWrite
  exact keeps_ite (by simp [hw]) (State.anyWrite_keeps hw)

theorem State.regSpaceRead_wf (fa : Nat) {x : Word × State} (hw : s.mem.wf = true) (e : s.regSpaceRead fa = some x) :
    x.2.mem.wf = true := by
  unfold State.regSpaceRead at e
  split at e
  · exact nomatch e
  split at e
  · obtain rfl := Option.some.inj e
    simp [hw]
  obtain ⟨t, e1, rfl⟩ := Option.map_eq_some_iff.1 e
  simp [hw]

theorem State.regSpaceWrite_keeps (fa : Nat) (v : Word) {a : Answer} (hw : s.mem.wf = true) (e : s.regSpaceWrite fa v = some a) :
    Keeps a := by
  unfold State.regSpaceWrite at e
  split at e
  · exact nomatch e
  split at e
  · obtain rfl := Option.some.inj e
    exact keeps_ite (State.regEffect_keeps hw) (by simp [hw])
  obtain ⟨t, e1, rfl⟩ := Option.map_eq_some_iff.1 e
  simp [hw]

theorem State.regSpaceWrite_wf (fa : Nat) (v : Word) {t : State} (hw : s.mem.wf = true)
    (e : s.regSpaceWrite fa v = some (.next t)) :
    t.mem.wf = true :=
  Keeps.next.1 (State.regSpaceWrite_keeps fa v hw e)

@[simp] theorem execSysRegRead_keeps {p : Proc} {f : SysF} (hw : s.mem.wf = true) : Keeps (execSysRegRead p f s) := by
  refine Keeps.next.2 (State.sysOp_wf _ _ hw fun t ht => withInt_keeps ht fun lo => ?_)
  split
  · rename_i r e
    exact giveInt_keeps (State.regSpaceRead_wf _ ht e)
  · exact ht

@[simp] theorem execSysRegWrite_keeps {p : Proc} {f : SysF} (hw : s.mem.wf = true) : Keeps (execSysRegWrite p f s) := by
  refine Keeps.next.2 (State.sysOp_wf _ _ hw fun t ht => withInt_keeps ht fun v => ?_)
  extract_lets +onlyGivenNames k
  split
  · rename_i u e
    exact State.regSpaceWrite_wf _ _ ht e
  · exact ht
  · exact ht

@[simp] theorem State.farAccess_wf (r : MemReq) (hw : s.mem.wf = true) : (s.farAccess r).1.mem.wf = true := by
  unfold State.farAccess
  dsimp only
  split
  · simp [hw]
  split
  · split
    · split
      · rename_i x e
        have hx := State.regSpaceRead_wf _ hw e
        simp [hx]
      · simp [hw]
    · split
      · rename_i t e
        have ht := State.regSpaceWrite_wf _ _ hw e
        simp [ht]
      · simp [hw]
      · simp [hw]
    · simp [hw]
  split
  · simp [hw]
  · split <;> simp [hw]

@[simp] theorem execMemoryAccessAtHome_keeps {req : Nat} {ecc : EccReport} (hw : s.mem.wf = true) :
    Keeps (execMemoryAccessAtHome req ecc s) := by
  unfold execMemoryAccessAtHome
  dsimp only
  split
  · simp [hw]
  split
  · simp [hw]
  refine keeps_ite (State.accessHome_keeps hw) (keeps_ite (by simp [hw]) (Keeps.next.2 ?_))
  split <;> simp [hw]

@[simp] theorem execPldmCommand_keeps {req : PldmReq} (hw : s.mem.wf = true) : Keeps (execPldmCommand req s) := by
  unfold execPldmCommand
  refine keeps_ite (by simp [hw]) ?_
  dsimp only
  split <;> simp [hw]

@[simp] theorem State.mirrorAll_wf (hw : s.mem.wf = true) : s.mirrorAll.mem.wf = true := by
  unfold State.mirrorAll
  dsimp only
  exact foldl_wf (fun t _ ht => by simp [ht]) _ hw

@[simp] theorem State.enterPaired_wf (hw : s.mem.wf = true) : s.enterPaired.mem.wf = true := by
  simp [State.enterPaired, hw]

@[simp] theorem State.rxBad_mem : s.rxBad.mem = s.mem := rfl

@[simp] theorem State.keepMirror_mem (x : MirrorItem) : (s.keepMirror x).mem = s.mem := rfl

@[simp] theorem State.readmitted_wf (epoch : Word) (hw : s.mem.wf = true) : (s.readmitted epoch).mem.wf = true := by
  unfold State.readmitted
  extract_lets +onlyGivenNames t
  have ht : t.mem.wf = true := by
    unfold t
    refine foldl_wf ?_ _ hw
    intro u _ hu
    extract_lets +onlyGivenNames v
    have hv : v.mem.wf = true := by simp [v, hu]
    clear_value v
    extract_lets +onlyGivenNames _ w
    have hw' : w.mem.wf = true := by simp [w, hv]
    clear_value w
    simp [hw']
  clear_value t
  extract_lets +onlyGivenNames r base u
  have hu : u.mem.wf = true := by simp [u, ht]
  clear_value u
  extract_lets +onlyGivenNames _ v
  have hv : v.mem.wf = true := by simp [v, hu]
  clear_value v
  simp [hv]

@[simp] theorem State.helloEqual_wf (idOk : Bool) (peer : PeerSt) (hw : s.mem.wf = true) :
    (s.helloEqual idOk peer).mem.wf = true := by
  unfold State.helloEqual
  extract_lets +onlyGivenNames _ t
  have ht : t.mem.wf = true := by simp [t, hw]
  clear_value t
  dsimp only
  split
  · refine ite_wf (by simp [ht]) ?_
    split
    · exact State.complete_wf _ _ _ _ _ (State.postOwner_wf _ _ _ _ (State.enterPaired_wf (by simp [ht])))
    · exact State.postOwner_wf _ _ _ _ (State.enterPaired_wf (by simp [ht]))
  · exact ite_wf (by simp [ht]) (by simp [ht])
  · exact ite_wf (by simp [ht]) ht
  · simp [ht]
  · simp [ht]
  · split <;> simp [ht]
  · simp [ht]
  · exact ht

@[simp] theorem State.helloOlder_wf (peer : PeerSt) (hw : s.mem.wf = true) : (s.helloOlder peer).mem.wf = true := by
  simp [State.helloOlder, hw]

@[simp] theorem State.helloNewer_wf (epoch : Word) (peer : PeerSt) (hw : s.mem.wf = true) :
    (s.helloNewer epoch peer).mem.wf = true := by
  simp [State.helloNewer, hw]

theorem optGetD_wf {o : Option State} (ho : ∀ t, o = some t → t.mem.wf = true) (hw : s.mem.wf = true) :
    (o.getD s).mem.wf = true := by
  cases o with
  | none => exact hw
  | some t => exact ho t rfl

@[simp] theorem State.ingotBlock_wf (area : Nat) (f : FlaskId) (slot block : Nat) (bytes : List Byte) (hw : s.mem.wf = true) :
    (s.ingotBlock area f slot block bytes).mem.wf = true := by
  unfold State.ingotBlock
  extract_lets dev mine setup t
  have ht : t.mem.wf = true := by
    unfold t
    refine ite_wf hw ?_
    clear_value setup
    split
    · exact hw
    · exact optGetD_wf (fun u e => State.giveSlots_wf _ _ _ _ _ hw e) hw
  clear_value t
  dsimp only
  split
  · exact hw
  refine ite_wf hw ?_
  split
  · exact ht
  refine ite_wf ht (ite_wf (by simp [ht]) ?_)
  split <;> simp [ht]

theorem State.twinBody_keeps {epoch : Word} {b : TwinBody} (hw : s.mem.wf = true) : Keeps (s.twinBody epoch b) := by
  unfold State.twinBody
  extract_lets _ t live
  have ht : t.mem.wf = true := ite_wf hw hw
  clear_value t
  dsimp only
  split
  · simp [ht]
  · simp [ht]
  · simp [ht]
  · exact keeps_ite (by simp [ht]) (by simp [ht])
  · exact keeps_ite (by simp [ht]) (by simp [ht])
  · split <;> simp [ht]
  · simp [ht]
  · exact keeps_ite (State.anyWrite_keeps ht) (by simp [ht])

@[simp] theorem State.windowWaits_wf (b : TwinBody) (hw : s.mem.wf = true) : (s.windowWaits b).2.mem.wf = true := by
  unfold State.windowWaits
  split
  · split <;> simp [hw]
  · simp [hw]

@[simp] theorem execTwinMessageReceive_keeps {msg : TwinMsg} (hw : s.mem.wf = true) : Keeps (execTwinMessageReceive msg s) := by
  unfold execTwinMessageReceive
  dsimp only
  refine keeps_ite (by simp [hw]) (keeps_ite (by simp [hw]) (keeps_ite (by simp [hw]) ?_))
  refine keeps_ite ?_ ?_
  · split
    · simp [hw]
    · exact State.twinBody_keeps (by simp [hw])
  refine keeps_ite ?_ ?_
  · refine Keeps.next.2 ?_
    split
    · exact State.helloNewer_wf _ _ (by simp [hw])
    · simp [hw]
  · split <;> simp [hw]

end Sys2Proof.Machine
end

section
/-!
Every row of the instruction set, and so every step, keeps the canonical form of the stores.
-/

namespace Sys2Proof.Machine

variable {s : State}

/-- No row of the instruction set breaks the canonical form of the stores. -/
theorem exec_keeps (i : Instr) (hw : s.mem.wf = true) : Keeps (exec i s) := by
  cases i
  all_goals unfold exec
  case add | sub | and | or | xor | andn | shl | shr | sar | rol | mul | mulhs | mulhu | divs | divu | rems | remu | min | max | minu |
      maxu | adc | sbc =>
    exact aluR_keeps hw
  case clz | popc => exact aluU_keeps hw
  case addi | andi | ori | xori | shli | shri | sari | muli => exact aluI_keeps hw
  case mov | movi | movui | tcmp | tchk | tget | tset => exact keeps_issue hw fun t ht => by simp [ht]
  case movhi | cmp | cmpi | fcmp | tsetr => exact keeps_issue hw fun t ht => by dsimp only; split <;> simp [ht]
  case fadd | fsub | fmul | fmin | fmax | fdiv | fxadd | fxsub | fxmul => exact fp2_keeps hw
  case fma => exact fpOp_keeps hw
  case fneg | i2f | f2i | fx2f | f2fx | fsqrt => exact fp1_keeps hw
  case ld => exact keeps_issue hw fun t ht => loadBody_keeps ht fun _ _ _ u hu => ldDone_keeps hu
  case ldc => exact keeps_issue hw fun t ht => loadBody_keeps ht fun _ _ _ u hu => ldcDone_keeps hu
  case ldsub => exact keeps_issue hw fun t ht => loadBody_keeps ht fun _ _ _ u hu => ldsubDone_keeps hu
  case lea | lres => exact keeps_issue hw fun t ht => by dsimp only; (repeat' split) <;> simp [ht]
  case st | stb | sth => exact keeps_issue hw fun t ht => storeBody_keeps ht
  case tas => exact keeps_issue hw fun t ht => tasBody_keeps ht
  case scond => exact keeps_issue hw fun t ht => scondBody_keeps ht
  case b => exact keeps_issue hw fun t ht => branchTo_keeps ht
  case bl p f =>
    refine keeps_issue hw fun t ht => ?_
    have hbr := branchTo_keeps (p := p) (t := (t.core p).a.pc + f.disp.toInt) ht
    dsimp only
    split
    · next e => rw [e] at hbr; simpa using hbr
    · exact hbr
  case call => exact keeps_issue hw fun t ht => callBody_keeps ht
  case ret =>
    refine keeps_issue hw fun t ht => ?_
    dsimp only
    split
    · exact ht
    split
    · exact ht
    · exact retLoads_keeps 18 [] t ht
  case jr => exact keeps_issue hw fun t ht => by dsimp only; (repeat' split) <;> simp [ht]
  case recv => exact keeps_issue hw fun t ht => recvBody_keeps ht
  case rtry | peek => exact keeps_issue hw fun t ht => by split <;> simp [ht]
  case send => exact keeps_issue hw fun t ht => sendBody_keeps ht
  case stry => exact keeps_issue hw fun t ht => by dsimp only; (repeat' split) <;> simp [ht]
  case waitany => exact keeps_issue hw fun t ht => waitanyBody_keeps ht
  case pstat => exact keeps_issue hw fun t ht => by simp [ht]
  case tdec | tinc | twait | barr | barw | lock | trylock | unlock => exact keeps_issue hw fun t ht => syncBody_keeps ht
  case fence => exact keeps_issue hw fun t ht => fenceBody_keeps ht
  case edot => exact keeps_issue hw fun t ht => edotBody_keeps ht
  case epack | emx => exact keeps_issue hw fun t ht => packBody_keeps ht
  case ezero => exact keeps_issue hw fun t ht => engQueue_keeps ht
  case erd => exact keeps_issue hw fun t ht => erdBody_keeps ht
  case ewait => exact keeps_issue hw fun t ht => ewaitBody_keeps ht
  case edrift => exact keeps_issue hw fun t ht => edriftBody_keeps ht
  case bmv => exact keeps_issue hw fun t ht => bmvBody_keeps ht
  case bwait => exact keeps_issue hw fun t ht => bwaitBody_keeps ht
  case rdref | rdrefh | rdsys | rdseg | rdid | tmclr | wdkick | trapret | ifence | raise | coreNop =>
    exact keeps_issue hw fun t ht => by simp [ht, giveInt_keeps]
  case rdctr => exact keeps_issue hw fun t ht => by dsimp only; split <;> simp [ht, giveInt_keeps]
  case wrsys | tmset => exact keeps_issue hw fun t ht => withInt_keeps ht fun v => by simp [ht]
  case halt => exact keeps_issue hw fun t ht => haltBody_keeps ht
  -- the ladle commands, the events and firmware's own operations
  all_goals simp [hw]

theorem step_keeps (hw : s.mem.wf = true) : Keeps (step s) := by
  unfold step
  split
  · exact Keeps.next.2 hw
  · exact exec_keeps _ hw

end Sys2Proof.Machine
end

section
/-!
O60 and O58: the canonical form of the stores is an invariant.
-/

namespace Sys2Proof

/-- Settles O60: a step is a row of the instruction set on the state without it, and every row keeps the canonical form. -/
theorem everyStepKeepsStores : Obligations.EveryStepKeepsStores :=
  fun _ t hw h => Machine.step_keeps hw t h

/-- Settles O58: the rows that a processor issues are rows. -/
theorem instructionsKeepStores : Obligations.InstructionsKeepStores :=
  fun i _ t _ hw h => Machine.exec_keeps i hw t h

end Sys2Proof
end

section
/-!
The reset state: nothing that the reset of a flask or of a domain runs writes it, but the reset of the domain itself.
-/

namespace Sys2Proof.Machine

variable {s : State}

/-! ### Folds, branches and bodies -/

/-- A fold of steps that keep the reset state keeps it. -/
@[simp] theorem foldl_rst {β : Type} {f : State → β → State} (hf : ∀ s b, (f s b).rst = s.rst) (l : List β) (s : State) :
    (l.foldl f s).rst = s.rst := by
  induction l generalizing s with
  | nil => rfl
  | cons b l ih => rw [List.foldl_cons, ih, hf]

/-- The same for a fold that carries more than the state. -/
theorem foldl_rst_mid {β γ δ : Type} {f : γ × State × δ → β → γ × State × δ}
    (hf : ∀ r b, (f r b).2.1.rst = r.2.1.rst) (l : List β) (r : γ × State × δ) : (l.foldl f r).2.1.rst = r.2.1.rst := by
  induction l generalizing r with
  | nil => rfl
  | cons b l ih => rw [List.foldl_cons, ih, hf]

@[simp] theorem ite_rst {c : Prop} [Decidable c] {a b : State} :
    (if c then a else b).rst = if c then a.rst else b.rst := apply_ite ..

/-! ### Reports, records and memory -/

@[simp] theorem State.raiseMsix_rst (e : Ep) (entry : Nat) : (s.raiseMsix e entry).rst = s.rst := by simp [State.raiseMsix]

@[simp] theorem State.flushMsix_rst (e : Ep) : (s.flushMsix e).rst = s.rst := by simp [State.flushMsix]

@[simp] theorem State.sendNote_rst (e : Ep) : (s.sendNote e).rst = s.rst := by simp [State.sendNote]

@[simp] theorem State.notifyOwner_rst : s.notifyOwner.rst = s.rst := by
  unfold State.notifyOwner; dsimp only; split <;> simp

@[simp] theorem State.logMem_rst (memory : Nat) (ue poison : Bool) (src : Src) (fa : Nat) :
    (s.logMem memory ue poison src fa).rst = s.rst := by simp [State.logMem]

@[simp] theorem State.logVote_rst (ue : Bool) (d : Domain) : (s.logVote ue d).rst = s.rst := by simp [State.logVote]

@[simp] theorem State.readTrip_rst (w : TripWord) : (s.readTrip w).rst = s.rst := by simp [State.readTrip]

@[simp] theorem State.replaceCw_rst (a : Nat) (src : Src) : (s.replaceCw a src).rst = s.rst := by
  unfold State.replaceCw; split <;> simp

@[simp] theorem State.noteFill_rst (f : FlaskId) (r : ScorRec) (a n : Nat) :
    (s.noteFill f r a n).rst = s.rst := by simp [State.noteFill]

@[simp] theorem State.noteAsk_rst (f : FlaskId) (r : ScorRec) (a : Nat) (bs : List Byte) :
    (s.noteAsk f r a bs).rst = s.rst := by simp [State.noteAsk]

@[simp] theorem State.noteWrite_rst (fa : Nat) (bs : List Byte) : (s.noteWrite fa bs).rst = s.rst := by simp [State.noteWrite]

@[simp] theorem State.wholeLine_rst (fa : Nat) (bs : List Byte) (src : Src) :
    (s.wholeLine fa bs src).rst = s.rst := by simp [State.wholeLine]

@[simp] theorem State.writeLp_rst (dom : Domain) (a : Nat) (bs : List Byte) : (s.writeLp dom a bs).rst = s.rst := by
  unfold State.writeLp
  refine foldl_rst (fun s x => ?_) _ _
  split
  · rfl
  · dsimp only; (repeat' split) <;> simp

@[simp] theorem State.signal_rst (l : LadleRef) (quiet : Bool) : (s.signal l quiet).rst = s.rst := by
  unfold State.signal; dsimp only; split <;> simp

@[simp] theorem State.putEntry_rst (l : LadleRef) (e : Entry) : (s.putEntry l e).rst = s.rst := by
  unfold State.putEntry; dsimp only; split <;> simp

@[simp] theorem State.logRecord_rst (code : BitVec 16) (source sev : Nat) (tap : Bool) (flask : Domain) (cl : Option ClusterId)
    (data : List Byte) : (s.logRecord code source sev tap flask cl data).rst = s.rst := by simp [State.logRecord]

@[simp] theorem State.tapBy_rst (source : Nat) (cl : Option ClusterId) (n : Nat) (flask : Domain) :
    (s.tapBy source cl n flask).rst = s.rst := by simp [State.tapBy]

@[simp] theorem State.tap_rst (n : Nat) (flask : Domain) : (s.tap n flask).rst = s.rst := by simp [State.tap]

@[simp] theorem State.reportLost_rst (l : LadleRef) : (s.reportLost l).rst = s.rst := by simp [State.reportLost]

@[simp] theorem State.deliver_rst (l : LadleRef) (e : Entry) : (s.deliver l e).rst = s.rst := by simp [State.deliver]

@[simp] theorem State.postFlask_rst (f : FlaskId) (code : BitVec 16) (status : Status) (src : Nat) (result : List Byte) :
    (s.postFlask f code status src result).rst = s.rst := by simp [State.postFlask]

@[simp] theorem State.postOwner_rst (code : BitVec 16) (status : Status) (src : Nat) (result : List Byte) :
    (s.postOwner code status src result).rst = s.rst := by simp [State.postOwner]

@[simp] theorem State.postDom_rst (d : Domain) (code : BitVec 16) (status : Status) (src : Nat) (result : List Byte) :
    (s.postDom d code status src result).rst = s.rst := by simp [State.postDom]

@[simp] theorem State.wakeSys_rst (p : Proc) : (s.wakeSys p).rst = s.rst := by
  unfold State.wakeSys; dsimp only; split <;> simp

@[simp] theorem State.postCluster_rst (cl : ClusterId) (d : Domain) (code : BitVec 16) (status : Status) (result : List Byte) :
    (s.postCluster cl d code status result).rst = s.rst := by simp [State.postCluster]

@[simp] theorem State.putCompletion_rst (l : LadleRef) (e : Entry) : (s.putCompletion l e).rst = s.rst := by
  unfold State.putCompletion; dsimp only; (repeat' split) <;> simp

@[simp] theorem State.tryTransition_rst : s.tryTransition.rst = s.rst := by
  unfold State.tryTransition; dsimp only; (repeat' split) <;> simp

@[simp] theorem State.complete_rst (l : LadleRef) (tag : Word) (status : Status) (detail : Word) (result : List Byte) :
    (s.complete l tag status detail result).rst = s.rst := by
  unfold State.complete; dsimp only; split <;> simp

@[simp] theorem State.noteUe_rst (memory : Nat) (poison : Bool) (src : Src) (fa : Nat) :
    (s.noteUe memory poison src fa).rst = s.rst := by simp [State.noteUe]

@[simp] theorem State.meetCe_rst (memory : Nat) (src : Src) (fa : Nat) :
    (s.meetCe memory src fa).rst = s.rst := by simp [State.meetCe]

@[simp] theorem State.scrubWord_rst (src : Src) (k : Nat) : (s.scrubWord src k).rst = s.rst := by
  unfold State.scrubWord; split <;> simp

@[simp] theorem State.scrubCw_rst (src : Src) (a : Nat) : (s.scrubCw src a).rst = s.rst := by
  unfold State.scrubCw; split <;> simp

@[simp] theorem State.scrubLine_rst (src : Src) (fa : Nat) : (s.scrubLine src fa).rst = s.rst := by simp [State.scrubLine]

@[simp] theorem State.noSpare_rst (fa : Nat) : (s.noSpare fa).rst = s.rst := by simp [State.noSpare]

@[simp] theorem State.repair_rst (r : Repair) : (s.repair r).rst = s.rst := by
  unfold State.repair; (repeat' split) <;> simp

@[simp] theorem State.softRepair_rst (src : Src) (fa : Nat) : (s.softRepair src fa).rst = s.rst := by simp [State.softRepair]

@[simp] theorem State.markLine_rst (src : Src) (fa : Nat) : (s.markLine src fa).rst = s.rst := by simp [State.markLine]

@[simp] theorem State.meetUe_rst (memory : Nat) (poison : Bool) (src : Src) (fa : Nat) :
    (s.meetUe memory poison src fa).rst = s.rst := by simp [State.meetUe]

@[simp] theorem State.readWord_rst (k : Nat) (src : Src) (ecc : EccReport) : (s.readWord k src ecc).2.2.rst = s.rst := by
  unfold State.readWord; dsimp only; (repeat' split) <;> simp

@[simp] theorem State.readCode_rst (a : Nat) (src : Src) (ecc : EccReport) : (s.readCode a src ecc).2.rst = s.rst := by
  unfold State.readCode; dsimp only; (repeat' split) <;> simp

@[simp] theorem State.readCw_rst (a n : Nat) (src : Src) (ecc : EccReport) : (s.readCw a n src ecc).2.2.rst = s.rst :=
  State.readCode_rst ..

@[simp] theorem State.lineWrite_rst (fa : Nat) (bs : List Byte) (src : Src) (ecc : EccReport) :
    (s.lineWrite fa bs src ecc).1.rst = s.rst := by
  unfold State.lineWrite; dsimp only; (repeat' split) <;> simp

@[simp] theorem State.replaceWord_rst (k : Nat) (w : TWord) (src : Src) (ecc : EccReport) :
    (s.replaceWord k w src ecc).rst = s.rst := by simp [State.replaceWord]

@[simp] theorem State.partWord_rst (fa : Nat) (bs : List Byte) (tag : Tag → Tag) (src : Src) (ecc : EccReport) :
    (s.partWord fa bs tag src ecc).1.rst = s.rst := by
  unfold State.partWord; dsimp only; split <;> simp

@[simp] theorem State.ownResv_rst (p : Proc) (line : Nat) : (s.ownResv p line).rst = s.rst := by simp [State.ownResv]

@[simp] theorem State.wakeTally_rst (fa : Nat) : (s.wakeTally fa).rst = s.rst := by
  unfold State.wakeTally
  dsimp only
  split
  · rfl
  · rw [foldl_rst (fun _ _ => by simp)]; simp

@[simp] theorem State.wrote_rst (fa : Nat) (except : Option Proc) : (s.wrote fa except).rst = s.rst := by simp [State.wrote]

@[simp] theorem State.hubReadPiece_rst (dom : Domain) (src : Src) (a n : Nat) : (s.hubReadPiece dom src a n).2.1.rst = s.rst := by
  unfold State.hubReadPiece; dsimp only; (repeat' split) <;> simp

@[simp] theorem State.hubRead_rst (dom : Domain) (src : Src) (a n : Nat) : (s.hubRead dom src a n).2.1.rst = s.rst :=
  foldl_rst_mid (fun _ _ => by simp) _ _

@[simp] theorem State.landEnd_rst (key : LandKey) : (s.landEnd key).rst = s.rst := by simp [State.landEnd]

@[simp] theorem State.mixed_rst (fa : Nat) (w : TWord) : (s.mixed fa w).1.rst = s.rst := by
  unfold State.mixed; dsimp only; split <;> simp

/-! ### Cores and their instructions -/

@[simp] theorem State.modCore_rst (p : Proc) (f : Core → Core) : (s.modCore p f).rst = s.rst := by simp [State.modCore]

@[simp] theorem State.loseLocks_rst (p : Proc) : (s.loseLocks p).rst = s.rst := by
  unfold State.loseLocks; dsimp only; split <;> simp

@[simp] theorem State.mapClusters_rst (f : Cluster → Cluster) : (s.mapClusters f).rst = s.rst :=
  foldl_rst (fun _ _ => by simp) _ _

@[simp] theorem State.markWaiters_rst (fa : Nat) : (s.markWaiters fa).rst = s.rst := by simp [State.markWaiters]

@[simp] theorem State.endWait_rst (p : Proc) : (s.endWait p).rst = s.rst := by
  unfold State.endWait; dsimp only; split <;> simp

@[simp] theorem State.stopCore_rst (p : Proc) (vector : Byte) (status : Status) : (s.stopCore p vector status).rst = s.rst := by
  unfold State.stopCore; dsimp only; split <;> simp

@[simp] theorem State.takeTrap_rst (p : Proc) (t : TrapInfo) : (s.takeTrap p t).rst = s.rst := by
  unfold State.takeTrap; dsimp only; (repeat' split) <;> simp

@[simp] theorem State.retire_rst (p : Proc) (pc : Nat) (event : Nat) : (s.retire p pc event).rst = s.rst := by simp [State.retire]

@[simp] theorem State.settle_rst (p : Proc) (len : Nat) (b : Body) : (s.settle p len b).rst = b.state.rst := by
  cases b <;> simp [State.settle]

@[simp] theorem State.sendReq_rst (p : Proc) (d : Desc) (seg : BitVec 3) (off : Int) (fa : Nat) (posted : Bool) (op : MemOp) :
    (s.sendReq p d seg off fa posted op).rst = s.rst := by
  unfold State.sendReq; dsimp only; split <;> simp

@[simp] theorem State.homeLoad_rst (fa : Nat) (src : Src) (ecc : EccReport) : (s.homeLoad fa src ecc).1.rst = s.rst := by
  unfold State.homeLoad; dsimp only; (repeat' split) <;> simp

@[simp] theorem State.homeStore_rst (fa n : Nat) (v : TWord) (src : Src) (ecc : EccReport) :
    (s.homeStore fa n v src ecc).1.rst = s.rst := by
  unfold State.homeStore; dsimp only; (repeat' split) <;> simp

@[simp] theorem State.homeTas_rst (who : Proc) (fa : Nat) (src : Src) (ecc : EccReport) :
    (s.homeTas who fa src ecc).1.rst = s.rst := by
  have hload : ((s.ownResv who (fa / 64)).homeLoad fa src ecc).1.rst = s.rst := by simp
  unfold State.homeTas
  dsimp only
  split
  · rfl
  split
  · simp
  split
  · next t w e =>
    have ht : t.rst = s.rst := by rw [e] at hload; exact hload
    have hstore := t.homeStore_rst fa 4 ⟨1, Tag.int⟩ src .stored
    split
    · split
      · next e => rw [e] at hstore; exact hstore.trans ht
      · exact hstore.trans ht
    · exact ht
  · exact hload

@[simp] theorem State.homeScond_rst (p : Proc) (fa : Nat) (v : TWord) (src : Src) (ecc : EccReport) :
    (s.homeScond p fa v src ecc).1.rst = s.rst := by
  unfold State.homeScond; dsimp only; (repeat' split) <;> simp

@[simp] theorem State.moveLine_rst (dom : Domain) (a : Nat) (deftag : Tag) : (s.moveLine dom a deftag).2.rst = s.rst := by
  have hwords (fa : Nat) (l : List Nat) (r : List TWord × Bool × State) :
      (l.foldl (fun (r : List TWord × Bool × State) i =>
        let w := r.2.2.readWord (fa / 4 + i) .move .stored
        let t := if w.1.tag = Tag.lock ∨ w.1.tag = Tag.token then Tag.raw else w.1.tag
        ((r.1 ++ [(⟨w.1.payload, t⟩ : TWord)], (r.2.1 || w.2.1), w.2.2) : List TWord × Bool × State)) r).2.2.rst =
      r.2.2.rst := by
    induction l generalizing r with
    | nil => rfl
    | cons i l ih => rw [List.foldl_cons, ih]; simp
  unfold State.moveLine
  dsimp only at hwords ⊢
  (repeat' split) <;> simp [hwords]

theorem State.putLine_rst {who : OutWho} {dom : Domain} {a : Nat} {ws : List TWord} {t : State}
    (h : s.putLine who dom a ws = some t) : t.rst = s.rst := by
  unfold State.putLine at h
  dsimp only at h
  split at h
  · cases h; simp
  · split at h
    · cases h
    · split at h
      · cases h
      · split at h
        · cases h; simp
        · split at h
          · cases h
          · cases h
            rw [foldl_rst (fun _ _ => by simp), State.breakResv_rst, foldl_rst (fun _ _ => by simp)]

theorem State.moveOne_rst (who : Nat → OutWho) (m : Move) (i : Nat) :
    (s.moveOne who m i).2.rst = s.rst ∧ ∀ t, (s.moveOne who m i).1 = some t → t.rst = s.rst := by
  have hread := s.moveLine_rst m.sdom (m.src.toNat + 64 * i) m.deftag
  unfold State.moveOne
  cases m.data with
  | some bs => exact ⟨rfl, fun _ h => State.putLine_rst h⟩
  | none =>
    dsimp only
    generalize s.moveLine m.sdom (m.src.toNat + 64 * i) m.deftag = r at hread ⊢
    obtain ⟨o, u⟩ := r
    cases o with
    | none => exact ⟨hread, fun _ h => by cases h⟩
    | some ws => exact ⟨hread, fun _ h => (State.putLine_rst h).trans hread⟩

theorem State.moveLines_rst (who : Nat → OutWho) (m : Move) (i n : Nat) : (s.moveLines who m i n).1.rst = s.rst := by
  induction n generalizing s i with
  | zero => rfl
  | succ n ih =>
    obtain ⟨hstop, hgo⟩ := s.moveOne_rst who m i
    unfold State.moveLines
    split
    · next t _ h => rw [ih, hgo t (by rw [h])]
    · next t h => rw [h] at hstop; exact hstop

@[simp] theorem State.runMove_rst (p : Proc) (slot : BitVec 2) (m : Move) : (s.runMove p slot m).rst = s.rst := by
  simp [State.runMove, State.endMove, State.moveLines_rst]

@[simp] theorem State.flushMoves_rst (p : Proc) (path : Nat) : (s.flushMoves p path).rst = s.rst := by simp [State.flushMoves]

@[simp] theorem State.noteStore_rst (p : Proc) (fa : Nat) : (s.noteStore p fa).rst = s.rst := by simp [State.noteStore]

@[simp] theorem State.beforeWrite_rst (p : Proc) (fa : Nat) : (s.beforeWrite p fa).rst = s.rst := by simp [State.beforeWrite]

@[simp] theorem storeBody_rst (p : Proc) (i : Instr) (f : MemF) (disp : Int) (n : Nat) :
    (storeBody p i f disp n s).state.rst = s.rst := by
  unfold storeBody localStore
  dsimp only
  (repeat' split) <;> simp

@[simp] theorem tasDone_rst (p : Proc) (f : MemF) (fa : Nat) (old : TWord) (z : Bool) :
    (tasDone p f fa old z s).state.rst = s.rst := by simp [tasDone]

@[simp] theorem tasBody_rst (p : Proc) (f : MemF) : (tasBody p f s).state.rst = s.rst := by
  unfold tasBody
  split
  · rfl
  split
  · rfl
  next off pl _ =>
  have htas : ((s.beforeWrite p pl.fa).homeTas p pl.fa .core .stored).1.rst = s.rst := by simp
  split
  · rfl
  split
  · split
    · rfl
    · split <;> next e => rw [e] at htas; simpa using htas
  · simp

@[simp] theorem scondDone_rst (p : Proc) (f : MemF) (ok : Bool) : (scondDone p f ok s).state.rst = s.rst := by simp [scondDone]

@[simp] theorem scondBody_rst (p : Proc) (f : MemF) : (scondBody p f s).state.rst = s.rst := by
  unfold scondBody
  dsimp only
  split
  · rfl
  split
  · rfl
  next off pl _ =>
  have hcond : ((s.beforeWrite p pl.fa).homeScond p pl.fa ((s.core p).reg (scondRs f)) .core .stored).1.rst = s.rst := by simp
  split
  · rfl
  split
  · split
    · rfl
    · split <;> next e => rw [e] at hcond; simpa using hcond
  · simp

@[simp] theorem callStores_rst (p : Proc) (sp : Int) (n : Nat) (ws : List TWord) (s : State) :
    (storesLeave (callStores p s sp n ws)).rst = s.rst := by
  induction ws generalizing s sp n with
  | nil => rfl
  | cons w ws ih =>
    unfold callStores
    dsimp only
    split
    · rfl
    split
    · rfl
    next pl _ =>
    have hstore : ((s.beforeWrite p pl.fa).homeStore pl.fa 4 w .core .stored).1.rst = s.rst := by simp
    split
    · split
      · next e => rw [e] at hstore; exact hstore
      · next e => rw [e] at hstore; exact (ih ..).trans hstore
    · rw [ih]; simp

@[simp] theorem callDone_rst (p : Proc) (f : CallF) : (callDone p f s).state.rst = s.rst := by simp [callDone]

@[simp] theorem callBody_rst (p : Proc) (f : CallF) : (callBody p f s).state.rst = s.rst := by
  have hstores := callStores_rst p (segOff ((s.core p).reg 14).payload false 0) 0 (callWords (s.core p) f.mask) s
  unfold callBody
  dsimp only
  split
  · rfl
  split
  · rfl
  split
  · rfl
  split
  · next e => rw [e] at hstores; exact hstores
  · next e => rw [e] at hstores; exact (callDone_rst ..).trans hstores
  · next e => rw [e] at hstores; exact hstores

@[simp] theorem State.takeWord_rst (p : Proc) (q : Port) : (s.takeWord p q).rst = s.rst := by
  unfold State.takeWord; dsimp only; (repeat' split) <;> simp

theorem State.pullOne_rst {p : Proc} {q : Port} {t : State} (h : s.pullOne p q = some t) : t.rst = s.rst := by
  unfold State.pullOne at h
  dsimp only at h
  split at h
  · cases h; simp
  · cases h

@[simp] theorem State.pullPort_rst (p : Proc) (q : Port) (n : Nat) : (s.pullPort p q n).rst = s.rst := by
  induction n generalizing s with
  | zero => rfl
  | succ n ih =>
    unfold State.pullPort
    split
    · rfl
    · next h => exact ih.trans (State.pullOne_rst h)

@[simp] theorem State.pull_rst (p : Proc) : (s.pull p).rst = s.rst := by simp [State.pull]

@[simp] theorem recvBody_rst (p : Proc) (f : StrF) : (recvBody p f s).state.rst = s.rst := by
  unfold recvBody; split <;> simp

@[simp] theorem State.sendWord_rst (p : Proc) (q : Port) (w : TWord) : (s.sendWord p q w).rst = s.rst := by
  unfold State.sendWord; dsimp only; split <;> simp

@[simp] theorem sendBody_rst (p : Proc) (f : StrF) : (sendBody p f s).state.rst = s.rst := by
  unfold sendBody; dsimp only; (repeat' split) <;> simp

@[simp] theorem waitanyBody_rst (p : Proc) (f : StrF) : (waitanyBody p f s).state.rst = s.rst := by
  unfold waitanyBody; split <;> simp

@[simp] theorem syncBody_rst (p : Proc) (i : Instr) (f : SyncF) (kind : SyncKind) :
    (syncBody p i f kind s).state.rst = s.rst := by
  unfold syncBody; dsimp only; (repeat' split) <;> simp

@[simp] theorem fenceBody_rst (p : Proc) (f : SyncF) : (fenceBody p f s).state.rst = s.rst := by
  unfold fenceBody; split <;> simp

@[simp] theorem State.syncWrite_rst (who : Option Proc) (fa : Nat) (w : TWord) :
    (s.syncWrite who fa w).rst = s.rst := by simp [State.syncWrite]

@[simp] theorem Barrier.write_rst (who : Option Proc) (fa : Nat) (b : Barrier) : (Barrier.write s who fa b).rst = s.rst :=
  foldl_rst (fun _ _ => State.syncWrite_rst ..) _ _

theorem State.engReport_rst {p : Proc} {es : List (BitVec 2)} {b : Body} (h : s.engReport p es = some b) :
    b.state.rst = s.rst := by
  induction es with
  | nil => cases h
  | cons e es ih =>
    unfold State.engReport at h
    dsimp only at h
    split at h
    · cases h; simp
    · exact ih h

theorem State.enqueue_rst {p : Proc} {e : BitVec 2} {op : EngOp} {t : State} (h : s.enqueue p e op = some t) :
    t.rst = s.rst := by
  unfold State.enqueue at h
  dsimp only at h
  split at h
  · cases h
  · cases h; simp

@[simp] theorem engQueue_rst (p : Proc) (i : Instr) (e : BitVec 2) (op : EngOp) : (engQueue p i e op s).state.rst = s.rst := by
  unfold engQueue
  split
  · next h => exact State.engReport_rst h
  split
  · next h => exact State.enqueue_rst h
  · rfl

@[simp] theorem edotBody_rst (p : Proc) (f : EdotF) : (edotBody p f s).state.rst = s.rst := by
  unfold edotBody
  dsimp only
  (repeat' split) <;> simp

@[simp] theorem packBody_rst (p : Proc) (i : Instr) (f : PackF) (isPack : Bool) :
    (packBody p i f isPack s).state.rst = s.rst := by
  unfold packBody
  dsimp only
  split
  · rfl
  split
  · split
    · next h => exact State.engReport_rst h
    · rfl
  split <;> simp

@[simp] theorem State.driftEvents_rst (c : CoreId) (e : BitVec 2) (counter : Nat) (old new limit : Word) :
    (s.driftEvents c e counter old new limit).rst = s.rst := by simp [State.driftEvents]

@[simp] theorem State.drift_rst (p : Proc) (e : BitVec 2) (g g' : Engine) : (s.drift p e g g').rst = s.rst := by
  unfold State.drift; dsimp only; split <;> simp

theorem engIdle_rst (p : Proc) (i : Instr) (es : List (BitVec 2)) {done : State → Body} (h : ∀ t, (done t).state.rst = t.rst) :
    (engIdle p i es s done).state.rst = s.rst := by
  unfold engIdle
  dsimp only
  split
  · next e => exact State.engReport_rst e
  split
  · rw [h]; simp
  · rfl

@[simp] theorem erdBody_rst (p : Proc) (f : ErdF) : (erdBody p f s).state.rst = s.rst := engIdle_rst _ _ _ fun _ => by simp

@[simp] theorem ewaitBody_rst (p : Proc) (f : EwaitF) : (ewaitBody p f s).state.rst = s.rst := engIdle_rst _ _ _ fun _ => rfl

@[simp] theorem edriftBody_rst (p : Proc) (f : EdriftF) :
    (edriftBody p f s).state.rst = s.rst := engIdle_rst _ _ _ fun _ => by simp

@[simp] theorem State.engRead_rst (op : EngOp) (k n : Nat) : (s.engRead op k n).2.rst = s.rst := by
  induction n generalizing s k with
  | zero => rfl
  | succ n ih => unfold State.engRead; dsimp only; rw [ih]; split <;> simp

@[simp] theorem State.readRun_rst (op : EngOp) (d : Desc) (f : Fmt) (n base off : Nat) (ws : List TWord) (fuel : Nat) :
    (s.readRun op d f n base off ws fuel).2.rst = s.rst := by
  induction fuel generalizing s ws with
  | zero => rfl
  | succ fuel ih =>
    unfold State.readRun
    dsimp only
    (repeat' split) <;> simp [ih]

@[simp] theorem endFail_rst (g : Engine) (c : EngCause) (b : Nat) : (endFail s g c b).s.rst = s.rst := rfl

@[simp] theorem State.runDot_rst (p : Proc) (f : EdotF) (op : EngOp) (g : Engine) : (s.runDot p f op g).s.rst = s.rst := by
  unfold State.runDot; dsimp only; (repeat' split) <;> simp

@[simp] theorem State.engWrite_rst (p : Proc) (k : Nat) (ws : List TWord) :
    (s.engWrite p k ws).rst = s.rst := by simp [State.engWrite]

@[simp] theorem State.spoil_rst (ws : List TWord) : (s.spoil ws).2.rst = s.rst := by
  induction ws generalizing s with
  | nil => rfl
  | cons w ws ih => unfold State.spoil; dsimp only; rw [ih]; rfl

@[simp] theorem State.engStore_rst (p : Proc) (op : EngOp) (ws : List TWord) (partial_ : Bool) :
    (s.engStore p op ws partial_).rst = s.rst := by
  unfold State.engStore; dsimp only; (repeat' split) <;> simp

@[simp] theorem State.runPack_rst (p : Proc) (op : EngOp) (g : Engine) : (s.runPack p op g).s.rst = s.rst := by
  unfold State.runPack; dsimp only; (repeat' split) <;> simp

@[simp] theorem State.runMx_rst (p : Proc) (f : PackF) (op : EngOp) (g : Engine) : (s.runMx p f op g).s.rst = s.rst := by
  unfold State.runMx; dsimp only; (repeat' split) <;> simp

@[simp] theorem State.runOp_rst (p : Proc) (op : EngOp) (g : Engine) : (s.runOp p op g).s.rst = s.rst := by
  unfold State.runOp; split <;> simp

@[simp] theorem State.endOp_rst (p : Proc) (e : BitVec 2) (op : EngOp) : (s.endOp p e op).rst = s.rst := by
  simp [State.endOp]

@[simp] theorem State.askMove_rst (p : Proc) (slot : BitVec 2) (m : Move) :
    (s.askMove p slot m).rst = s.rst := by simp [State.askMove]

@[simp] theorem bmvBody_rst (p : Proc) (f : BmvF) : (bmvBody p f s).state.rst = s.rst := by
  unfold bmvBody; dsimp only; (repeat' split) <;> simp

@[simp] theorem bwaitBody_rst (p : Proc) (f : BwaitF) : (bwaitBody p f s).state.rst = s.rst := by
  unfold bwaitBody; dsimp only; (repeat' split) <;> simp

@[simp] theorem haltBody_rst (p : Proc) (f : SysF) : (haltBody p f s).state.rst = s.rst := by
  unfold haltBody; dsimp only; split <;> simp

theorem waitBody_rst {p : Proc} {w : Wait} {b : State → Body} (e : waitBody p w = some b) : (b s).state.rst = s.rst := by
  unfold waitBody at e
  split at e
  case h_9 => cases e; exact engQueue_rst ..
  case h_18 | h_19 | h_20 | h_21 | h_22 | h_23 => split at e <;> cases e; simp
  all_goals cases e
  all_goals simp

@[simp] theorem State.rerun_rst (p : Proc) : (s.rerun p).rst = s.rst := by
  unfold State.rerun
  split
  · rfl
  split
  · rfl
  split
  · rfl
  · next e => rw [State.settle_rst, waitBody_rst e]

@[simp] theorem State.endTake_rst (t : Take) (st : Status) : (s.endTake t st).rst = s.rst := by
  unfold State.endTake; dsimp only; split <;> simp

/-! ### Network, transport, storage and endpoints -/

@[simp] theorem State.castEvent_rst (f : Option FlaskId) (st : Status) (rot : Nat) : (s.castEvent f st rot).rst = s.rst := by
  unfold State.castEvent; dsimp only; split <;> simp

@[simp] theorem State.issueToken_rst (f : FlaskId) (b : BitVec 12) (c : CoreId) (port : Port) (w : Word) :
    (s.issueToken f b c port w).rst = s.rst := by simp [State.issueToken]

@[simp] theorem State.feedToken_rst (f : FlaskId) (r : FeedRec) (info : Nat) : (s.feedToken f r info).rst = s.rst := by
  unfold State.feedToken; split <;> simp

@[simp] theorem State.addJob_rst (f : FlaskId) (feed : Option FeedRec) (b : BitVec 12) (src : BitVec 48) (len : Nat)
    (origin : JobFrom) : (s.addJob f feed b src len origin).rst = s.rst := by simp [State.addJob]

@[simp] theorem State.askHost_rst (who : OutWho) (dom : Domain) (a n : Nat) (data : Option (List Byte)) :
    (s.askHost who dom a n data).rst = s.rst := by simp [State.askHost]

@[simp] theorem State.modHead_rst (port : Port) (g : Frame → Frame) : (s.modHead port g).rst = s.rst := by
  unfold State.modHead; dsimp only; split <;> simp

@[simp] theorem State.frameLeg_rst (port : Port) (leg : HostLeg) : (s.frameLeg port leg).rst = s.rst := by simp [State.frameLeg]

@[simp] theorem State.disown_rst (n : Nat) : (s.disown n).rst = s.rst := by simp [State.disown]

@[simp] theorem State.queuePkt_rst (n : Nat) (port : Port) (e : Nat) (type : BitVec 4) (hdr : XpHdr) (body : List Byte) :
    (s.queuePkt n port e type hdr body).rst = s.rst := by
  unfold State.queuePkt; dsimp only; split <;> simp

@[simp] theorem State.qpFail_rst (n : Nat) (cause : Status) (msn : Option Word) : (s.qpFail n cause msn).rst = s.rst := by
  unfold State.qpFail; dsimp only; (repeat' split) <;> simp

@[simp] theorem State.dropQp_rst (n : Nat) : (s.dropQp n).rst = s.rst := by
  unfold State.dropQp; dsimp only; split <;> simp

@[simp] theorem State.answer_rst (port : Option Port) (hdr : XpHdr) (nak : Option NakCode) :
    (s.answer port hdr nak).rst = s.rst := by simp [State.answer]

@[simp] theorem State.finishRevoke_rst (i : Nat) : (s.finishRevoke i).rst = s.rst := by
  unfold State.finishRevoke; dsimp only; split <;> simp

@[simp] theorem State.finishClears_rst (i : Nat) : (s.finishClears i).rst = s.rst := by
  unfold State.finishClears; dsimp only; split <;> simp

@[simp] theorem State.revokeMr_rst (i : Nat) (asked : List (LadleRef × Word)) : (s.revokeMr i asked).rst = s.rst := by
  unfold State.revokeMr; dsimp only; split <;> simp

@[simp] theorem State.placeOutDone_rst (n psn : Nat) (bad : Bool) (data : List Byte) :
    (s.placeOutDone n psn bad data).rst = s.rst := by simp [State.placeOutDone]

@[simp] theorem State.issueDrv_rst (c : DrvCmd) : (s.issueDrv c).rst = s.rst := by
  unfold State.issueDrv; dsimp only; split <;> simp

@[simp] theorem State.newPart_rst (c : DrvCmd) : (s.newPart c).rst = s.rst := by simp [State.newPart]

@[simp] theorem State.newDrv_rst (c : DrvCmd) : (s.newDrv c).rst = s.rst := by simp [State.newDrv]

@[simp] theorem State.stepPower_rst (p : Port) : (s.stepPower p).rst = s.rst := by
  unfold State.stepPower; dsimp only; split <;> simp

@[simp] theorem State.stepVol_rst (k : Nat) : (s.stepVol k).rst = s.rst := by
  unfold State.stepVol; (repeat' split) <;> simp

@[simp] theorem State.stepVols_rst : s.stepVols.rst = s.rst := by simp [State.stepVols]

@[simp] theorem State.stepFlush_rst (f : Flush) : (s.stepFlush f).rst = s.rst := by simp [State.stepFlush]

@[simp] theorem State.setCmd_rst (c : DrvCmd) : (s.setCmd c).rst = s.rst := by simp [State.setCmd]

@[simp] theorem State.endDrvAll_rst (c : DrvCmd) (bytes : Nat) (st : Status) (detail : Word) :
    (s.endDrvAll c bytes st detail).rst = s.rst := by
  unfold State.endDrvAll; dsimp only; (repeat' split) <;> simp

@[simp] theorem State.endDrv_rst (c : DrvCmd) (st : Status) (detail : Word) :
    (s.endDrv c st detail).rst = s.rst := by simp [State.endDrv]

@[simp] theorem State.driveOutDone_rst (id : Nat) (bad : Option Status) (data : List Byte) :
    (s.driveOutDone id bad data).rst = s.rst := by
  unfold State.driveOutDone; dsimp only; (repeat' split) <;> simp

@[simp] theorem State.jobLeg_rst (f : FlaskId) (b : BitVec 12) (leg : HostLeg) :
    (s.jobLeg f b leg).rst = s.rst := by simp [State.jobLeg]

@[simp] theorem State.modEp_rst (e : Ep) (f : Endpoint → Endpoint) : (s.modEp e f).rst = s.rst := by simp [State.modEp]

@[simp] theorem State.flushNotes_rst (e : Ep) : (s.flushNotes e).rst = s.rst := by simp [State.flushNotes]

@[simp] theorem State.answerProc_rst (p : Proc) (gen : Byte) (fa : BitVec 48) (seg : BitVec 3) (off : Word) (posted : Bool)
    (r : Reply) : (s.answerProc p gen fa seg off posted r).rst = s.rst := by simp [State.answerProc]

@[simp] theorem State.moveFail_rst (p : Proc) (gen : Byte) (slot : BitVec 2) : (s.moveFail p gen slot).rst = s.rst := by
  simp [State.moveFail]

@[simp] theorem State.outFailed_rst (r : OutReq) (st : Status) : (s.outFailed r st).rst = s.rst := by
  unfold State.outFailed; (repeat' split) <;> simp

@[simp] theorem State.squashOut_rst (e : Ep) (dom : Domain → Bool) : (s.squashOut e dom).rst = s.rst := by
  simp [State.squashOut]

@[simp] theorem State.disableWin_rst (e : Ep) (outbound : Bool) (i : Nat) :
    (s.disableWin e outbound i).rst = s.rst := by simp [State.disableWin]

@[simp] theorem State.twinSend_rst (b : TwinBody) : (s.twinSend b).rst = s.rst := by simp [State.twinSend]

@[simp] theorem State.mirrorNow_rst (x : MirrorSel) : (s.mirrorNow x).rst = s.rst := by simp [State.mirrorNow]

@[simp] theorem State.clearSlot_rst (i : Nat) : (s.clearSlot i).rst = s.rst := by simp [State.clearSlot]

/-! ### Flasks, their stop and their reset -/

@[simp] theorem State.forget_rst (l : LadleRef) (tag : Word) : (s.forget l tag).rst = s.rst := by simp [State.forget]

@[simp] theorem State.endWork_rst (l : LadleRef) (tag : Word) : (s.endWork l tag).rst = s.rst := by
  unfold State.endWork
  dsimp only
  rw [State.stepVols_rst]
  iterate 5 rw [foldl_rst fun _ _ => by simp]
  split <;> simp

@[simp] theorem State.loadCore_rst (f : FlaskId) (m : Mould) (i : Nat) : (s.loadCore f m i).rst = s.rst := by
  unfold State.loadCore; dsimp only; split <;> simp

@[simp] theorem State.wire_rst (f : FlaskId) (r : RouteRec) (waiting : Nat) : (s.wire f r waiting).rst = s.rst := by
  unfold State.wire; dsimp only; split <;> simp

@[simp] theorem State.putObject_rst (cls : List ClusterId) (r : SyncRec) : (s.putObject cls r).rst = s.rst := by
  unfold State.putObject; dsimp only; (repeat' split) <;> simp

@[simp] theorem State.giveCluster_rst (d : Domain) (cl : ClusterId) :
    (s.giveCluster d cl).rst = s.rst := by simp [State.giveCluster]

@[simp] theorem State.giveGranule_rst (d : Domain) (g : Nat) : (s.giveGranule d g).rst = s.rst := by simp [State.giveGranule]

@[simp] theorem State.stopEngines_rst (c : CoreId) : (s.stopEngines c).rst = s.rst := by
  unfold State.stopEngines
  dsimp only
  rw [State.modCore_rst]
  exact foldl_rst (fun _ _ => by split <;> simp) _ _

@[simp] theorem State.loadAll_rst (f : FlaskId) (m : Mould) : (s.loadAll f m).rst = s.rst := by
  simp [State.loadAll]

@[simp] theorem State.castSteps_rst (n : Nat) : (s.castSteps n).rst = s.rst := by simp [State.castSteps]

@[simp] theorem State.castDone_rst (tag : Word) (f : Option FlaskId) (st : Status) (detail : Word) :
    (s.castDone tag f st detail).rst = s.rst := by
  unfold State.castDone; dsimp only; split <;> simp

@[simp] theorem State.loseUnstarted_rst (f : FlaskId) (n : BitVec 4) : (s.loseUnstarted f n).rst = s.rst := by
  simp [State.loseUnstarted]

@[simp] theorem State.haltCores_rst (f : FlaskId) : (s.haltCores f).rst = s.rst := by
  simp [State.haltCores]

@[simp] theorem State.squashTakes_rst (f : FlaskId) : (s.squashTakes f).rst = s.rst := by simp [State.squashTakes]

@[simp] theorem State.undoCast_rst (f : FlaskId) : (s.undoCast f).rst = s.rst := by
  unfold State.undoCast; split <;> simp

@[simp] theorem State.beginStop_rst (f : FlaskId) : (s.beginStop f).rst = s.rst := by
  simp [State.beginStop]

@[simp] theorem State.squashHost_rst (f : FlaskId) (e : Ep) : (s.squashHost f e).rst = s.rst := by
  simp [State.squashHost]

@[simp] theorem State.squashWork_rst (f : FlaskId) : (s.squashWork f).rst = s.rst := by
  simp [State.squashWork]

@[simp] theorem State.clearFlask_rst (f : FlaskId) : (s.clearFlask f).rst = s.rst := by simp [State.clearFlask]

@[simp] theorem State.resetEvent_rst (f : FlaskId) (squashed : Bool) :
    (s.resetEvent f squashed).rst = s.rst := by simp [State.resetEvent]

@[simp] theorem State.closeWindows_rst (f : FlaskId) : (s.closeWindows f).rst = s.rst := by simp [State.closeWindows]

@[simp] theorem State.freeAll_rst (f : FlaskId) : (s.freeAll f).rst = s.rst := by
  unfold State.freeAll
  dsimp only
  rw [State.setFlask_rst, ite_rst, State.modEp_rst, ite_self]
  iterate 4 rw [foldl_rst fun _ _ => by simp]
  rw [foldl_rst fun _ _ => State.setShaper_rst ..]
  simp

@[simp] theorem State.startDestroy_rst (f : FlaskId) (asked : List Word) : (s.startDestroy f asked).rst = s.rst := by
  simp [State.startDestroy]

@[simp] theorem State.finishJob_rst (f : FlaskId) : (s.finishJob f).rst = s.rst := by
  unfold State.finishJob
  dsimp only
  split
  · rfl
  (repeat' split) <;> simp

@[simp] theorem State.resetFor_rst (f : FlaskId) (mode : Byte) (tenant : Bool) (tags : List Word) :
    (s.resetFor f mode tenant tags).rst = s.rst := by
  unfold State.resetFor; dsimp only; (repeat' split) <;> simp

@[simp] theorem State.dropFlight_rst (cls : ClusterId → Bool) (die : Option Die) :
    (s.dropFlight cls die).rst = s.rst := by simp [State.dropFlight]

@[simp] theorem State.clusterDown_rst (cl : ClusterId) : (s.clusterDown cl).rst = s.rst := by simp [State.clusterDown]

@[simp] theorem State.postDomain_rst (d : ClockDomain) (src : Source) (fs : List FlaskId) :
    (s.postDomain d src fs).rst = s.rst := by simp [State.postDomain]

@[simp] theorem State.resetFlasks_rst (fs : List FlaskId) : (s.resetFlasks fs).rst = s.rst := by
  simp [State.resetFlasks]

end Sys2Proof.Machine
end

section
/-!
Clock domains, modes, run-time self-test and flips (R235, R499–R501, R509–R511).
-/

namespace Sys2Proof.Machine

variable {s : State}

/-! ### Registers that a report to the owner leaves alone -/

@[simp] theorem State.sendNote_regs (e : Ep) : (s.sendNote e).regs = s.regs := by simp [State.sendNote]

@[simp] theorem State.notifyOwner_regs : s.notifyOwner.regs = s.regs := by
  unfold State.notifyOwner; dsimp only; (repeat' split) <;> simp

@[simp] theorem State.tap_regs (n : Nat) (flask : Domain) : (s.tap n flask).regs = s.regs := by
  unfold State.tap State.tapBy; split <;> rfl

@[simp] theorem State.putEntry_admin_regs (e : Entry) : (s.putEntry .admin e).regs = s.regs := by
  unfold State.putEntry State.signal; dsimp only; split <;> simp

@[simp] theorem State.reportLost_admin_regs : (s.reportLost .admin).regs = s.regs := by
  unfold State.reportLost; dsimp only; split <;> simp

/-- Of the registers, an event for the owner writes the count of lost events only. -/
theorem State.reg_postOwner_ne {off : Nat} (code : BitVec 16) (st : Status) (src : Nat) (result : List Byte)
    (h : off ≠ Reg.ladleEventsLost) : (s.postOwner code st src result).reg off = s.reg off := by
  unfold State.postOwner State.deliver
  dsimp only
  split
  · split <;> simp [State.reg]
  split
  · simp [State.reg]
  · rw [State.reg_count_ne _ h]; simp [State.reg]

/-! ### Rows and their functions -/

theorem row_clockFailure (d : ClockDomain) (env : StartupEnv) : exec (.clockFailure d env) s = execClockFailure d env s := rfl
theorem row_debugReset (d : Option ClockDomain) (env : StartupEnv) : exec (.debugReset d env) s = execDebugReset d env s := rfl
theorem row_domainClockStable (d : ClockDomain) : exec (.domainClockStable d) s = execDomainClockStable d s := rfl
theorem row_domainStableTimeout (d : ClockDomain) (env : StartupEnv) :
    exec (.domainStableTimeout d env) s = execDomainStableTimeout d env s := rfl
theorem row_olDbgRelease (d : ClockDomain) : exec (.olDbgRelease d) s = execOlDbgRelease d s := rfl
theorem row_rstModeReqTest (m : Master) : exec (.rstModeReqTest m) s = execRstModeReqTest m s := rfl
theorem row_rstModeReqService (m : Master) : exec (.rstModeReqService m) s = execRstModeReqService m s := rfl
theorem row_bistCtlStart (m : Master) : exec (.bistCtlStart m) s = execBistCtlStart m s := rfl
theorem row_bistCtlFuse (m : Master) : exec (.bistCtlFuse m) s = execBistCtlFuse m s := rfl
theorem row_memFlipArm (m : Master) : exec (.memFlipArm m) s = execMemFlipArm m s := rfl
theorem row_runTimeBistDone (pass : Bool) (repairs : List Repair) :
    exec (.runTimeBistDone pass repairs) s = execRunTimeBistDone pass repairs s := rfl

/-! ### Domains put into reset -/

theorem mem_dieClusters {d : Die} {cl : ClusterId} (h : cl.toNat / 512 = d.toNat) : cl ∈ dieClusters d := by
  refine List.mem_map.2 ⟨cl.toNat % 512, List.mem_range.2 (Nat.mod_lt _ (by decide)), BitVec.eq_of_toNat_eq ?_⟩
  have hcl := cl.isLt
  rw [BitVec.toNat_ofNat]
  omega

theorem State.clusterDown_foldl_rst (cls : List ClusterId) (s : State) : (cls.foldl State.clusterDown s).rst = s.rst :=
  foldl_rst (fun _ _ => State.clusterDown_rst ..) _ _

/-- What a die reset holds in reset: the die's own domains first. -/
theorem State.resetDomains_dieReset (d : Die) (x : ClockDomain) (src : Source) : ∃ kept, (s.dieReset d x src).rst.resetDomains =
    ClockDomain.dieInfra d :: .channels d :: (dieClusters d).map ClockDomain.cluster ++ kept := by
  unfold State.dieReset
  simp only [State.postDomain_rst, State.resetFlasks_rst, State.clusterDown_foldl_rst, State.dropFlight_rst]
  exact ⟨_, rfl⟩

theorem State.dieInfra_mem_dieReset (d : Die) (x : ClockDomain) (src : Source) :
    ClockDomain.dieInfra d ∈ (s.dieReset d x src).rst.resetDomains := by
  obtain ⟨kept, h⟩ := s.resetDomains_dieReset d x src
  simp [h]

theorem State.channels_mem_dieReset (d : Die) (x : ClockDomain) (src : Source) :
    ClockDomain.channels d ∈ (s.dieReset d x src).rst.resetDomains := by
  obtain ⟨kept, h⟩ := s.resetDomains_dieReset d x src
  simp [h]

theorem State.cluster_mem_dieReset {d : Die} {cl : ClusterId} (x : ClockDomain) (src : Source) (hcl : cl.toNat / 512 = d.toNat) :
    ClockDomain.cluster cl ∈ (s.dieReset d x src).rst.resetDomains := by
  obtain ⟨kept, h⟩ := s.resetDomains_dieReset d x src
  simp [h, mem_dieClusters hcl]

theorem State.cluster_mem_clusterReset (cl : ClusterId) (src : Source) :
    ClockDomain.cluster cl ∈ (s.clusterReset cl src).rst.resetDomains := by
  unfold State.clusterReset
  dsimp only
  split <;> simp

/-! ### The rows of the clock domains -/

theorem exec_clockFailure (d : ClockDomain) (env : StartupEnv) (hserves : s.phase.serves = true) :
    exec (.clockFailure d env) s = .next (s.domainReset d .clock env) := by
  simp [row_clockFailure, execClockFailure, Phase.serves_ne_off hserves, hserves]

theorem exec_debugReset (d : ClockDomain) (env : StartupEnv) (hserves : s.phase.serves = true) (hunlocked : s.sec.unlocked = 2) :
    exec (.debugReset (some d) env) s = .next (s.domainReset d .debug env) := by
  simp [row_debugReset, execDebugReset, Phase.serves_ne_off hserves, hserves, hunlocked]

theorem exec_domainClockStable_released {x : ClockDomain} (hin : s.rst.resetDomains.contains x = true)
    (hparent : (domainParents x).any s.rst.resetDomains.contains = false) : exec (.domainClockStable x) s =
      .next { s with rst := { s.rst with resetDomains := s.rst.resetDomains.filter (· ≠ x) } } := by
  simp only [row_domainClockStable, execDomainClockStable, hin, hparent, Bool.not_true, Bool.or_self, Bool.false_eq_true, if_false]

theorem exec_domainClockStable_parent {x : ClockDomain} (hparent : (domainParents x).any s.rst.resetDomains.contains = true) :
    exec (.domainClockStable x) s = .next s := by
  simp only [row_domainClockStable, execDomainClockStable, hparent, Bool.or_true, if_true]

theorem exec_domainStableTimeout_cluster {cl : ClusterId} (env : StartupEnv)
    (hin : s.rst.resetDomains.contains (.cluster cl) = true)
    (hinfra : s.rst.resetDomains.contains (.dieInfra (BitVec.ofNat 3 (cl.toNat / 512))) = false)
    (hchannels : s.rst.resetDomains.contains (.channels (BitVec.ofNat 3 (cl.toNat / 512))) = false) :
    exec (.domainStableTimeout (.cluster cl) env) s =
      .next (s.dieReset (BitVec.ofNat 3 (cl.toNat / 512)) (.dieInfra (BitVec.ofNat 3 (cl.toNat / 512))) .clock) := by
  simp only [row_domainStableTimeout, execDomainStableTimeout, hin, hinfra, hchannels, Bool.not_true, Bool.or_self,
    Bool.false_eq_true, if_false]

theorem exec_domainStableTimeout_dieInfra {d : Die} (env : StartupEnv) (hin : s.rst.resetDomains.contains (.dieInfra d) = true) :
    exec (.domainStableTimeout (.dieInfra d) env) s = .next (s.moduleReset .clock env) := by
  simp only [row_domainStableTimeout, execDomainStableTimeout, hin, Bool.not_true, Bool.false_eq_true, if_false]

theorem exec_olDbgRelease_unlocked {x : ClockDomain} (hin : s.rst.resetDomains.contains x = true)
    (hunlocked : s.sec.unlocked = 2) :
    Answers (exec (.olDbgRelease x) s) fun t => t.rst.resetDomains.contains x = false ∧ x ∈ t.rst.forced := by
  simp only [row_olDbgRelease, execOlDbgRelease, hin, hunlocked]
  exact ⟨_, rfl, by simp, by simp⟩

theorem exec_olDbgRelease_locked (x : ClockDomain) (hlocked : s.sec.unlocked ≠ 2) : exec (.olDbgRelease x) s = .next s := by
  simp only [row_olDbgRelease, execOlDbgRelease, hlocked, ne_eq, not_false_eq_true, true_or, if_true]

/-- R499–R501: which reset a failed clock starts, what it holds, what releases a domain, and what a time-out widens to. -/
theorem clockDomains : Claims.ClockDomains := by
  refine ⟨fun s env hserves => ⟨fun d hd => ?_, fun d => ⟨?_, ?_⟩, fun cl => ?_, fun hunlocked cl => ?_⟩,
    fun s d x src cl hcl => ⟨?_, ?_, ?_, ?_⟩,
    fun s x env hin => ⟨exec_domainClockStable_released hin, exec_domainClockStable_parent, ?_, ?_,
      exec_olDbgRelease_unlocked hin, exec_olDbgRelease_locked x⟩⟩
  · rw [exec_clockFailure d env hserves]
    obtain rfl | rfl : d = .aon ∨ d = .hubCore := by simpa using hd
    · rfl
    · rfl
  · exact exec_clockFailure _ _ hserves
  · exact exec_clockFailure _ _ hserves
  · exact exec_clockFailure _ _ hserves
  · exact exec_debugReset _ _ hserves hunlocked
  · exact List.contains_iff_mem.2 (s.dieInfra_mem_dieReset d x src)
  · exact List.contains_iff_mem.2 (s.channels_mem_dieReset d x src)
  · exact List.contains_iff_mem.2 (s.cluster_mem_dieReset x src hcl)
  · exact List.contains_iff_mem.2 (s.cluster_mem_clusterReset cl src)
  · rintro cl rfl
    exact exec_domainStableTimeout_cluster env hin
  · rintro d rfl
    exact exec_domainStableTimeout_dieInfra env hin

/-! ### The rows of the modes, of self-test and of flips -/

theorem State.ownerWrite_owner {m : Master} (f : State → State) (hserves : s.phase.serves = true) (harr : s.arrives m = true)
    (howner : s.isOwner m = true) : s.ownerWrite m f = f s := by
  simp [State.ownerWrite, hserves, harr, howner]

theorem State.ownerWrite_observer {m : Master} (f : State → State) (hserves : s.phase.serves = true) (harr : s.arrives m = true)
    (howner : s.isOwner m = false) : s.ownerWrite m f = s.observed m := by
  simp [State.ownerWrite, hserves, harr, howner]

theorem State.mem_refuseFlip : s.refuseFlip.mem = s.mem := rfl

theorem State.refuseFlip_refused : (s.refuseFlip.reg Reg.memFlipStat).getLsbD 2 = true := by
  rw [State.refuseFlip, State.reg_setReg, BitVec.getLsbD_or]
  exact Bool.or_true _

/-- R435: the same registers, written by a master that does not own the module. -/
theorem observersOnlyCount {m : Master} (hserves : s.phase.serves = true) (harr : s.arrives m = true)
    (howner : s.isOwner m = false) :
    ∀ row ∈ [Instr.rstModeReqTest m, .rstModeReqService m, .bistCtlStart m, .bistCtlFuse m, .memFlipArm m],
      exec row s = .next (s.observed m) := by
  simp only [List.forall_mem_cons, List.not_mem_nil, false_implies, implies_true, row_rstModeReqTest, row_rstModeReqService,
    row_bistCtlStart, row_bistCtlFuse, row_memFlipArm, execRstModeReqTest, execRstModeReqService, execBistCtlStart, execBistCtlFuse,
    execMemFlipArm, State.ownerWrite_observer _ hserves harr howner, and_self]

/-! ### The self-test at run time -/

theorem State.bistStatus_rst (st : Status) (done : Bool) : (s.bistStatus st done).rst = s.rst := rfl

/-- BIST.STAT.STATUS after a refusal. -/
theorem State.bistStatus_code (st : Status) : ((s.bistStatus st false).reg Reg.bistStat).toNat / 2 ^ 16 = st.toNat := by
  have hst := st.isLt
  rw [State.bistStatus, State.reg_setReg, BitVec.toNat_ofNat, if_neg Bool.false_ne_true]
  omega

/-- BIST.STAT.DONE after a run. -/
theorem State.bistStatus_done (st : Status) : ((s.bistStatus st true).reg Reg.bistStat).getLsbD 1 = true := by
  rw [State.bistStatus, State.reg_setReg, BitVec.getLsbD_ofNat, if_pos rfl, Nat.testBit_eq_decide_div_mod_eq]
  simp only [Nat.reduceLT, decide_true, Bool.true_and, decide_eq_true_eq]
  omega

/-- Whether a region is free for a test (R510), as BIST.CTL computes it. -/
def State.bistFree (s : State) (granule : Bool) (i : Nat) : Bool :=
  if granule then decide (i < 9536) && decide (s.mem.ownerOf i = 0x1FF) && !(s.granuleReserved i)
  else decide (i < 4096) && decide (s.mem.clusterOwnerOf (BitVec.ofNat 12 i) = 0x1FF)

theorem State.bistFree_iff {granule : Bool} {i : Nat} : s.bistFree granule i = true ↔
    if granule then i < 9536 ∧ s.mem.ownerOf i = 0x1FF ∧ s.granuleReserved i = false
    else i < 4096 ∧ s.mem.clusterOwnerOf (BitVec.ofNat 12 i) = 0x1FF := by
  cases granule <;> simp [State.bistFree, and_assoc]

section
variable {m : Master} (hserves : s.phase.serves = true) (harr : s.arrives m = true) (howner : s.isOwner m = true)
  (hidle : s.rst.bist = none)
include hserves harr howner hidle

theorem exec_bistCtlStart_taken (hfree : s.bistFree ((s.reg Reg.bistCtl).getLsbD 2) (s.reg Reg.bistRegion).toNat = false) :
    exec (.bistCtlStart m) s = .next (s.bistStatus 0x00E2 false) := by
  simp only [State.bistFree] at hfree
  simp only [row_bistCtlStart, execBistCtlStart, State.ownerWrite_owner _ hserves harr howner, hidle, hfree, Option.isSome_none,
    Bool.not_false, Bool.false_eq_true, if_false, if_true]

theorem exec_bistCtlStart_service (hfree : s.bistFree ((s.reg Reg.bistCtl).getLsbD 2) (s.reg Reg.bistRegion).toNat = true)
    (hretain : (s.reg Reg.bistCtl).getLsbD 1 = false) (hservice : s.phase = .service) :
    exec (.bistCtlStart m) s = .next (s.bistStatus 0x00E3 false) := by
  simp only [State.bistFree] at hfree
  simp only [row_bistCtlStart, execBistCtlStart, State.ownerWrite_owner _ hserves harr howner, hidle, hfree, hretain,
    hservice, Option.isSome_none, Bool.not_true, Bool.not_false, decide_true, Bool.and_self, Bool.false_eq_true, if_false, if_true]

theorem exec_bistCtlStart_retain (hfree : s.bistFree ((s.reg Reg.bistCtl).getLsbD 2) (s.reg Reg.bistRegion).toNat = true)
    (hretain : (s.reg Reg.bistCtl).getLsbD 1 = true) : exec (.bistCtlStart m) s =
      .next { s with rst := { s.rst with
        bist := some ⟨(s.reg Reg.bistCtl).getLsbD 2, (s.reg Reg.bistRegion).toNat, true⟩ } } := by
  simp only [State.bistFree] at hfree
  simp only [row_bistCtlStart, execBistCtlStart, State.ownerWrite_owner _ hserves harr howner, hidle, hfree, hretain,
    Option.isSome_none, Bool.not_true, Bool.false_and, Bool.false_eq_true, if_false, if_true]

theorem exec_bistCtlStart_clears (hfree : s.bistFree ((s.reg Reg.bistCtl).getLsbD 2) (s.reg Reg.bistRegion).toNat = true)
    (hretain : (s.reg Reg.bistCtl).getLsbD 1 = false) (hservice : s.phase ≠ .service) :
    Answers (exec (.bistCtlStart m) s) fun t =>
      t.rst.bist = some ⟨(s.reg Reg.bistCtl).getLsbD 2, (s.reg Reg.bistRegion).toNat, false⟩ ∧
      t.mem = (if (s.reg Reg.bistCtl).getLsbD 2 then s.mem.clearGranule (s.reg Reg.bistRegion).toNat
        else s.mem.clearCluster (BitVec.ofNat 12 (s.reg Reg.bistRegion).toNat)) := by
  simp only [State.bistFree] at hfree
  simp only [row_bistCtlStart, execBistCtlStart, State.ownerWrite_owner _ hserves harr howner, hidle, hfree, hretain,
    hservice, Option.isSome_none, Bool.not_true, Bool.not_false, decide_false, Bool.and_false, Bool.false_eq_true, if_false]
  refine ⟨_, rfl, ?_⟩
  split
  · exact ⟨rfl, rfl⟩
  · exact ⟨rfl, rfl⟩

end

theorem State.repairs_repair {r : Repair} (h : s.mem.spareLeft r = true) : (s.repair r).mem.repairs = s.mem.repairs ++ [r] := by
  simp [State.repair, h]

/-- R509, R510: what the end of a run leaves. -/
theorem exec_runTimeBistDone (pass : Bool) (repairs : List Repair) {b : BistRun} (hb : s.rst.bist = some b) :
    Answers (exec (.runTimeBistDone pass repairs) s) fun t => t.rst.bist = none ∧
      t.mem = (repairs.foldl State.repair s).mem ∧
      (t.rst.outOfPool = if pass then s.rst.outOfPool else (b.granule, b.index) :: s.rst.outOfPool) ∧
      (t.reg Reg.bistStat).getLsbD 1 = true := by
  simp only [row_runTimeBistDone, execRunTimeBistDone, hb]
  refine ⟨_, rfl, ?_, ?_, ?_, ?_⟩
  · rw [State.postOwner_rst, State.bistStatus_rst, State.setReg_rst]
  · rw [State.postOwner_mem, State.bistStatus_mem, State.setReg_mem]; rfl
  · rw [State.postOwner_rst, State.bistStatus_rst, State.setReg_rst]
  · rw [State.reg_postOwner_ne _ _ _ _ (by decide), State.bistStatus_done]

/-- R235, R509–R511: the owner's writes, those of another master, the start of a run, a repair, and the end of a run. -/
theorem selfTest : Claims.SelfTest := by
  refine ⟨fun s m hserves harr howner => ?_, fun s m hserves harr howner => observersOnlyCount hserves harr howner,
    ?_, fun s r h => State.repairs_repair h,
    fun s pass repairs b hb => exec_runTimeBistDone pass repairs hb⟩
  · simp only [row_rstModeReqTest, row_rstModeReqService, row_bistCtlFuse, row_memFlipArm, execRstModeReqTest,
      execRstModeReqService, execBistCtlFuse, execMemFlipArm, State.ownerWrite_owner _ hserves harr howner]
    refine ⟨fun h hlive => ?_, fun h hlive => ?_, fun h => ?_, fun h => ?_, fun h => ?_, fun h => ?_, fun h => ?_, fun h => ?_⟩
    · simp [h, hlive]
    · simp [h, hlive]
    · simp [h]
    · rw [if_pos h]
    · rw [if_pos h]
    · simp [h]
    · rw [if_pos h]
      exact ⟨_, rfl, State.mem_refuseFlip, State.refuseFlip_refused⟩
    · rw [if_neg h]
      exact ⟨_, rfl, rfl, rfl, _, rfl, rfl, rfl, rfl⟩
  · intro s m i granule retain isFree hserves harr howner hidle
    have hiff : s.bistFree granule i = true ↔ isFree := State.bistFree_iff
    refine ⟨fun hfree => ?_, fun hfree hretain hservice => ?_, fun hfree hretain => ?_, fun hfree hretain hservice => ?_⟩
    · have htaken : s.bistFree granule i = false := Bool.eq_false_iff.2 (mt hiff.1 hfree)
      exact ⟨_, exec_bistCtlStart_taken hserves harr howner hidle htaken, hidle, State.bistStatus_mem .., State.bistStatus_code _⟩
    · exact ⟨_, exec_bistCtlStart_service hserves harr howner hidle (hiff.2 hfree) hretain hservice, hidle,
        State.bistStatus_mem .., State.bistStatus_code _⟩
    · exact exec_bistCtlStart_retain hserves harr howner hidle (hiff.2 hfree) hretain
    · exact exec_bistCtlStart_clears hserves harr howner hidle (hiff.2 hfree) hretain hservice

end Sys2Proof.Machine
end

section
/-!
O55: clock domains and self-test.
-/

namespace Sys2Proof

/-- Settles O55: a domain's reset writes the domains held in reset once, and nothing that it runs after that writes them again;
the rows of the modes and of self-test are computed case by case. -/
theorem domainsAndSelfTest : Obligations.DomainsAndSelfTest := ⟨Machine.clockDomains, Machine.selfTest⟩

end Sys2Proof
end
